-- ==== Sys2Proof/Word.lean ====
section
/-! DEFINITION. The word types of the model: bytes, the 32-bit register word and the 64-bit value (00_scope.md,
"Registers are 32 bits wide and little-endian"). -/

namespace Sys2Proof

/-- One byte of a payload, a frame or a record. -/
abbrev Byte := BitVec 8

/-- A 16-bit value: one component of linear light (R18). -/
abbrev Half := BitVec 16

/-- A BAR0 register word. -/
abbrev Word := BitVec 32

/-- A 64-bit register, fence value or tick number. -/
abbrev DWord := BitVec 64

end Sys2Proof
end

