-- ==== Sys2Proof/Machine/Sparse.lean ====
section
/-! DEFINITION. Sparse stores: a list of (key, value) pairs in one canonical form (keys strictly rising, no pair equal to
what an unlisted key reads as), so that equal stores are equal data.  The register file, the value cells, the composed
values and every array of like records of State are kept so. -/

namespace Sys2Proof.Machine

/-- A store keyed by Nat; what an unlisted key reads as is an argument of the operations. -/
abbrev Sparse (α : Type) := List (Nat × α)

/-- The value of a key; an unlisted key reads as `d k`. -/
def sget {α : Type} (d : Nat → α) : Sparse α → Nat → α
  | [], k => d k
  | (j, w) :: m, k => if k = j then w else sget d m k

/-- Store `v` at `k`, keeping the canonical form: writing what an unlisted key reads as removes the pair. -/
def sput {α : Type} [DecidableEq α] (d : Nat → α) : Sparse α → Nat → α → Sparse α
  | [], k, v => if v = d k then [] else [(k, v)]
  | (j, w) :: m, k, v =>
    if k < j then (if v = d k then (j, w) :: m else (k, v) :: (j, w) :: m)
    else if k = j then (if v = d k then m else (k, v) :: m)
    else (j, w) :: sput d m k v

/-- Every key is above `k`. -/
def sabove {α : Type} (k : Nat) : Sparse α → Bool
  | [] => true
  | (j, _) :: m => decide (k < j) && sabove k m

/-- The canonical form. -/
def swf {α : Type} [DecidableEq α] (d : Nat → α) : Sparse α → Bool
  | [] => true
  | (j, w) :: m => sabove j m && !decide (w = d j) && swf d m

/-- Every pair's value through `f`. -/
def smap {α : Type} [DecidableEq α] (d : Nat → α) (f : α → α) (m : Sparse α) : Sparse α :=
  (m.map fun kv => (kv.1, f kv.2)).filter fun kv => !decide (kv.2 = d kv.1)

/-- Keep only the pairs whose key satisfies `p`. -/
def sfilter {α : Type} (p : Nat → Bool) (m : Sparse α) : Sparse α := m.filter fun kv => p kv.1

end Sys2Proof.Machine
end

