-- ==== Sys2Proof/Machine/Data.lean ====
section
/-! DEFINITION. The data of the device and of its commands: a structure for each thing that the spec names and no register
holds.  Every field's default is its reset value. -/

namespace Sys2Proof

/-- Who writes a servo register: host software over BAR0 or the rider firmware (R34). -/
inductive Party where
  | host | rider
  deriving DecidableEq, Repr

/-- A PTP message as the port receives it (R47).  Times and intervals are the message's own fields. -/
inductive PtpMessage where
  /-- Announce: grandmasterIdentity (first octet in bits 7 – 0) and logMessageInterval. -/
  | announce (gm : DWord) (log : BitVec 8)
  /-- Sync: the sender's clock and logMessageInterval. -/
  | sync (gm : DWord) (log : BitVec 8)
  /-- The protocol stack completes a Sync exchange: reception time, offsetFromMaster and meanPathDelay (R36). -/
  | exchange (sec : BitVec 48) (ns : Word) (offset delay : DWord)
  /-- Another event message (Delay_Req, Pdelay_Req, Pdelay_Resp). -/
  | otherEvent
  /-- A general message that changes no state of the timebase. -/
  | general
  deriving DecidableEq, Repr

/-- A PTP event message that leaves a port; Pdelay_Resp carries the reception time, in ns, that it answers (R48). -/
inductive PtpTransmit where
  | sync
  | pdelayResp (rx : DWord)
  | other
  deriving DecidableEq, Repr

/-- The capture registers whose read latches their companions (R53, TK_BOUND_FRAC, MTR_LATCH_NS). -/
inductive TimeCapture where
  | ppsIn
  | tkBound
  | mtrLatch (feed : Fin 16)
  deriving DecidableEq, Repr

/-- A ring (R93): submission, completion or event. -/
inductive RingId where
  | sq (i : Fin 32)
  | cq (i : Fin 32)
  | eq (i : Fin 8)
  deriving DecidableEq, Repr

/-- What a frame on an Ethernet port is. -/
inductive FrameKind where
  | ptp | data | sync | command | plan | key | image | sacn | sacnSync | sacnDiscovery | reply | arp
  deriving DecidableEq, Repr


/-- A tile of a host-memory layer as the device reads it now: the tile index of R208 and the bytes of its in-layer pixels
in row-major order. -/
structure HostTile where
  layer : Fin 1024
  tile : BitVec 20
  bytes : List Byte
  deriving DecidableEq, Repr

/-- The guard header of a layer as read at the start of the compose window (R155). -/
structure GuardHeader where
  layer : Fin 1024
  bytes : BitVec 128
  deriving DecidableEq, Repr

/-- A tile of a device-filled layer fetched from DRAM (R208). -/
structure DramTile where
  layer : Fin 1024
  tile : BitVec 20
  deriving DecidableEq, Repr

/-- The part of a video row that a packet carries (R165): row number, byte offset in the row's packed samples, bytes. -/
structure RowData where
  row : Half
  offset : Nat
  bytes : List Byte
  deriving DecidableEq, Repr

/-- An ST 2110-20 packet of a stream as received (R165 – R168): the path on which it came, its 32-bit extended sequence
number, RTP timestamp and marker, and its rows; `agrees` tells that it fits R165 and the FE_STRM registers, `full` that the
receive buffer had no room for it (R167). -/
structure StreamPacket where
  secondary : Bool
  seq : Word
  ts : Word
  marker : Bool
  rows : List RowData
  agrees : Bool
  full : Bool
  deriving DecidableEq, Repr

/-- An E1.31 data packet (R172 – R174). -/
structure SacnPacket where
  uni : Half
  cid : BitVec 128
  priority : Byte
  seq : Byte
  syncAddress : Half
  preview : Bool
  terminated : Bool
  startCode : Byte
  slots : List Byte
  deriving DecidableEq, Repr

/-- What the decoder or the bus reports of a word (R473, R476): corrected, uncorrectable, or an access repeated, which
succeeded or not. -/
inductive WordError where
  | one
  | two
  | lost
  | bus (repeats : Nat) (ok : Bool)
  deriving DecidableEq, Repr

/-- What a word holds for the block that reads it (R482), by number: `temp` by the entries of R221, with local sensor s at 262,144 + s;
`trim` by 4 × node + component; `retired` and `retiredNode` the channels in the record of R338; `curbTerm` and `phasor` by
4 × feed + phase; `cue` and `eventItem` by the place in their store. -/
inductive Consumer where
  | other
  | mapBlock (seg : Nat)
  | layerTile (layer : Nat)
  | frameStore (seg : Nat)
  | guardCopy (layer : Nat)
  | rider
  | tileCache
  | mapCache
  | temp (entry : Nat)
  | trim (entry : Nat)
  | ladder (ch : Nat)
  | retired (ch : Nat)
  | retiredNode (node ch : Nat)
  | presence (zone : Nat)
  | curbTerm (fp : Nat)
  | phasor (fp : Nat)
  | cue (step : Nat)
  | eventItem (queue item : Nat)
  | fence (f : Nat)
  | lineBuffer
  | releaseBuffer
  | secure
  deriving DecidableEq, Repr

/-- A word that a read met with bits in error: MEMID, byte address, what was wrong, and what it holds. -/
structure BadWord where
  mem : Fin 9
  addr : BitVec 40
  err : WordError
  holds : Consumer
  deriving DecidableEq, Repr

/-- What answers an RDM transaction (R314): a response with its type (0 ACK, 1 ACK_TIMER, 2 NACK_REASON, 3 ACK_OVERFLOW) and
parameter data, or the answer to DISC_UNIQUE_BRANCH: one UID, or none that can be read where several collide. -/
inductive RdmReply where
  | response (typ : Fin 4) (data : List Byte)
  | branch (uid : Option (BitVec 48))
  deriving DecidableEq, Repr

namespace Machine

/-- The 200 MHz timebase (R30 – R44) and its 1PPS output; times are whole units of 2^-32 ns since the PTP epoch, so one
value holds the seconds, nanoseconds and fraction fields of R30. -/
structure Timebase where
  /-- The counter of R30. -/
  now : Nat := 0
  /-- The effective increment without the slew term (R31): 5.0 ns after power-on reset (R32). -/
  eff : Nat := 21474836480
  /-- A committed TB_INCR value and the cycles left before it is in force (R31). -/
  commit : Option (Nat × Nat) := none
  /-- The pending offset of R42. -/
  pend : Int := 0
  /-- An accepted TB_STEP not yet applied, in ns (R44). -/
  step : Option Int := none
  /-- Cycles left before an accepted step is applied while the tick unit does not run (R44). -/
  stepIn : Nat := 0
  /-- Time spent in the current or most recent HOLDOVER (TB_HO_TIME). -/
  hoFor : Nat := 0
  /-- The logMessageInterval announced by the master in Announce and in Sync (R38). -/
  annLog : Int := 0
  syncLog : Int := 0
  /-- The latest whole second that TB_PPS_OUT has marked, before every second while there is none (R52, R56). -/
  ppsMark : Int := -4
  /-- The lowest time at which the output has been enabled since its latest enabling: seconds from there on are marked. -/
  ppsLow : Nat := 0
  /-- The level of TB_PPS_OUT and the instant at which it falls (R52). -/
  ppsHigh : Bool := false
  ppsFall : Nat := 0
  /-- The timestamps queued for the rider firmware: (ETH window, time), oldest first (R51). -/
  stamps : List (Nat × Nat) := []
  deriving DecidableEq, Repr

/-- A gait or period change that is pending (R84 – R86). -/
structure GaitChange where
  mask : Nat := 0
  gait : Nat := 0
  periodNs : Nat := 0
  periodFrac : Nat := 0
  raster : Nat := 0
  effTick : Nat := 0
  /-- Boundary T + 1, at which the change is fixed and its announcement begins (R86). -/
  fixTick : Nat := 0
  deriving DecidableEq, Repr

/-- Hoofbeat, the tick unit (R59 – R90): what TK_* registers do not show. -/
structure TickUnit where
  /-- Boundaries are being generated (TK_STATUS.RUNNING). -/
  running : Bool := false
  /-- A start is pending: its first boundary is the first grid instant at or after this time (R62, R638). -/
  startAfter : Option Nat := none
  /-- A stop is pending: the next boundary is the stopping boundary (R64). -/
  stopping : Bool := false
  /-- The comparator target of the next boundary (R61, R88). -/
  next : Nat := 0
  /-- The instant from which the phases of the tick are measured: the boundary with any step applied (R68, R88). -/
  begin : Nat := 0
  /-- The period and the reduced phase in force (R59, R60). -/
  period : Nat := 21474836480000000
  phase : Nat := 0
  /-- The current tick is a re-alignment tick (TK_STATUS.REALIGN). -/
  realign : Bool := false
  /-- TICK_NO of the first tick of the run. -/
  began : Nat := 0
  change : Option GaitChange := none
  /-- Consecutive overrun ticks so far and OVERLOAD (R78). -/
  overruns : Nat := 0
  overload : Bool := false
  /-- The tick in progress is an overrun tick. -/
  overran : Bool := false
  /-- Which phases of the tick have passed: compose start, compose end, solve, telemetry close (R68). -/
  composing : Bool := false
  composed : Bool := false
  solved : Bool := false
  closed : Bool := false
  /-- The actions of a boundary are being performed (R70). -/
  acting : Bool := false
  /-- The instant of the latest free close (R378). -/
  freeClose : Nat := 0
  deriving DecidableEq, Repr

/-- One event (R108): the entry without its phase bit. -/
structure Event where
  typ : Nat
  srcKind : Nat := 0
  srcIndex : Nat := 0
  merged : Bool := false
  reporters : Nat := 1
  ns : Nat := 0
  sec : Nat := 0
  /-- Bytes 16 – 31. -/
  payload : List Byte := []
  deriving DecidableEq, Repr

/-- A pending GAP (R382). -/
structure Gap where
  dropped : Nat := 0
  overwritten : Nat := 0
  ns : Nat := 0
  sec : Nat := 0
  firstTick : Nat := 0
  deriving DecidableEq, Repr

/-- One event queue: its items, its pending GAP, and the item that a read of TLM_EQ_RD word 0 latched (R379 – R383). -/
structure EventQueue where
  items : List Event := []
  gap : Option Gap := none
  latched : List Byte := []
  deriving DecidableEq, Repr

/-- A completion that is due (R101, R102): everything of the entry but SQ_HEAD and PHASE, which are those of the write;
`signal` is the fence that a failed descriptor signals when the entry is written (R132). -/
structure Completion where
  tag : Nat
  status : Nat
  sq : Nat
  mirrored : Bool := false
  result : Nat := 0
  signal : Option (Nat × Nat) := none
  deriving DecidableEq, Repr

/-- A descriptor that waits on its fence at the head of its ring (R129, R131). -/
structure Waiting where
  bytes : List Byte
  since : Nat
  /-- HIF_SQ_FTMO when the wait started, in ms. -/
  tmo : Nat
  deriving DecidableEq, Repr

/-- What submission ring s holds beside its registers: fetched descriptors not started (R99) and the wait of its head. -/
structure SubRing where
  store : List (List Byte) := []
  waiting : Option Waiting := none
  deriving DecidableEq, Repr

/-- A started descriptor whose execution has not ended (R100); `journal` marks an entry that a wheeler executes (R136). -/
structure Running where
  sq : Nat
  bytes : List Byte
  journal : Bool := false
  /-- The payload that the journal carries (R445). -/
  data : List Byte := []
  /-- The journal index of a journalled descriptor, 0 for one that is not journalled, and its commit boundary (R446). -/
  index : Nat := 0
  bound : Nat := 0
  /-- The wheeler acknowledged its journal entry (R115). -/
  mirrored : Bool := false
  /-- It waits for a boundary, which RESULT reports (R121). -/
  staged : Bool := false
  deriving DecidableEq, Repr

/-- What a completion or event ring holds beside its registers: entries due and not written (R104), and the entries
written that no MSI-X message reported, with the time of the oldest (R112). -/
structure OutRing where
  held : List Completion := []
  stalled : Bool := false
  unreported : Nat := 0
  oldest : Nat := 0
  deriving DecidableEq, Repr

/-- A change staged for a tick boundary: an RWT register write or a TICK_BOUND descriptor with its payload (R14, R114).
`late` marks one that missed the staging cut-off of the next boundary (R71); `due` is the boundary number that a journal
fixes (R136, R446). -/
inductive Staged where
  | reg (off value : Nat) (late : Bool)
  | desc (d : Running) (payload : List Byte) (late : Bool) (due : Option Nat)
  deriving DecidableEq, Repr

/-- The host interface (HIF): rings, executing descriptors, fences (R95 – R138). -/
structure HostIf where
  sq : Sparse SubRing := []
  cq : Sparse OutRing := []
  eq : Sparse OutRing := []
  running : List Running := []
  /-- For each priority, the ring that last started a descriptor (R100); after reset the search starts at ring 0. -/
  lastRing : Sparse Nat := []
  /-- Fences 1 – 4,095 (R126); fence 0 is TICK_NO (R127). -/
  fences : Sparse Nat := []
  /-- Fences whose word a memory error broke (R482). -/
  broken : List Nat := []
  deriving DecidableEq, Repr

/-- A contribution of a record (R193) with the steps of a run (R194); an explicit entry has steps 0. -/
structure Contrib where
  layer : Nat
  x : Nat
  y : Nat
  mode : Nat
  blend : Nat
  msel : Nat
  weight : Nat
  dx : Int := 0
  dy : Int := 0
  deriving DecidableEq, Repr

/-- A record of the endpoint map (R191 – R194): `masks` holds MASK3 – MASK0, `attr` the word ATTR. -/
structure Record where
  run : Bool := false
  comp : Nat := 0
  fill : Option Nat := none
  masks : Nat := 0
  attr : Nat := 0
  contribs : List Contrib := []
  deriving DecidableEq, Repr

/-- A record as it stands in a segment block: `len` endpoints from `first`, at positions of the record from `k0` (R194,
R197). -/
structure Span where
  first : Nat
  len : Nat
  k0 : Nat := 0
  entry : Record := {}
  deriving DecidableEq, Repr

/-- A segment block: its place in the map region and its records in endpoint order (R187, R198). -/
structure Block where
  addr : Nat := 0
  size : Nat := 0
  spans : List Span := []
  deriving DecidableEq, Repr

/-- A map change that has executed and is not yet in force, with the places reserved for its new blocks (R198):
(segment, address, size). -/
structure MapChange where
  spans : List Span
  places : List (Nat × Nat × Nat)
  deriving DecidableEq, Repr

/-- A buffer of a host-memory layer that is accepted and not latched (R147 – R149): generation, address, REL_FENCE and
REL_VALUE; `late` marks one that missed the cut-off of the next boundary. -/
structure HostBuf where
  gen : Nat
  addr : Nat
  rel : Option (Nat × Nat) := none
  late : Bool := false
  deriving DecidableEq, Repr

/-- What a layer has latched (R146, R161): a host buffer, a stream frame (its stored form, keyed 4 × pixel + component),
or cells (keyed 8 × cell + component). -/
inductive Content where
  | none
  | host (gen addr : Nat)
  | image (capture : Nat) (pixels : Sparse Nat)
  | cells (values : Sparse Nat)
  deriving DecidableEq, Repr

/-- A registered layer (R160): its definition, its space in the layer region (R179), and its content. -/
structure Layer where
  typ : Nat := 0
  format : Nat := 0
  width : Nat := 0
  height : Nat := 0
  stride : Nat := 0
  srcIndex : Nat := 0
  srcCount : Nat := 0
  guard : Bool := false
  addr : Nat := 0
  size : Nat := 0
  latched : Content := .none
  /-- FE_LAYER_GEN: the latched generation, or the content count of R180. -/
  gen : Nat := 0
  /-- Type 0: buffers accepted and not latched, oldest first (R147, R148). -/
  bufs : List HostBuf := []
  /-- Type 3: the cells as cue steps have left them (R176), keyed 8 × cell + component. -/
  cells : Sparse Nat := []
  /-- Type 3: a cue step has entered since the latest latch (R180). -/
  changed : Bool := false
  /-- Type 1: sampled as fully transparent while the stream is lost (R171). -/
  clear : Bool := false
  /-- The guard copy by tile index: the stored-form pixels, 4 components each (R157). -/
  copy : Sparse (List Nat) := []
  /-- The LAYER_RETIRE that is pending (R151). -/
  retiring : Option Running := none
  deriving DecidableEq, Repr

/-- A cue record (R232). -/
structure CueRec where
  cell : Nat
  mask : Nat
  vals : List Nat
  deriving DecidableEq, Repr

/-- A cue step held in the cue store (R234). -/
structure CueStep where
  layer : Nat
  target : Nat
  recs : List CueRec
  deriving DecidableEq, Repr

/-- A video frame in reception (R168, R169): RTP timestamp, capture time in timebase units, the bytes of each line by
byte offset, whether frame end has come (R182), the time at which it was complete, and what the partner holds. -/
structure StreamFrame where
  ts : Nat := 0
  capture : Nat := 0
  lines : Sparse (Sparse (List Byte)) := []
  ended : Bool := false
  completeAt : Option Nat := none
  /-- Line digests of the partner by line, plus 1 (R181), and its frame digest (R170). -/
  partner : Sparse Nat := []
  confirmed : Option (Nat × Nat) := none
  deriving DecidableEq, Repr

/-- A stream: its frames in reception, oldest first, the newest extended sequence number, the numbers missing with the time
at which each was missed, the newest number of each path, and what STREAM_STATE counts (R168, R171, R186). -/
structure Stream where
  frames : List StreamFrame := []
  newest : Option Nat := none
  missing : List (Nat × Nat) := []
  pri : Option Nat := none
  sec : Option Nat := none
  /-- Arrival of the latest packet, and the packets lost since the latest STREAM_STATE. -/
  last : Nat := 0
  lost : Nat := 0
  deriving DecidableEq, Repr

/-- An sACN source of a universe (R173, R174): CID, last accepted sequence number, priority, time of the last packet, its
newest slots in effect (empty before any), and the slots held for a synchronisation address. -/
structure SacnSource where
  cid : Nat
  seq : Nat
  prio : Nat
  last : Nat
  slots : List Byte := []
  held : Option (Nat × List Byte) := none
  deriving DecidableEq, Repr

/-- An sACN universe (R173 – R175): its sources, the source selected, the data that has taken effect with its time, oldest
first, and what the latest latch took. -/
structure Universe where
  sources : List SacnSource := []
  selected : Option Nat := none
  lost : Bool := false
  data : List (Nat × List Byte) := []
  latched : List Byte := []
  deriving DecidableEq, Repr

/-- An entry of the temperature table (R221): the temperature as a 16-bit field and the time at which it was written. -/
structure TempEntry where
  value : Nat := 0
  written : Option Nat := none
  stale : Bool := false
  /-- Written again since it became stale, to be counted at the next close (R222). -/
  back : Bool := false
  deriving DecidableEq, Repr

/-- A layer as a frame's latch holds it (R142). -/
structure LatLayer where
  typ : Nat := 0
  format : Nat := 0
  width : Nat := 0
  height : Nat := 0
  stride : Nat := 0
  guard : Bool := false
  content : Content := .none
  clear : Bool := false
  deriving DecidableEq, Repr

/-- The inputs of a frame, fixed at its latch (stage 1 of R22, R142, R213, R231, R245). -/
structure Inputs where
  blocks : Sparse Block := []
  layers : Sparse LatLayer := []
  /-- Colour tables by 128 × TABLE + index, as their payload bytes (R229). -/
  colour : Sparse (List Byte) := []
  /-- Latched temperatures by entry; an entry that is stale or never written is absent (R222). -/
  temps : Sparse (Option Nat) := []
  tempDef : Nat := 0
  /-- Applied trims by 4 × node + component (R224). -/
  trims : Sparse Int := []
  /-- The retirement set (R207). -/
  retired : List Nat := []
  /-- Limits, floors and nominal voltages by 128 × KIND + INDEX, and power models (R245, R247). -/
  limits : Sparse Nat := []
  models : Sparse (List Byte) := []
  curbOn : Bool := false
  rise : Nat := 0
  /-- V of R242 and the correction terms of R251, by feed phase. -/
  volts : Sparse Nat := []
  corr : Sparse Int := []
  /-- DRV_CH_CFG of the local channels by channel (R346). -/
  drive : Sparse Nat := []
  deriving DecidableEq, Repr

/-- The composed values of one segment with the records of the frame that produced them (R24, R214); values are keyed
8 × (endpoint in the segment) + component. -/
structure SegImage where
  spans : List Span := []
  vals : Sparse Nat := []
  deriving DecidableEq, Repr

/-- What the registers of R212 and FE_CLR_CLIP count while a frame is composed. -/
structure ComposeCount where
  cost : Nat := 0
  time : Nat := 0
  stall : Nat := 0
  bytes : Nat := 0
  dram : Nat := 0
  host : Nat := 0
  absent : Nat := 0
  fill : Nat := 0
  clip : Nat := 0
  deriving DecidableEq, Repr

/-- The result of a solve (R243 – R249): factors s_fp by 4 × fp + class, s_tm by 4 × team + class, s_gl by class; the
predictions before and after scaling; the limits that lower a factor and those unmet, by scope key (fp, 64 + team,
128). -/
structure Solve where
  fp : Sparse Nat := []
  tm : Sparse Nat := []
  gl : Sparse Nat := []
  /-- Predictions before scaling by scope key, as events report them. -/
  before : Sparse Int := []
  /-- Predictions after scaling by scope key, as the registers show them. -/
  after : Sparse Int := []
  active : List Nat := []
  unmet : List Nat := []
  limit : Sparse Nat := []
  /-- I_model of R251 by feed phase. -/
  model : Sparse Nat := []
  tick : Nat := 0
  deriving DecidableEq, Repr

/-- A locator (R294). -/
structure Locator where
  first : Nat
  count : Nat
  ofs : Nat
  comps : Nat
  deriving DecidableEq, Repr

/-- A frame between its latch and the end of its release tick (R22, R66). -/
structure Frame where
  tick : Nat := 0
  inputs : Inputs := {}
  /-- S of R188 and the first segment of the compose order (R76). -/
  count : Nat := 0
  first : Nat := 0
  /-- The lanes: position of the next segment and the instant at which the lane is free. -/
  lanes : List (Nat × Nat) := []
  done : List Nat := []
  held : List Nat := []
  /-- Memory-error holds (R75). -/
  memHeld : List Nat := []
  images : Sparse SegImage := []
  /-- Guarded layers whose header failed in this frame (R156). -/
  failed : List Nat := []
  /-- Host tiles read in the tick, keyed 2^20 × layer + tile: stored-form pixels, and the first content read (R209). -/
  tiles : Sparse (List Nat) := []
  read : Sparse (List Nat) := []
  counts : ComposeCount := {}
  solve : Solve := {}
  solved : Bool := false
  /-- Locators of the latched map by port, with their generation (R295). -/
  locs : Sparse (Nat × Sparse Locator) := []
  /-- Generations of the layers at its latch (R278). -/
  gens : Sparse Nat := []
  deriving DecidableEq, Repr

/-- Layer ingest, the frame engine and the colour pipeline (R139 – R237). -/
structure FrameEngine where
  layers : Sparse (Option Layer) := []
  /-- Registrations accepted and not yet in force (R151), by layer. -/
  registering : Sparse (Option Layer) := []
  blocks : Sparse Block := []
  changes : List MapChange := []
  /-- A change of the map region discards the map at the next latch (R640). -/
  discard : Bool := false
  /-- The map region in force: base and size (R640). -/
  region : Nat × Nat := (0, 0)
  cues : List CueStep := []
  /-- Newest accepted sequence number of each media port, extended by counting wraps (R137, R139). -/
  cueSeq : Sparse (Option Nat) := []
  colour : Sparse (List Byte) := []
  temps : Sparse TempEntry := []
  /-- The temperatures as they stood at the latest close (R221). -/
  tempsClosed : Sparse (Option Nat) := []
  trimTarget : Sparse Int := []
  trims : Sparse Int := []
  streams : Sparse Stream := []
  universes : Sparse Universe := []
  /-- The retired endpoints (R207). -/
  retired : List Nat := []
  /-- The frames in the device, oldest first. -/
  frames : List Frame := []
  /-- The previous composed values of each segment (R24). -/
  prev : Sparse SegImage := []
  /-- The previous frame's held segments in compose order, memory-error holds excepted (R76). -/
  lastHeld : List Nat := []
  /-- Host layers' read digests and generations of the previous tick (R184). -/
  digests : Sparse Nat := []
  deriving DecidableEq, Repr

/-- Curb (R238 – R254). -/
structure Governor where
  limits : Sparse Nat := []
  models : Sparse (List Byte) := []
  corr : Sparse Int := []
  /-- CORR_CLR was written: every correction term becomes 0 at the next boundary (R252). -/
  clear : Bool := false
  /-- The latest completed solve: its factors bound the rise of the next (R249). -/
  last : Solve := {}
  /-- The solve whose registers telemetry close loads. -/
  due : Option Solve := none
  /-- I_model of the frames presented or to be presented, by tick (R251), and ticks whose frame lost segments (R252). -/
  inFlight : List (Nat × Sparse Nat) := []
  /-- Limits that lowered a factor and limits unmet in the frame of the latest close (R254). -/
  active : List Nat := []
  unmet : List Nat := []
  lateTicks : List Nat := []
  deriving DecidableEq, Repr


/-- An error record (R485, R489). -/
structure ErrRecord where
  sev : Nat
  memid : Nat := 0xFF
  kind : Nat
  region : Nat := 0
  first : Nat := 0
  last : Nat := 0
  flags : Nat := 0
  count : Nat := 1
  firstAt : Nat := 0
  lastAt : Nat := 0
  tick : Nat := 0
  /-- Until the close: the DEGRADED words of the record (R483), and whether a rider restart follows (R485). -/
  words : List (Nat × Nat) := []
  restart : Bool := false
  deriving DecidableEq, Repr

/-- MEM_CORRECTED of one memory (R490): the errors of the CORRECTED records closed since the latest event, the first of
them, and when that event was posted. -/
structure Corrected where
  waiting : Option ErrRecord := none
  posted : Option Nat := none
  deriving DecidableEq, Repr

/-- Memories, records and the error log (R473 – R494). -/
structure Integrity where
  /-- Poisoned words (R475): (MEMID, address). -/
  poison : List (Nat × Nat) := []
  /-- The open records by rank 0 – 2 (R485, R486); the highest-ranked is in handling. -/
  records : Sparse (Option ErrRecord) := []
  /-- The latest 256 corrected addresses (MEMID, address, time) (R483). -/
  corrected : List (Nat × Nat × Nat) := []
  watch : List (Nat × Nat) := []
  /-- Rows that the Saddle monitor has to spare (R478): (MEMID, address). -/
  sparing : List (Nat × Nat) := []
  /-- Spares used by macro, keyed 65536 × MEMID + macro. -/
  spared : Sparse Nat := []
  /-- Consecutive failed accesses of a DRAM channel (R476). -/
  failed : Sparse Nat := []
  /-- A DEVICE_FAULT that the fail-safe sequencer has to act on (R486, R493). -/
  fault : Option ErrRecord := none
  /-- A rider restart is due (R482, R484), and the times of the latest ones. -/
  riderDue : Bool := false
  restarts : List Nat := []
  /-- Entries of endpoint state that take their reset value at the next boundary (R482). -/
  resets : List Consumer := []
  /-- The error log, oldest first (R488). -/
  log : List ErrRecord := []
  /-- MEM_CORRECTED by memory (R490). -/
  summary : Sparse Corrected := []
  /-- MEM_DEVICE_FAULT has still to be posted (R490). -/
  reportFault : Bool := false
  /-- The scrub passes, 0 DRAM and 1 on-chip (R479): when the pass began, words read, corrections. -/
  passes : Sparse (Nat × Nat × Nat) := []
  /-- The metering restore (R417) and the ledger read (R432) are complete, and when NORMAL was last entered. -/
  restored : Bool := false
  ledger : Bool := false
  normalAt : Option Nat := none
  deriving DecidableEq, Repr

/-- A journal entry (R445, R446): its origin (0 descriptor, 1 network cue, 2 CMD_ID, 3 planner plan, 4 swap decision), the
descriptor with its payload, the time at which its JRN went out, and the commit boundary once it is known. -/
structure JournalEntry where
  index : Nat
  origin : Nat
  d : Running
  sentAt : Nat := 0
  acked : Bool := false
  commit : Option Nat := none
  deriving DecidableEq, Repr

/-- A secret held as two shares whose exclusive-or is its value (R528). -/
structure Shares where
  a : Nat := 0
  b : Nat := 0
  deriving DecidableEq, Repr

/-- The value of a secret. -/
def Shares.value (x : Shares) : Nat := Nat.xor x.a x.b

/-- An owner slot (R504, R506): STATE 0 EMPTY, 1 ACTIVE, 2 DRAIN, 3 GRACE, 4 DEAD. -/
structure KeySlot where
  state : Nat := 0
  kind : Nat := 0
  parent : Option Nat := none
  gen : Nat := 0
  label : Nat := 0
  seed : Shares := {}
  key : Shares := {}
  /-- A DOMAIN slot that changes over (R514): the generation and key that frames before `effKe` still use. -/
  old : Option (Nat × Shares) := none
  effKe : Nat := 0
  /-- The end of its grace, and when the latest KEY_GRACE was posted (R523, R524). -/
  deadline : Nat := 0
  noticed : Nat := 0
  /-- SESSION would have advanced during its grace: its ports send nothing (R524). -/
  silent : Bool := false
  deriving DecidableEq, Repr

/-- A commit record in NOR (R520): slot, copy in force, GEN, COUNTER. -/
structure Commit where
  slot : Nat
  copy : Nat
  gen : Nat
  counter : Nat
  deriving DecidableEq, Repr

/-- The Tack room (R503 – R533). -/
structure TackRoom where
  /-- OTP: the fused secret, the serial number and the authority positions, each a hash with whether its check word
  verifies (R505, R522, R531). -/
  secret : Nat := 0
  serial : Nat := 0
  positions : Sparse (Option (Nat × Bool)) := []
  /-- The device slots (R505): root, identity and agreement scalars, storage key. -/
  root : Shares := {}
  identity : Shares := {}
  agreement : Shares := {}
  storage : Shares := {}
  slots : Sparse KeySlot := []
  /-- NOR: the two copies of each slot record, keyed 2 × slot + copy, and the commit records, oldest first (R520). -/
  copies : Sparse KeySlot := []
  commits : List Commit := []
  /-- SESSION values that may still be entered, whether a reserve write is under way, and an advance that waits (R509). -/
  reserve : Nat := 0
  writing : Bool := false
  waits : Bool := false
  /-- The reserve write has gone to NOR, and the time before which a failed one is not retried (R509). -/
  underway : Bool := false
  retryAt : Nat := 0
  /-- NOR: the highest SESSION value reserved, and BOOTC (R509, R516). -/
  sessionEnd : Nat := 0
  bootc : Nat := 0
  /-- The bridle table in effect (R499, R500). -/
  bridle : List Byte := []
  /-- The SESSION before the present one, and the leader's two latest (R511, R512). -/
  before : Nat := 0
  leader : Nat := 0
  leaderBefore : Nat := 0
  /-- When the latest re-masking round began (R528). -/
  groomed : Nat := 0
  /-- The SESSION that the latest latch record told (R512). -/
  told : Nat := 0
  /-- Free closes since the latest key-epoch boundary (R510). -/
  closes : Nat := 0
  deriving DecidableEq, Repr

/-- A management frame that waits on a trace port (R275, R291): TYPE, level, node range and body; a KEY frame names the
DOMAIN slot that it carries. -/
structure MgmtFrame where
  typ : Nat
  level : Nat := 1
  first : Nat := 0
  count : Nat := 0
  body : List Byte := []
  deriving DecidableEq, Repr

/-- What a trace port does with the frame in its release tick (R257 – R275).  A *unit* is what leaves as one line, part or
universe: a range of endpoints (first, stop). -/
structure TracePort where
  /-- Units of the frame in raster or endpoint order. -/
  units : List (Nat × Nat) := []
  /-- Parts encoded, in ascending order, with the drop of those that met a memory error or a link that was down. -/
  encoded : List Nat := []
  dropped : List Nat := []
  sent : List (Nat × Nat) := []
  /-- The SYNC frame has left. -/
  sync : Bool := false
  /-- FRAME_NO of the next trace frame (R286). -/
  frameNo : Nat := 0
  /-- The instant from which the wire is free for the next frame. -/
  free : Nat := 0
  /-- The next raster line, the deferred units, and whether the raster has ended (R268 – R272). -/
  line : Nat := 0
  deferred : List (Nat × Nat) := []
  rasterDone : Bool := false
  /-- Management queues: 0 KEY, 1 CMD, 2 PLAN, 3 IMG (R291). -/
  queues : Sparse (List MgmtFrame) := []
  /-- Sequence numbers of its universes (R310). -/
  seqs : Sparse Nat := []
  /-- Nanoseconds starved and entries into level 3 in the tick in progress and in the tick before (R261). -/
  starved : Nat × Nat := (0, 0)
  starvedBefore : Nat × Nat := (0, 0)
  deriving DecidableEq, Repr

/-- A team (R83, R276 – R279): its frame has started and from when it may, its output signature is fixed, and what the
freeze detector keeps. -/
structure TeamOut where
  started : Bool := false
  fixed : Bool := false
  /-- The next frame is the first that the detector sees (R279). -/
  fresh : Bool := true
  sig : Nat := 0
  /-- Generations of the layers at the latch of the team's previous frame. -/
  gens : Sparse Nat := []
  deriving DecidableEq, Repr

/-- A node table entry (R300): the level and port in use, and those that take effect at the next tick. -/
structure Node where
  seen : Bool := false
  level : Nat := 1
  port : Nat := 0
  newLevel : Nat := 1
  newPort : Nat := 0
  /-- Last accepted report sequence number, image version, and time of the last valid TLM frame (R139, R305, R372). -/
  seq : Option Nat := none
  image : Nat := 0
  heard : Nat := 0
  silent : Bool := false
  /-- Heard again since it became silent (R372). -/
  back : Bool := false
  deriving DecidableEq, Repr

/-- An outstanding NODE_COMMAND (R302) or node image chunk (R550): the descriptor, its CMD_ID, the nodes that have not
replied, those that accepted and refused, repeats made, and the tick of the latest sending. -/
structure NodeCmd where
  d : Running
  id : Nat
  cmd : Nat
  args : List Byte := []
  image : Bool := false
  waiting : List Nat := []
  accepted : Nat := 0
  refused : Nat := 0
  repeats : Nat := 0
  sentTick : Nat := 0
  /-- An image chunk: its bytes (R550). -/
  chunk : List Byte := []
  deriving DecidableEq, Repr

/-- What an RDM transaction asks for (R314, R315). -/
inductive RdmJob where
  | request (uid : Nat) (cls pid : Nat) (data : List Byte)
  | branch (low high : Nat)
  | mute (uid : Nat)
  | unmute
  deriving DecidableEq, Repr

/-- A DMX port (R311 – R315). -/
structure DmxPort where
  /-- A packet is on the line, and the end of the latest packet or transaction. -/
  busy : Bool := false
  ends : Nat := 0
  /-- The RDM commands that wait, oldest first: the first is in progress, and its transactions yet to end stand in `jobs`. -/
  queue : List Running := []
  jobs : List RdmJob := []
  /-- The first of `jobs` is on the line since `sentAt`; repeats left to it, once it has been placed. -/
  onLine : Bool := false
  sentAt : Nat := 0
  left : Option Nat := none
  /-- A transaction has been placed since the latest packet. -/
  placed : Bool := false
  /-- RDM transaction number. -/
  tn : Nat := 0
  deriving DecidableEq, Repr

/-- Teams, trace ports and legacy outputs (R255 – R316). -/
structure Egress where
  ports : Sparse TracePort := []
  teams : Sparse TeamOut := []
  /-- ETH windows whose link is up. -/
  links : List Nat := []
  /-- Part digests of the frame in its release tick, keyed 16 × segment + port; port 8 is the residual part (R276, R451). -/
  digests : Sparse Nat := []
  residual : List Nat := []
  /-- Segments signed with the time of each, segments that the check permits to leave, and segments ready, in order. -/
  signed : List (Nat × Nat) := []
  cleared : List Nat := []
  ready : List Nat := []
  /-- The instant of the newest of them and how many bear it: parts of one instant go in segment order (R274). -/
  readyAt : Nat := 0
  readyRun : Nat := 0
  /-- Drive values of the frame in its release tick, and those presented, keyed 8 × endpoint + component. -/
  vals : Sparse Nat := []
  shown : Sparse Nat := []
  /-- The records of the segments presented. -/
  shownSpans : Sparse (List Span) := []
  /-- Freeze events for the next telemetry close (R279). -/
  events : List Event := []
  /-- The release deadline of the tick in progress has passed (R263). -/
  ended : Bool := false
  /-- The generation and locators of each port at the latest latch (R294, R295). -/
  locs : Sparse (Nat × Sparse Locator) := []
  /-- Locators that a change altered and that every tick still announces: (port, node, last tick) (R296). -/
  moved : List (Nat × Nat × Nat) := []
  nodes : Sparse Node := []
  cmds : List NodeCmd := []
  /-- The latest CMD_ID (R302). -/
  cmdId : Nat := 0
  dmx : Sparse DmxPort := []
  /-- Trace frames wait for a SESSION advance (R509). -/
  held : Bool := false
  deriving DecidableEq, Repr

/-- A local drive channel (R317 – R336), beside its DRV_CH registers. -/
structure DrvChan where
  /-- The drive value in force, and EN in force (R319, R346). -/
  value : Nat := 0
  live : Bool := false
  acc : Nat := 0
  debt : Nat := 0
  /-- The pulse of the period in progress: its start and length in counts, the start of a sense-only probe interval, and whether
  a faulty result holds the gate low for its rest (R324, R332, R329). -/
  start : Nat := 0
  on : Nat := 0
  probe : Option Nat := none
  low : Bool := false
  /-- The end of the qualify window of a measurable interval (R327). -/
  window : Option Nat := none
  /-- The results of the tick in progress: OK, OPEN, SHORT seen (R334). -/
  sawOk : Bool := false
  sawOpen : Bool := false
  sawShort : Bool := false
  /-- w and t0 of the ladder (R335). -/
  w : Nat := 0
  t0 : Nat := 0
  deriving DecidableEq, Repr

/-- The PWM grid of a feed (R321, R323): the period in force in units of 2^-16 ns, the index of the period in progress, its
start and its length in counts; `short` marks the short period after a change. -/
structure DrvFeed where
  period : Nat := 18204444444
  index : Option Nat := none
  begin : Nat := 0
  counts : Nat := 0
  short : Bool := false
  deriving DecidableEq, Repr

/-- The drive engine (R317 – R348). -/
structure DriveEngine where
  chans : Sparse DrvChan := []
  feeds : Sparse DrvFeed := []
  /-- Period changes that wait for their presentation boundary: (boundary, feed, period) (R323). -/
  periods : List (Nat × Nat × Nat) := []
  /-- Retired node channels in order of entry: (node, channel) (R338). -/
  nodes : List (Nat × Nat) := []
  /-- Retirement reports that wait for the telemetry close: (node, channel, TICK of the frame). -/
  reports : List (Nat × Nat × Nat) := []
  /-- The latest EFF_TICK of a reinstatement by node channel, keyed 256 × node + channel (R341). -/
  reinstated : Sparse (Option Nat) := []
  /-- The parameter records of node engines: (node, 32-byte record) (R346). -/
  params : List (Nat × List Byte) := []
  /-- The local channel that the shared ADC converted last (R330). -/
  adc : Nat := 47
  deriving DecidableEq, Repr

/-- A phase plan (R359): its effective boundary, offsets of local channels, and BASE and STEP of nodes; `source` 0 planner,
1 fixed plan, 2 off. -/
structure PhasePlan where
  id : Nat
  feed : Nat
  source : Nat
  boundary : Nat
  chans : List (Nat × Nat) := []
  nodes : List (Nat × Nat × Nat) := []
  deriving DecidableEq, Repr

/-- The phase planner for one feed (R349 – R366). -/
structure PhaseFeed where
  /-- The measurement window in progress: the grid index of its start, whether it is void, and the current samples of A, B, C
  and N with their stamps (R352 – R354). -/
  window : Option Nat := none
  void : Bool := false
  samples : List (Nat × List Int) := []
  /-- Frame phasors of the window: how many, and their sums by 2 × conductor + (h − 1) (R351). -/
  frames : Nat := 0
  sums : Sparse (Int × Int) := []
  /-- C_h by 2 × phase + (h − 1) (R355). -/
  corr : Sparse (Int × Int) := []
  /-- A plan is due, and whether it is free of the rate limit (R356, R357). -/
  due : Bool := false
  free : Bool := false
  /-- The instant of the effective boundary of its latest planner plan (R357). -/
  planned : Option Nat := none
  /-- The latest valid window exceeded a target, with no plan switched since (R366). -/
  ripple : Bool := false
  deriving DecidableEq, Repr

/-- A node's phase rule in force or announced (R360, R361): the plan, its feed, BASE, STEP and the switch boundary. -/
structure NodePhase where
  plan : Nat := 0
  feed : Nat := 0
  base : Nat := 0
  step : Nat := 0
  switch : Nat := 0
  deriving DecidableEq, Repr

/-- One channel of the frame presented as the planner sees it (R349, R350): its feed, its node (none: the local bank), its
number, its drive value, the weights on phases A, B, C in thirds of 1 mA, and whether it is plannable. -/
structure PhaseLoad where
  feed : Nat
  node : Option Nat := none
  ch : Nat
  value : Nat
  weights : List Nat := []
  plannable : Bool := false
  deriving DecidableEq, Repr

/-- A PHASE_POLICY that waits for its boundary (R359): FEED, MODE, TARGET and the records of its fixed plan. -/
structure PhasePolicy where
  boundary : Nat
  feed : Nat
  mode : Nat
  target : Nat
  recs : List Byte := []
  deriving DecidableEq, Repr

/-- The phase planner (R349 – R366). -/
structure PhasePlanner where
  feeds : Sparse PhaseFeed := []
  loads : List PhaseLoad := []
  policies : List PhasePolicy := []
  /-- PLAN_ID of the latest plan put in force. -/
  planId : Nat := 0
  /-- Plans that wait for their effective boundary, and plans in force that wait for their switch instant. -/
  waiting : List PhasePlan := []
  switching : List PhasePlan := []
  /-- Rules of nodes: in force, and announced for a switch boundary. -/
  rules : Sparse NodePhase := []
  coming : Sparse (Option NodePhase) := []
  deriving DecidableEq, Repr

/-- An open herd, or a report posted alone (R373 – R376). -/
structure Herd where
  typ : Nat
  code : Nat
  subjKind : Nat
  subjId : Nat
  port : Nat
  node : Nat
  seq : Nat
  count : Nat := 1
  firstAt : Nat
  lastAt : Nat
  /-- The number of the close at which it closes. -/
  closeAt : Nat
  alone : Bool := false
  deriving DecidableEq, Repr

/-- A traffic zone (R385 – R387): the counts of the tick, the totals, until(z), f and c, whether a rule governs it, and the cells
as written. -/
structure Zone where
  ped : Nat := 0
  cyc : Nat := 0
  veh : Nat := 0
  pedAll : Nat := 0
  cycAll : Nat := 0
  vehAll : Nat := 0
  until' : Option Nat := none
  f : Int := 0
  c : Int := 0
  ruled : Bool := false
  floor : Nat := 0
  ceil : Nat := 65535
  /-- Its state at the latest close, for PRESENCE. -/
  was : Bool := false
  deriving DecidableEq, Repr

/-- The telemetry concentrator (R367 – R390). -/
structure Concentrator where
  herds : List Herd := []
  /-- Closes so far. -/
  closes : Nat := 0
  /-- The next telemetry close is the first after RUN was set (R378). -/
  flush : Bool := false
  zones : Sparse Zone := []
  deriving DecidableEq, Repr


/-- A metering sample as it arrives (R398, R425): its instant, the seven codes taken at t_k + D_c, and those taken at t_k. -/
structure MeterRaw where
  at' : Nat
  codes : List Int
  plain : List Int
  deriving DecidableEq, Repr

/-- A metering sample of the three phases after R401 in units of 2^-53 mV and mA: v, i and v90. -/
structure MeterPoint where
  v : List Int
  i : List Int
  q : List Int
  deriving DecidableEq, Repr

/-- The crossings of one phase within an interval (R405): how many, the first and the last. -/
structure CrossCount where
  n : Nat := 0
  first : Nat := 0
  last : Nat := 0
  deriving DecidableEq, Repr

/-- The sums of an interval or a cycle (R405): samples, Σ v², Σ i², Σ v·i and Σ v90·i by phase, Σ i_N², and (R412) the
sum of (v_A + v_B + v_C)². -/
structure MeterSums where
  m : Nat := 0
  vv : List Int := [0, 0, 0]
  ii : List Int := [0, 0, 0]
  vi : List Int := [0, 0, 0]
  qi : List Int := [0, 0, 0]
  nn : Int := 0
  uu : Int := 0
  cross : List CrossCount := [{}, {}, {}]
  /-- Line cycles in the interval. -/
  cycles : Nat := 0
  deriving DecidableEq, Repr

/-- The detector of a phase's crossings (R403): it has been below the hysteresis band, the interpolated zero that waits for the
upper edge of the band, and the latest sample. -/
structure CrossDet where
  armed : Bool := false
  cand : Option Nat := none
  last : Option (Nat × Int) := none
  deriving DecidableEq, Repr

/-- A latch whose completion is due (R404): its instant, whether it is forced, the sums of the interval, the accumulators E and
rem at the latch instant, whether a KIND 2 set took effect (R429), and the descriptors that took effect. -/
structure MeterLatch where
  instant : Nat
  forced : Bool := false
  sums : MeterSums := {}
  e : Sparse Nat := []
  rem : Sparse Nat := []
  newSet : Bool := false
  done : List Running := []
  deriving DecidableEq, Repr

/-- A feed of the metering front end (R391 – R419), beside its MTR registers. -/
structure MeterFeed where
  /-- FS, correction records and the KIND 3 record in force (R394, R400, R410). -/
  fs : List Nat := [0, 0, 0, 0, 0, 0, 0]
  recs : Sparse (List Byte) := []
  thr : List Byte := [0xA0, 0x86, 1, 0, 10, 0, 10, 0, 0x50, 0xC3, 0, 0, 0, 0x20, 0, 0, 0x88, 0x13, 0, 0, 0, 0, 0, 0]
  /-- Configurations that wait for the next latch boundary: KIND (4: only the FS of a KIND 0 record), descriptor, payload. -/
  staged : List (Nat × Option Running × List Byte) := []
  /-- The whole second at which an enabled feed starts, and the start of the run in progress (R57). -/
  startAt : Option Nat := none
  runSince : Nat := 0
  /-- It has run since reset: METER_GAP has been posted (R417). -/
  ran : Bool := false
  /-- The index of the latest metering instant, the centre of the next high-rate interval, the modulator samples that it holds
  beyond OSR, and the modulator clocks counted beyond those of the timebase (R57, R397). -/
  lastK : Option Nat := none
  hiNext : Nat := 0
  adjust : Int := 0
  drift : Int := 0
  second : Nat := 0
  /-- Modulator clocks of the latest whole second. -/
  clocks : Nat := 0
  /-- The latest cycle boundary, whether the first is still to come, the samples since, and the crossings since as (phase, instant)
  (R403, R404). -/
  boundary : Nat := 0
  opened : Bool := false
  raws : List MeterRaw := []
  crossings : List (Nat × Nat) := []
  dets : List CrossDet := [{}, {}, {}]
  /-- The qualifying crossing that ends the cycle. -/
  due : Option Nat := none
  /-- No phase reached V_MIN over the latest cycle. -/
  dark : Bool := false
  /-- The levels L of the latest complete cycle and the gains of the present one (R401). -/
  levels : List Nat := [0, 0, 0, 0, 0, 0, 0]
  gains : List Nat := [0x40000000, 0x40000000, 0x40000000, 0x40000000, 0x40000000, 0x40000000, 0x40000000]
  /-- Lw of R407 and the latest points, newest first. -/
  lw : Nat := 320
  hist : List MeterPoint := []
  sums : MeterSums := {}
  latch : Option MeterLatch := none
  /-- The accumulators E and rem by 6 × phase + accumulator (R407), as they stood at the latest completed latch with its
  instant (R414), and the wrap counters (R408). -/
  e : Sparse Nat := []
  rem : Sparse Nat := []
  keptE : Sparse Nat := []
  keptRem : Sparse Nat := []
  keptAt : Nat := 0
  wraps : Sparse Nat := []
  /-- METER_GAP: its cause and the restored latch instant (R417). -/
  gapCause : Nat := 1
  gapFrom : Nat := 0
  /-- Consecutive cycles that are wrong, right, show a lost neutral, do not show it (R411, R412). -/
  wrong : Nat := 0
  right : Nat := 0
  lost : Nat := 0
  sound : Nat := 0
  /-- The event flag of the tick in progress (R413). -/
  flag : Bool := false
  /-- The high-rate samples that a tick value may still need: stamp and the seven values in units of 2^-53 mV and mA (R406). -/
  high : List (Nat × List Int) := []
  deriving DecidableEq, Repr

/-- A capture (R425 – R427). -/
structure Capture where
  feed : Nat
  cycles : Nat
  /-- Its first line cycle boundary. -/
  begun : Option Nat := none
  done : Nat := 0
  /-- Stamps and uncorrected values of the seven channels in units of 2^-23 mV and mA. -/
  points : List (Nat × List Int) := []
  /-- It has ended with this status, at this instant. -/
  ended : Option (Nat × Nat) := none
  deriving DecidableEq, Repr

/-- The factory record in one-time-programmable memory (R421): T_L, T_M, T_H, the factory calibration time in seconds, and the
three points of each trim: DRV 0 – 239, TSENS 240 – 247, TBOSC 248, ADC 249 and 250. -/
structure FactoryRecord where
  temps : List Int
  time : Nat
  points : Sparse (List Int)
  deriving DecidableEq, Repr

/-- Farrier (R420 – R433). -/
structure Calibration where
  /-- None: the factory record is invalid (log entry 4). -/
  factory : Option FactoryRecord := none
  /-- The instant of the latest trim update. -/
  updated : Nat := 0
  /-- T_set of the trims in force, by set, and sets whose new trims wait for a boundary (R424). -/
  inForce : Sparse Int := []
  waiting : List Nat := []
  capture : Option Capture := none
  /-- FAR_CAP_REF of the most recent completed capture by feed (R429). -/
  refs : Sparse Nat := []
  /-- Digests held for the user sets by feed (R429). -/
  digests : Sparse (Option Nat) := []
  /-- The ledger (R431): the sector in use, entries written in it, the latest SEQ, the sector of the newest entry of each set,
  sets whose entry has still to be written. -/
  sector : Nat := 0
  index : Nat := 0
  seq : Nat := 0
  newest : Sparse (Option Nat) := []
  unwritten : List Nat := []
  deriving DecidableEq, Repr

/-- The save ring's writer (R414 – R416): the sector of the next save, the SAVE_SEQ of the latest attempt, the latest save instant
in seconds, and the record being written. -/
structure SaveRing where
  next : Nat := 0
  seq : Nat := 0
  lastSec : Nat := 0
  writing : Option (List Byte) := none
  deriving DecidableEq, Repr

/-- The metering front end (R391 – R419). -/
structure Metering where
  feeds : Sparse MeterFeed := []
  ring : SaveRing := {}
  deriving DecidableEq, Repr

/-- A relay record (R552): the image, its chunks, those that some range confirmed, and its place in the order of creation. -/
structure RelayRec where
  image : Nat
  total : Nat
  have' : List Nat := []
  order : Nat := 0
  deriving DecidableEq, Repr

/-- What the SPI NOR holds for metering, Farrier, the image relay and Shuset: 4 KiB save records by sector, 64-byte ledger entries by
address / 64, the relay records and the stored cue list. -/
structure NorData where
  saves : Sparse (List Byte) := []
  ledger : Sparse (List Byte) := []
  relay : Sparse (Option RelayRec) := []
  /-- The stored cue list area (R593). -/
  cues : List Byte := []
  deriving DecidableEq, Repr

/-- What a Tandem frame says of itself (R434, R435, R516): its lane, the sender's BOOTC and SEQ, whether its tag verifies under the
link key, the octets of the whole body, FRAG_OFS, the octets that it carries, and MORE. -/
structure TdmHead where
  lane : Fin 2
  bootc : Nat
  seq : Nat
  tag : Bool := true
  len : Nat := 0
  ofs : Nat := 0
  part : Nat := 0
  more : Bool := false
  deriving DecidableEq, Repr

/-- The transmit progress of HB and FAULT (R437): the release tick, the parts transmitted as (port, segment), the ports whose SYNC
frame has left, and the DMX ports with a packet in progress. -/
structure TdmProgress where
  tick : Nat
  parts : List (Nat × Nat)
  sync : List Nat
  dmx : List Nat
  deriving DecidableEq, Repr

/-- HELLO (R437, R467, R469). -/
structure Hello where
  state : Nat
  epoch : Nat
  cgen : Nat
  arith : Nat
  digest : Nat
  unit : Nat
  pref : Bool
  deriving DecidableEq, Repr

/-- HB (R437): `tick` is the low 32 bits of TICK_NO, `sentAt` the transmit time in ns. -/
structure Heartbeat where
  state : Nat
  epoch : Nat
  tick : Nat
  sentAt : Nat
  progress : Option TdmProgress := none
  deriving DecidableEq, Repr

/-- The latch record of boundary `bound` (R448): stream layers with their capture times (R183), universes with source CID, sequence
number and CRC (R183), host layers with generation and read digest (R184), temperature entries and applied trims that changed
(R226), V and c by feed phase (R253), the retirement record and the local ladders (channel, DRV_CH_STAT word, w, t0) (R343),
correction phasors by feed and index (R363), presence cells (zone, floor, ceiling) (R388), SESSION when it changed (R512). -/
structure LatchRec where
  bound : Nat
  streams : List (Nat × Nat) := []
  sacn : List (Nat × Nat × Nat × Nat) := []
  hosts : List (Nat × Nat × Nat) := []
  temps : List (Nat × Option Nat) := []
  trims : List (Nat × Int) := []
  volts : List (Nat × Nat) := []
  corr : List (Nat × Int) := []
  retired : List Nat := []
  nodes : List (Nat × Nat) := []
  ladders : List (Nat × Nat × Nat × Nat) := []
  phasors : List (Nat × Nat × Int × Int) := []
  cells : List (Nat × Nat × Nat) := []
  session : Option Nat := none
  deriving DecidableEq, Repr

/-- INGEST (R181 – R183): a line digest, a frame digest, a request for a line, a repaired line, the packet of a universe that
the wheeler lacks, and the request for it.  Frames of stream `i` are named by RTP timestamp. -/
inductive IngestMsg where
  | line (i ts k digest : Nat)
  | frame (i ts digest : Nat)
  | request (i ts k : Nat)
  | repair (i ts k : Nat) (bytes : List Byte)
  | universe (u cid seq : Nat) (slots : List Byte)
  | askUniverse (u : Nat)
  deriving DecidableEq, Repr

/-- A piece of the transferred state (R466). -/
inductive StatePart where
  | regs (ws : List (Nat × Nat))
  | map (region : Nat × Nat) (blocks : Sparse Block) (changes : List MapChange)
  | layers (ls rs : Sparse (Option Layer))
  | cues (cs : List CueStep)
  | colour (t : Sparse (List Byte))
  | curb (limits : Sparse Nat) (models : Sparse (List Byte)) (corr : Sparse Int)
  | drive (chans : Sparse DrvChan) (retired : List Nat) (nodes : List (Nat × Nat)) (params : List (Nat × List Byte))
  | phase (policies : List PhasePolicy) (planId : Nat) (waiting switching : List PhasePlan) (rules : Sparse NodePhase)
      (coming : Sparse (Option NodePhase))
  | presence (zones : Sparse Zone)
  | temps (entries : Sparse TempEntry) (closed : Sparse (Option Nat)) (targets trims : Sparse Int)
  | fences (fs : Sparse Nat)
  | nodes (ns : Sparse Node)
  | cmds (cs : List NodeCmd) (id : Nat)
  | pending (change : Option GaitChange) (period swapAt index : Nat)
  deriving DecidableEq, Repr

/-- STATE (R437, R468, R546): a piece of the transferred state; a request for the chunks of an image slot that are missing, a
chunk of it, and its refusal. -/
inductive StateBlock where
  | part (p : StatePart)
  | wantImage (slot : Nat) (held : List Nat) (total : Nat)
  | image (chunk total crc : Nat) (bytes : List Byte)
  | noImage
  deriving DecidableEq, Repr

/-- A Tandem message (R437). -/
inductive TdmMsg where
  | hello (m : Hello)
  | hb (m : Heartbeat)
  | jrn (e : JournalEntry)
  | jack (index : Nat)
  | jcmt (index bound : Nat)
  | latch (r : LatchRec)
  | cset (tick : Nat) (done held : List Nat)
  | sig (tick : Nat) (sigs : List (Nat × Nat))
  | shd (tick seg sig shadow : Nat)
  | fault (cause : Nat) (progress : TdmProgress)
  | ingest (m : IngestMsg)
  | role (swap : Option Nat)
  | state (b : StateBlock)
  | join (bound : Nat)
  deriving DecidableEq, Repr

/-- A message in assembly (R435): its type, LEN, the next FRAG_OFS, and when its latest fragment came. -/
structure Partial where
  typ : Nat
  len : Nat
  next : Nat
  at' : Nat
  deriving DecidableEq, Repr

/-- What is known of the partner (R437, R444, R460). -/
structure Partner where
  hello : Option Hello := none
  state : Nat := 0
  epoch : Option Nat := none
  progress : Option TdmProgress := none
  deriving DecidableEq, Repr

/-- A segment in arbitration (R453 – R459): its part signatures here and at the partner, the shadow signatures known, and whether
it has left already. -/
structure Arbitration where
  tick : Nat
  seg : Nat
  own : Nat
  partner : Nat
  ownShadow : Option Nat := none
  partnerShadow : Option Nat := none
  left : Bool := false
  /-- When its mismatch was found, and the drive values of the shadow lane where they differ (R453). -/
  at' : Nat := 0
  values : List Nat := []
  deriving DecidableEq, Repr

/-- The Tandem unit (R434 – R472): what the TDM registers do not show. -/
structure Tandem where
  /-- Journal entries not yet committed: on the leader those without a JACK, on the wheeler those without a JCMT. -/
  journal : List JournalEntry := []
  /-- The index of the newest entry. -/
  index : Nat := 0
  /-- SEQ of the next Tandem frame; the partner's BOOTC, the highest SEQ accepted and those accepted below it (R516). -/
  seq : Nat := 0
  rx : Option (Nat × Nat × List Nat) := none
  /-- The message in assembly by lane (R435). -/
  asm : Sparse (Option Partial) := []
  partner : Partner := {}
  /-- When SEARCH was entered, the latest HB by lane, and the latest HB sent (R438, R442). -/
  searchAt : Nat := 0
  hbAt : Sparse (Option Nat) := []
  hbSent : Nat := 0
  /-- The level of TDM_ALIVE_OUT (R439), and |TDM_TOFS| above its limit (R440). -/
  alive : Bool := false
  skewed : Bool := false
  /-- The highest EPOCH of a TLM frame accepted since power-on (R444). -/
  heard : Option Nat := none
  /-- The unit's own CSET of the frame in compose: when it went out (R449). -/
  csetAt : Option Nat := none
  /-- The partner's CSET: tick, segments completed, memory-error holds. -/
  cset : Option (Nat × List Nat × List Nat) := none
  /-- Stage 5 may start without the partner's CSET (R449). -/
  csetGivenUp : Bool := false
  /-- The wheeler holds the LATCH of the boundary of the tick in progress (R448). -/
  latchGot : Bool := false
  /-- The read digests and generations of the partner's host layers wait for this unit's own (R184): the latest latch record. -/
  latest : Option LatchRec := none
  /-- Ticks of frames in flight that are unverified, and when the latest became so (R450, R442). -/
  unverified : List Nat := []
  unverifiedAt : Option Nat := none
  /-- The unit's signatures as (tick, segment, signature) and when each was sent, and the partner's (R451, R452). -/
  own : List (Nat × Nat × Nat × Nat) := []
  theirs : List (Nat × Nat × Nat) := []
  /-- The segments queued for the shadow lane or waiting for the partner's SHD, oldest first (R453). -/
  arb : List Arbitration := []
  /-- Outcomes of R455 by (tick, row), frames in which LAYER_DIVERGED or LEASE_VIOLATION was posted, the latest frame that counted
  for R459 and how many in a row. -/
  rows : List (Nat × Nat) := []
  exempt : List Nat := []
  divLast : Option Nat := none
  divRun : Nat := 0
  /-- The pending action 0 swap, postponements so far, and the time of the latest swap or of the forming of the pair (R463 – R465). -/
  swap : Option (Running × Nat) := none
  postponed : Nat := 0
  swapped : Nat := 0
  /-- A wheeler knows the swap tick from the leader's ROLE. -/
  swapTick : Option Nat := none
  /-- The instant from which the shadow lane is free (R453). -/
  shadowFree : Nat := 0
  /-- Resynchronisation (R468): the leader is sending state; rounds made, the pieces sent so far, the join boundary, and the time of the next attempt; at the
  wheeler the pieces received. -/
  syncing : Bool := false
  rounds : Nat := 0
  sent : List StatePart := []
  joinAt : Option Nat := none
  retryAt : Option Nat := none
  received : List StatePart := []
  /-- The progress from which a takeover continues (R460), and the DMX ports that wait for a presentation boundary (R313). -/
  resume : Option TdmProgress := none
  /-- The partner copy: own and partner slot (R546). -/
  peer : Option (Nat × Nat) := none
  deriving DecidableEq, Repr

/-- An image slot of the SPI NOR with its staging record (R538, R543): STATE 0 EMPTY, 1 STAGING, 2 STAGED, 3 TRIAL, 4 GOOD,
5 BAD; the sectors by chunk index, the chunks whose bit is cleared, and the length of the last chunk. -/
structure ImageSlot where
  state : Nat := 0
  cause : Nat := 0
  total : Nat := 0
  sectors : Sparse (List Byte) := []
  held : List Nat := []
  lastLen : Nat := 0
  deriving DecidableEq, Repr

/-- A configuration block (R547). -/
structure ConfigBlock where
  btype : Nat
  version : Nat
  seq : Nat
  body : List Byte
  deriving DecidableEq, Repr

/-- Images and migration (R535 – R554).  All but the last three fields lie in the SPI NOR or in OTP. -/
structure Images where
  slots : Sparse ImageSlot := []
  /-- The active slot (R538), and FLOOR (R542). -/
  active : Option Nat := none
  floor : Nat := 0
  /-- The configuration area pair and the migration record (R547, R548): current area, hash and CFG_VER committed, state, the hash of
  the target. -/
  areas : Sparse (List ConfigBlock) := []
  current : Nat := 0
  hash : Nat := 0
  ver : Nat := 0
  migState : Nat := 0
  target : Nat := 0
  /-- Blocks converted and dropped by the latest migration. -/
  moved : Nat × Nat := (0, 0)
  /-- The slot booted with its bundle header, and whether the rider runs from the other area. -/
  slot : Option Nat := none
  header : List Byte := []
  other : Bool := false
  deriving DecidableEq, Repr


/-- What resets a device from the host side (R561): Function Level Reset, PCIE_PERST_N in BOOT_MODE 0b000, PCIe Hot Reset. -/
inductive HostReset where
  | flr | perst | hot
  deriving DecidableEq, Repr

/-- Supplies, clocks and the PCIe link (R555 – R572, R578, R614). -/
structure Power where
  /-- The PCIe link is up, and the device follows its partner in the Loopback state (R572, R578). -/
  pcie : Bool := false
  follower : Bool := false
  /-- THERM_TRIP_N is asserted (R614). -/
  thermTrip : Bool := false
  /-- When CLK_REF was lost, and when each PLL lost lock, by the clock number of R570 (R569). -/
  refLost : Option Nat := none
  pllLost : Sparse (Option Nat) := []
  /-- Domains that are being switched on (R558). -/
  rising : List Nat := []
  deriving DecidableEq, Repr


/-- What reaches the boundary register (R586): captured balls, preloaded cells. -/
inductive BoundaryOp where
  | capture (balls : Nat)
  | update (cells : Nat)
  deriving DecidableEq, Repr

/-- The TAP and the production test state (R573 – R589). -/
structure TestAccess where
  /-- The instruction register: the code of R586. -/
  ir : Nat := 2
  /-- What the latest Capture-DR put into the selected data register, and the cells of the boundary register. -/
  captured : Nat := 0
  cells : Nat := 0
  /-- What the next Capture-DR of REGACC and of OTP_AUTH0 returns (R588, R589). -/
  regacc : Nat := 0
  otp : Nat := 0
  /-- A DRAM loop-back has been selected since TEST was entered (R575). -/
  looped : Bool := false
  deriving DecidableEq, Repr


/-- A cue of the stored list (R593): HOLD_TICKS and its records. -/
structure StoredCue where
  hold : Nat
  recs : List CueRec
  deriving DecidableEq, Repr

/-- The stored cue list that passed R594. -/
structure CueList where
  loop : Bool
  layer : Nat
  lead : Nat
  cues : List StoredCue
  deriving DecidableEq, Repr

/-- Shuset standalone mode (R590 – R600). -/
structure Shuset where
  /-- The list has been read since the latest reset, and the list in use (R594). -/
  read : Bool := false
  list : Option CueList := none
  /-- The cue that comes next with its presentation tick while submission goes on, the latest submitted target of the play, and the
  presentation ticks of the steps accepted, with their cues (R595, R596). -/
  next : Option (Nat × Nat) := none
  newest : Option Nat := none
  shown : List (Nat × Nat) := []
  /-- The master layer that the configuration names (R597). -/
  master : Option Nat := none
  deriving DecidableEq, Repr


/-- The port through which an access of the SHU window comes (R598): the SPI target, with the bits clocked in the chip-select period, or
a datagram on MG0 from an address and a port. -/
inductive ShuPort where
  | spi (bits : Nat)
  | mg0 (ip : Word) (port : Half)
  deriving DecidableEq, Repr

end Machine

end Sys2Proof
end

