-- ==== Sys2Proof/Syntax.lean ====
section
/-! DEFINITION. The commands: one constructor per row of spec/opcode_table.json, with what the surroundings bring to it
(a register offset and value, a frame, a descriptor's payload as read from host memory, the party that writes). -/

namespace Sys2Proof

/-- The commands of the block. -/
inductive Instr where
  /-- POWER_ON_RESET (R561): RST_POR_N low or the AON supply monitor resets every domain, the retention store and the timebase. -/
  | powerOnReset (mode : Fin 8)
  /-- BROWNOUT (R609): A monitored rail stays below its threshold for 2 µs and the monitor asserts power-on reset, setting BROWNOUT. -/
  | brownout (mode : Fin 8)
  /-- PIN_WARM_RESET (R561): RST_WARM_N low for at least 500 ns resets every domain except the timebase, the jitter cleaner and the retention store. -/
  | pinWarmReset (mode : Fin 8)
  /-- HOST_DEVICE_RESET (R561): A Function Level Reset, PCIe Hot Reset or PERST in BOOT_MODE 0b000 resets the device as a pin warm reset does. -/
  | hostDeviceReset (which : Machine.HostReset)
  /-- PERST_HIF_DOMAIN_RESET (R563): PCIE_PERST_N asserted in BOOT_MODE 0b001 applies domain reset to HIF, and the link trains when it deasserts. -/
  | perstHifDomainReset
  /-- BOOT (R539): After reset release, the Saddle monitor applies patches, trains DRAM, chooses and checks slots, loads the bridle table and releases the control cores. -/
  | boot (table : Option (BitVec 256)) (signed : Bool) (master : Option Half)
  /-- DRAM_TRAINING_DONE (R634): DRAM training ends, the device region is reserved, GLB_DEVREG_BASE is loaded and MEMC_B may be switched off. -/
  | dramTrainingDone (chB : Bool) (bytes : DWord)
  /-- MEMORY_INIT_DONE (R477): Initialisation of every memory word completes and MEM_STATUS.INIT_DONE is set. -/
  | memoryInitDone
  /-- METER_RESTORE (R417): In START the device reads the save ring and restores the energy accumulators from the newest valid record. -/
  | meterRestore
  /-- LEDGER_READ (R432): In START the device reads the Farrier ledger and loads the count, time, reference and digest of each set. -/
  | ledgerRead
  /-- RIDER_READY (R634): The rider firmware sets HIF_STATUS.READY after initialisation, restore and ledger read, or after a rider restart. -/
  | riderReady
  /-- PCIE_LINK_TRAINING (R572): PCIe link training begins after reset release and PERST deassertion. -/
  | pcieLinkTraining
  /-- THERM_TRIP (R614): An on-die sensor reaches 125 °C and THERM_TRIP_N is asserted until power-on reset. -/
  | thermTrip
  /-- CLK_REF_LOST (R569): No CLK_REF edge for 200 ns: the cleaner holds its DCO word and CLOCK_STATE is posted. -/
  | clkRefLost
  /-- CLK_REF_RETURNED (R569): After 1,000 valid periods the cleaner pulls its DCO back to lock at a limited rate. -/
  | clkRefReturned
  /-- PLL_LOCK_LOST (R569): A PLL loses lock, with the effect set per clock, up to a DEVICE_FAULT. -/
  | pllLockLost (k : Fin 7)
  /-- PLL_RELOCK (R569): A PLL relocks, and the resources it serves resume. -/
  | pllRelock (k : Fin 7)
  /-- DOMAIN_POWER_REQUEST (R556): A GLB_PWR_REQ write switches a domain on or off when its condition holds, and is otherwise refused. -/
  | domainPowerRequest (v : Word)
  /-- DOMAIN_POWER_UP_DONE (R558): A domain switched on reaches its on state within 50 µs and leaves reset with retained values. -/
  | domainPowerUpDone (d : Fin 14)
  /-- DOMAIN_RESET (R561): A domain reset from the Saddle monitor or GLB_DOM_RST resets one domain's logic and registers, with power left on. -/
  | domainReset (d : Fin 14) (v : Option Word)
  /-- REGISTER_WRITE (R11): A BAR0 write to a register without a row of its own is checked for size, alignment and lock, and then applied per its access code. -/
  | registerWrite (off size : Nat) (v : DWord)
  /-- REG64_LOW_WORD_READ (R12): A read of the low word of a 64-bit register latches its high word. -/
  | reg64LowWordRead (off size : Nat)
  /-- REG64_HIGH_WORD_WRITE (R13): A write to the high word commits both words of a 64-bit register. -/
  | reg64HighWordWrite (off : Nat) (v : Word)
  /-- CLEAR_ON_READ (R11): A read of a counter that is cleared when read returns and clears it. -/
  | clearOnRead (off size : Nat) (counted : Word)
  /-- GLB_LOCK_SET (R8): A write of 1 to GLB_LOCK[0] locks every RWL field until a reset that clears it. -/
  | glbLockSet
  /-- SVC_REQUEST_NORMAL (R491): A write of 1 to HIF_SVC_REQ enters NORMAL when every condition holds, and otherwise sets SVC_REFUSED. -/
  | svcRequestNormal (v : Word)
  /-- SVC_ENTER_TEST (R491): MEM_SVC_REQ.TEST moves the device from START to TEST while RUN is 0, and clears TDM_CTRL.EN. -/
  | svcEnterTest (v : Word)
  /-- SVC_LEAVE_TEST (R575): MEM_SVC_REQ.LEAVE resets every LBK field, retrains any DRAM that was looped, and returns to START. -/
  | svcLeaveTest (v : Word)
  /-- TB_TRACK_SET (R37): The servo owner sets TRACK, and the state goes from FREE to ACQUIRE. -/
  | tbTrackSet (p : Party)
  /-- TB_TRACK_CLEAR (R37): The servo owner clears TRACK, and the state becomes FREE with lock and slew dropped. -/
  | tbTrackClear (p : Party)
  /-- TB_LOCK_SET (R37): The servo owner sets LOCK, the state goes from ACQUIRE to LOCKED, and TIME_LOCK is posted. -/
  | tbLockSet (p : Party)
  /-- TB_LOCK_CLEAR (R37): The servo owner clears LOCK, and the state goes from LOCKED to ACQUIRE. -/
  | tbLockClear (p : Party)
  /-- TB_HO_EXIT (R37): The servo owner writes HO_EXIT, leaving HOLDOVER for ACQUIRE and holding TB_HO_TIME. -/
  | tbHoExit (p : Party)
  /-- TB_SERVO_CHANGE (R35): A write of TB_CTRL.SERVO changes the servo owner and nothing else. -/
  | tbServoChange (p : Party) (hostOwns : Bool)
  /-- TB_INCR_COMMIT (R58): A committed TB_INCR is clamped to range and becomes the effective increment two cycles later. -/
  | tbIncrCommit (p : Party) (v : DWord)
  /-- TB_ADJ (R42): A TB_ADJ_NS write adds to the pending offset, which the slew then removes. -/
  | tbAdj (p : Party) (v : Word)
  /-- TB_STEP_COMMIT (R44): A committed TB_STEP is accepted into STEP_PEND, or refused. -/
  | tbStepCommit (p : Party) (v : DWord)
  /-- TB_SNAPSHOT (R30): A write to TB_SNAP_CTRL loads the timebase time into the snapshot registers. -/
  | tbSnapshot (v : Word)
  /-- TB_PTP_CFG_WRITE (R38): A write to TB_PTP_CFG or TB_PTP_INTV reconfigures PTP and forces HOLDOVER from ACQUIRE or LOCKED. -/
  | tbPtpCfgWrite (intv : Bool) (v : Word)
  /-- TB_GM_ID_WRITE (R41): The rider firmware writes the grandmaster identity in any state. -/
  | tbGmIdWrite (id : DWord)
  /-- ANNOUNCE_TIMEOUT (R38): No Announce from the grandmaster for ANN_TMO intervals sets ANN_LOSS. -/
  | announceTimeout
  /-- SYNC_TIMEOUT (R38): No Sync from the grandmaster for SYNC_TMO intervals sets SYNC_LOSS. -/
  | syncTimeout
  /-- PPS_LOSS_TIMEOUT (R38): No qualifying TB_PPS_IN edge for 1.5 s sets PPS_LOSS. -/
  | ppsLossTimeout
  /-- PTP_MESSAGE_RECEIVE (R47): A PTP message arrives on a PTP-enabled port, is timestamped and is passed to the protocol stack. -/
  | ptpMessageReceive (w : Fin 15) (m : PtpMessage)
  /-- PTP_EVENT_TRANSMIT (R48): A PTP event message leaves a port with its one-step time inserted. -/
  | ptpEventTransmit (w : Fin 15) (kind : PtpTransmit) (body : List Byte)
  /-- PPS_OUT_EDGE (R52): At each whole second plus offset, TB_PPS_OUT rises. -/
  | ppsOutEdge
  /-- PPS_OUT_PULSE_END (R52): After OUT_WIDTH_US, TB_PPS_OUT falls. -/
  | ppsOutPulseEnd
  /-- PPS_IN_EDGE (R53): An edge on TB_PPS_IN is timestamped into the capture registers, and PPS_JUMP is checked. -/
  | ppsInEdge (falling : Bool) (pulseNs : Word)
  /-- TICK_RUN_START (R62): TK_CTRL.RUN is written 1, the start checks are made, and the first boundary is scheduled. -/
  | tickRunStart (v : Word)
  /-- TICK_RUN_STOP (R64): TK_CTRL.RUN is written 0, and the unit stops at the stopping boundary. -/
  | tickRunStop (v : Word)
  /-- TK_DEPTH_WRITE (R65): A DEPTH write sets the pipeline depth and reallocates layers, or is dropped. -/
  | tkDepthWrite (v : Word)
  /-- FIRST_BOUNDARY (R62): The first boundary after RUN is set loads TICK_NO with the grid index and clears the previous composed values. -/
  | firstBoundary
  /-- TICK_BOUNDARY (R70): The boundary comparator fires, and the device applies the step, advances TICK_NO, applies changes, latches inputs and loads the next target. -/
  | tickBoundary (errs : List BadWord)
  /-- STOPPING_BOUNDARY (R64): The boundary ending the last tick stops output, discards pipelined frames and applies or withdraws staged work. -/
  | stoppingBoundary
  /-- COMPOSE_START (R68): At B plus 2 µs the compose window opens, guard headers are read and the lanes start. -/
  | composeStart (headers : List GuardHeader)
  /-- SEGMENT_COMPOSE (R210): A lane composes a segment through sampling, blending, fills, colour and power prediction. -/
  | segmentCompose (seg : Fin 2560) (stallNs aloneNs : Word) (host : List HostTile) (dram : List DramTile) (errs : List BadWord)
  /-- COMPOSE_DEADLINE (R75): At the compose deadline the lanes stop and unfinished segments are held, with the overrun counted. -/
  | composeDeadline
  /-- CURB_SOLVE (R249): Stage 5 fixes the scale factors of the frame in its three passes and the rise limit. -/
  | curbSolve
  /-- TELEMETRY_CLOSE (R380): At the close, silences are detected, close events are inserted, herds close and queues drain into rings. -/
  | telemetryClose
  /-- FREE_CLOSE (R378): While RUN is 0, a close occurs every 1 ms and does what a telemetry close does. -/
  | freeClose
  /-- PART_ENCODE (R259): A port fetches and encodes a segment part into its check-before-release buffer, with its part digest. -/
  | partEncode (path : Fin 9) (starvedNs l3 : Word) (level : Fin 4) (errs : List BadWord)
  /-- SEGMENT_SIGNED (R451): Once all parts of a segment are encoded, its signature is formed and sent in SIG. -/
  | segmentSigned (seg : Fin 2560)
  /-- PART_READY (R257): A part becomes ready when its check permits, and it is queued for placement or discarded on a link that is down. -/
  | partReady (seg : Fin 2560)
  /-- CHECK_HOLD_TIMEOUT (R452): No partner signature by the end of TDM_HOLD: the segment is released unchecked. -/
  | checkHoldTimeout (seg : Fin 2560)
  /-- RASTER_START (R81): A Collected team's raster starts at B plus TK_COLL_OFS with the SYNC frame. -/
  | rasterStart (team : Fin 16)
  /-- RASTER_LINE (R270): At each line reference, a ready active line is sent, or the line is deferred. -/
  | rasterLine (port : Fin 8)
  /-- RASTER_END (R272): After the raster ends, the remaining deferred lines go back to back. -/
  | rasterEnd (team : Fin 16)
  /-- LOOSE_UPPER_BOUND (R83): No segment is ready at the upper bound, so the Loose frame starts there and STRETCH_LIM increases. -/
  | looseUpperBound (team : Fin 16)
  /-- DATA_FRAME_TRANSMIT (R262): A data frame of a ready part is placed on the wire under the gait. -/
  | dataFrameTransmit (port : Fin 8) (errs : List BadWord)
  /-- MANAGEMENT_FRAME_TRANSMIT (R275): A queued management frame is sent where it delays no data frame. -/
  | managementFrameTransmit (port : Fin 8)
  /-- RELEASE_DEADLINE (R263): At the release deadline the frame's unsent data is discarded and lateness is counted. -/
  | releaseDeadline
  /-- ETH_LINK_CHANGE (R265): An Ethernet port's link goes up or down. -/
  | ethLinkChange (w : Fin 15) (up : Bool)
  /-- SACN_DISCOVERY_SEND (R307): Every 10 s an sACN port sends universe discovery. -/
  | sacnDiscoverySend (port : Fin 8)
  /-- DMX_PACKET_START (R312): At a presentation boundary a DMX port starts a packet with the frame's values. -/
  | dmxPacketStart (port : Fin 16)
  /-- RDM_RESPONSE_RECEIVE (R314): An RDM response arrives and is posted as RDM_RESPONSE fragments. -/
  | rdmResponseReceive (port : Fin 16) (reply : RdmReply)
  /-- RDM_RESPONSE_TIMEOUT (R314): No response within 2.8 ms: the request is repeated or counted as unanswered. -/
  | rdmResponseTimeout (port : Fin 16)
  /-- SQ_DOORBELL (R97): A submission doorbell write is accepted, dropped, or stops the ring. -/
  | sqDoorbell (r : Fin 32) (ofs size : Nat) (v : Word)
  /-- CQ_DOORBELL (R105): A completion ring consumer doorbell frees slots, is dropped, or stops the ring. -/
  | cqDoorbell (r : Fin 32) (ofs size : Nat) (v : Word)
  /-- EQ_DOORBELL (R105): An event ring consumer doorbell frees slots for the next close. -/
  | eqDoorbell (r : Fin 8) (ofs size : Nat) (v : Word)
  /-- RING_ENABLE (R96): Setting a ring's EN enables it with both indices at 0 and clears CAUSE. -/
  | ringEnable (r : RingId) (ctrl : Word)
  /-- RING_DISABLE (R123): Clearing a ring's EN stops fetching or writing, and unstarted descriptors are discarded. -/
  | ringDisable (r : RingId) (ctrl : Word)
  /-- DESCRIPTOR_FETCH (R99): The device copies an available descriptor into its store and advances HIF_SQ_HEAD. -/
  | descriptorFetch (r : Fin 32) (data : Option (BitVec 512))
  /-- DESCRIPTOR_START (R100): The next descriptor of a ring is picked by priority and round robin, checked at head, and waits or executes. -/
  | descriptorStart
  /-- FENCE_WAIT_RELEASE (R129): A fence change satisfies waits, and the released descriptors start. -/
  | fenceWaitRelease
  /-- FENCE_WAIT_TIMEOUT (R131): A wait reaches HIF_SQ_FTMO, or a stop ends waits on fence 0, and the descriptor completes with FENCE_TIMEOUT. -/
  | fenceWaitTimeout (r : Fin 32)
  /-- COMPLETION_POST (R104): A due completion entry is written when its ring has space, with its phase bit and fence. -/
  | completionPost (c : Fin 32) (written : Bool)
  /-- MSIX_COALESCE_TIMEOUT (R112): The oldest unreported entry reaches COAL_US and the ring's MSI-X vector is sent. -/
  | msixCoalesceTimeout (r : RingId)
  /-- FENCE_BIND (R138): A HIF_FBIND write binds a fence to a source, or is dropped. -/
  | fenceBind (k : Fin 22) (v : Word)
  /-- NOP (R116): The NOP descriptor executes with no effect. -/
  | nop (r : Fin 32)
  /-- FENCE (R134): The FENCE descriptor signals its body fence, or acts as a pure wait. -/
  | fence (r : Fin 32)
  /-- LAYER_REGISTER (R160): A layer is registered with its type fields checked and its DRAM allocated. -/
  | layerRegister (r : Fin 32)
  /-- LAYER_UPDATE (R147): A new host-layer generation is accepted for the next latch. -/
  | layerUpdate (r : Fin 32)
  /-- LAYER_RETIRE (R151): A layer is retired from a boundary, and its buffers and space are released. -/
  | layerRetire (r : Fin 32)
  /-- MAP_LOAD (R196): Map records replace the entries of an endpoint range, with space reserved for new segment blocks. -/
  | mapLoad (r : Fin 32) (payload : Option (List Byte))
  /-- MAP_PATCH (R197): Patch records replace the entries of listed endpoints. -/
  | mapPatch (r : Fin 32) (payload : Option (List Byte))
  /-- COLOUR_LOAD (R229): Colour tables of one kind are loaded. -/
  | colourLoad (r : Fin 32) (payload : Option (List Byte))
  /-- CUE_STEP (R145): A cue step is accepted into the cue store for its target tick, or refused as late. -/
  | cueStep (r : Fin 32) (payload : Option (List Byte))
  /-- GAIT_CHANGE (R84): A gait or period change is checked and accepted as pending for effective tick E. -/
  | gaitChange (r : Fin 32)
  /-- CURB_LIMITS (R246): Curb limits, floors, models or nominal voltages are set. -/
  | curbLimits (r : Fin 32) (payload : Option (List Byte))
  /-- PHASE_POLICY (R364): The phase policy of a feed or of all feeds is set. -/
  | phasePolicy (r : Fin 32) (payload : Option (List Byte))
  /-- DRIVE_CONFIG (R344): Drive parameters for local channels or node engines are set. -/
  | driveConfig (r : Fin 32) (payload : Option (List Byte))
  /-- NODE_COMMAND (R302): A node command is sent as CMD frames to a node range and completes DEFERRED. -/
  | nodeCommand (r : Fin 32)
  /-- RDM_REQUEST (R315): NODE_COMMAND code 0xF000 sends an RDM GET or SET on a DMX port. -/
  | rdmRequest (r : Fin 32)
  /-- RDM_DISCOVERY (R315): NODE_COMMAND code 0xF001 runs RDM discovery on a DMX port. -/
  | rdmDiscovery (r : Fin 32)
  /-- NODE_COMMAND_RETRY_TIMEOUT (R302): Nodes silent after TM_TRC_CMD.TMO ticks are sent the command again, or the command ends. -/
  | nodeCommandRetryTimeout (id : Word)
  /-- METER_CONFIG (R396): A feed's metering configuration of one KIND is set. -/
  | meterConfig (r : Fin 32) (payload : Option (List Byte))
  /-- REINSTATE (R341): Retired channels return to service, and their endpoints leave the retirement set. -/
  | reinstate (r : Fin 32)
  /-- KEY_INSTALL (R518): KEY_UPDATE OP 0 installs or replaces an owner slot from an encrypted seed. -/
  | keyInstall (r : Fin 32) (payload : Option (List Byte)) (nor : Bool)
  /-- KEY_INVALIDATE (R523): KEY_UPDATE OP 1 makes a slot DEAD and its descendants DRAIN. -/
  | keyInvalidate (r : Fin 32) (payload : Option (List Byte)) (nor : Bool)
  /-- KEY_ARM_DEBUG (R530): KEY_UPDATE OP 2 sets DBG_ARMED for the next pin warm reset. -/
  | keyArmDebug (r : Option (Fin 32)) (payload : Option (List Byte)) (nor : Bool)
  /-- KEY_ROTATE_AUTHORITY (R522): KEY_UPDATE OP 3 programs the next OTP authority position. -/
  | keyRotateAuthority (r : Fin 32) (payload : Option (List Byte)) (nor otp : Bool)
  /-- ATTEST_REQUEST (R532): A signed attestation statement is written to host memory. -/
  | attestRequest (r : Fin 32)
  /-- IMAGE_CHUNK (R543): A rider image chunk is staged into the non-running slot. -/
  | imageChunk (r : Fin 32) (payload : Option (List Byte)) (written : Bool)
  /-- NODE_IMAGE_CHUNK (R550): A node image chunk is relayed to a node range as IMG frames. -/
  | nodeImageChunk (r : Fin 32) (payload : Option (List Byte))
  /-- TANDEM_ROLE_SWAP (R463): TANDEM_ROLE action 0 schedules a role swap at QUIET_TICK. -/
  | tandemRoleSwap (r : Fin 32)
  /-- TANDEM_ROLE_PERIOD (R463): TANDEM_ROLE action 1 sets the periodic swap period. -/
  | tandemRolePeriod (r : Fin 32)
  /-- TANDEM_ROLE_CANCEL (R463): TANDEM_ROLE action 2 cancels the pending swap. -/
  | tandemRoleCancel (r : Fin 32)
  /-- REG_STAGE (R118): Up to five RWT register writes are staged for the next boundary. -/
  | regStage (r : Fin 32)
  /-- NETWORK_CUE_RECEIVE (R178): A network cue datagram on a media port is checked and accepted or dropped. -/
  | networkCueReceive (port : Fin 4) (dstPort : Half) (datagram : List Byte)
  /-- STREAM_PACKET_RECEIVE (R168): An ST 2110-20 packet is merged by sequence and stored in its frame's lines. -/
  | streamPacketReceive (k : Fin 16) (p : StreamPacket)
  /-- STREAM_LOSS_TIMEOUT (R171): No packet of a stream for 100 ms sets LOST and posts STREAM_STATE. -/
  | streamLossTimeout (k : Fin 16)
  /-- SACN_PACKET_RECEIVE (R173): An sACN data packet is accepted per source, sequence and priority, or held for synchronisation. -/
  | sacnPacketReceive (port : Fin 4) (p : SacnPacket)
  /-- SACN_SYNC_RECEIVE (R174): A synchronisation packet makes held universe data take effect. -/
  | sacnSyncReceive (port : Fin 4) (cid : BitVec 128) (address : Half)
  /-- SACN_SOURCE_TIMEOUT (R173): A source silent for 2.5 s is lost, and source selection is redone. -/
  | sacnSourceTimeout (u : Half) (cid : BitVec 128)
  /-- MAP_REGION_WRITE (R640): A change of FE_MAP_DRAM_BASE or SIZE discards the map from the next boundary. -/
  | mapRegionWrite (size : Bool) (v : DWord)
  /-- LOCAL_TEMP_WRITE (R221): The rider firmware writes a local sensor's temperature entry. -/
  | localTempWrite (sensor : Fin 16) (v : Half)
  /-- TRIM_TARGET_SET (R223): The rider firmware sets a node's trim target from sensor readings. -/
  | trimTargetSet (node : BitVec 18) (c : Fin 4) (t : Half)
  /-- CURB_CORR_CLEAR (R252): A write to CRB_CTRL.CORR_CLR zeroes every correction term at the next boundary. -/
  | curbCorrClear
  /-- PWM_PERIOD_START (R324): At a PWM grid instant each channel computes its pulse, debt and probe kind. -/
  | pwmPeriodStart (feed : Fin 16) (cycles : Word)
  /-- QUALIFY_WINDOW_END (R327): A measurable interval's window ends with OPEN, SHORT or OK, a gate drop, and an ADC conversion. -/
  | qualifyWindowEnd (ch : Fin 48) (lowUv highUv : Word) (adc : BitVec 12)
  /-- MEASUREMENT_WINDOW_END (R353): A ripple window ends, measured phasors and correction phasors are updated, and a plan may fall due. -/
  | measurementWindowEnd (feed : Fin 16)
  /-- PHASE_PLAN_COMMIT (R359): The rider firmware commits a planner plan for an effective boundary. -/
  | phasePlanCommit (feed : Fin 16)
  /-- TLM_FRAME_RECEIVE (R304): A frame on a trace port is verified as TLM, and its records take effect. -/
  | tlmFrameReceive (port : Fin 8) (frame : List Byte)
  /-- EVENT_QUEUE_READ (R383): A read of TLM_EQ_RD word 0 removes and latches the head item, or returns IDLE. -/
  | eventQueueRead (e : Fin 8)
  /-- METER_SECOND (R57): At each whole second a feed compares modulator clocks with time and adjusts one interval. -/
  | meterSecond (feed : Fin 16) (clocks : Word)
  /-- METER_FEED_START (R57): An enabled feed starts converting at the first whole second. -/
  | meterFeedStart (feed : Fin 16)
  /-- METER_CLOCK_LOST (R393): No MOD_CLK edge for 10 µs: the feed stops with a forced latch and METER_CLOCK is posted. -/
  | meterClockLost (feed : Fin 16)
  /-- METER_CLOCK_RETURN (R393): MOD_CLK edges return, and the feed starts again. -/
  | meterClockReturn (feed : Fin 16)
  /-- LINE_CYCLE_END (R403): A qualifying crossing or a synthetic timeout ends a line cycle, updating corrections and events. -/
  | lineCycleEnd (feed : Fin 16)
  /-- METER_LATCH (R404): The end of the Nth cycle or a forced latch loads readouts, counts and fences and computes set digests. -/
  | meterLatch (feed : Fin 16) (ledgerOk : Bool)
  /-- METER_MTR_PH_E_READ (R408): A low-word read of MTR_PH_E returns VALUE, latches the wrap count and clears it. -/
  | meterMtrPhERead (feed : Fin 16) (p : Fin 3) (a : Fin 6)
  /-- METER_SAVE (R414): At a multiple of MTR_SAVE_INTV a save record is built and written to the next sector. -/
  | meterSave (ledgerOk : Bool)
  /-- METER_SAVE_COMPLETE (R416): A save finishes its erase, write and verify, or fails and posts METER_SAVE_FAIL. -/
  | meterSaveComplete (result : Fin 4)
  /-- FACTORY_TRIM_UPDATE (R423): Each FAR_FT_PERIOD the sensors are read, and trims are recomputed when T_set moves. -/
  | factoryTrimUpdate (raw : List Half)
  /-- FAR_CAPTURE_START (R425): A START write begins a capture on a feed, or is dropped. -/
  | farCaptureStart (ctrl : Word)
  /-- FAR_CAPTURE_STOP (R427): A STOP write cancels the running capture with status 5. -/
  | farCaptureStop (ctrl : Word)
  /-- FAR_CAPTURE_END (R426): A capture completes or aborts, its results are loaded and CAL_CAPTURE is posted. -/
  | farCaptureEnd
  /-- TANDEM_ENABLE (R442): TDM_CTRL.EN written 1 moves the unit to SEARCH. -/
  | tandemEnable (v : Word)
  /-- TANDEM_DISABLE (R442): TDM_CTRL.EN written 0 moves the unit to DOWN. -/
  | tandemDisable (v : Word)
  /-- TANDEM_HB_SEND (R438): Every 50 µs each unit sends HB on each up lane and toggles its alive output. -/
  | tandemHbSend
  /-- TANDEM_HB_RECEIVED (R438): An HB arrives, restores the partner link and updates the time offset. -/
  | tandemHbReceived (h : Machine.TdmHead) (m : Machine.Heartbeat) (offset : Word)
  /-- PARTNER_LINK_LOST (R438): No HB on either lane for 150 µs, and roles change, including takeover. -/
  | partnerLinkLost
  /-- TANDEM_LANE_CHANGE (R436): A Tandem lane goes up or down, and TDM_LINK is posted. -/
  | tandemLaneChange (lane : Fin 2) (up : Bool)
  /-- ALIVE_LINE_STOPPED (R439): TDM_ALIVE_IN shows no edge for 150 µs. -/
  | aliveLineStopped
  /-- ALIVE_LINE_RUNNING (R439): Two well-spaced edges show the partner's alive line running again. -/
  | aliveLineRunning
  /-- ALIVE_READBACK_FAIL (R439): Three expected edges are missing at the unit's own ball, and it declares itself faulty. -/
  | aliveReadbackFail
  /-- TANDEM_HELLO_RECEIVED (R442): A HELLO is compared for digest and versions and may form the pair or start resync. -/
  | tandemHelloReceived (h : Machine.TdmHead) (m : Machine.Hello)
  /-- TANDEM_SEARCH_TIMEOUT (R442): TDM_SEARCH_MS elapses without a usable HELLO, and the unit may enter LEAD_SOLO. -/
  | tandemSearchTimeout
  /-- FRAGMENT_TIMEOUT (R435): 1 ms passes without the next fragment, and the partial message is discarded. -/
  | fragmentTimeout (lane : Fin 2)
  /-- JRN (R445): The wheeler receives and stores a journal entry and answers with JACK. -/
  | jrn (h : Machine.TdmHead) (e : Machine.JournalEntry)
  /-- JACK (R446): The leader receives an acknowledgement, fixes the commit boundary and sends JCMT. -/
  | jack (h : Machine.TdmHead) (index : Nat)
  /-- JACK_TIMEOUT (R442): A JACK is overdue by 1 ms, and the leader goes LEAD_SOLO with the wheeler to RESYNC. -/
  | jackTimeout
  /-- JCMT (R446): The wheeler receives a commit boundary for a journal entry. -/
  | jcmt (h : Machine.TdmHead) (index bound : Nat)
  /-- LATCH (R448): The wheeler receives the leader's latch record of a boundary. -/
  | latch (h : Machine.TdmHead) (r : Machine.LatchRec)
  /-- LATCH_RECORD_TIMEOUT (R450): The wheeler lacks the complete LATCH TDM_LR_TMO after the boundary, and the frame is unverified. -/
  | latchRecordTimeout
  /-- CSET (R449): The partner's completion set arrives, and stage 5 may start. -/
  | cset (h : Machine.TdmHead) (tick : Nat) (done held : List Nat)
  /-- CSET_WAIT_TIMEOUT (R449): 12 µs after the unit's own CSET, stage 5 starts without the partner's. -/
  | csetWaitTimeout
  /-- SIG (R452): A partner segment signature arrives and is compared, releasing the segment or starting arbitration. -/
  | sig (h : Machine.TdmHead) (tick : Nat) (sigs : List (Nat × Nat))
  /-- SHADOW_LANE_DONE (R453): The shadow lane finishes a mismatched segment and SHD is sent. -/
  | shadowLaneDone (upset : Option (DWord × List Half))
  /-- SHD (R455): The partner's shadow signature arrives, and arbitration settles the outcome row. -/
  | shd (h : Machine.TdmHead) (tick seg sig shadow : Nat)
  /-- FAULT (R442): A FAULT message from the partner changes roles and may cause a takeover. -/
  | fault (h : Machine.TdmHead) (cause : Nat) (progress : Machine.TdmProgress)
  /-- ROLE (R437): The wheeler receives a swap tick or cancellation from the leader. -/
  | role (h : Machine.TdmHead) (swap : Option Nat)
  /-- STATE (R468): The wheeler receives a resynchronisation block, or an image chunk for a peer copy. -/
  | state (h : Machine.TdmHead) (b : Machine.StateBlock) (written : Bool)
  /-- JOIN (R468): The wheeler receives the join boundary. -/
  | join (h : Machine.TdmHead) (bound : Nat)
  /-- INGEST (R182): Line digests, repair requests or repaired lines from the partner are handled. -/
  | ingest (h : Machine.TdmHead) (m : Machine.IngestMsg)
  /-- RESYNC_ROUND (R468): The leader sends a round of dirty state blocks and may choose the join boundary or fail. -/
  | resyncRound (bytes left : Nat) (streams : Bool)
  /-- RESYNC_RETRY (R468): 1 s after a failed attempt, resynchronisation starts again. -/
  | resyncRetry
  /-- SCRUB_STEP (R479): The scrubber reads the next word, corrects or poisons it, and ends passes with SCRUB_PASS. -/
  | scrubStep (onChip : Bool) (err : Option BadWord)
  /-- WATCH_LIST_READ (R479): Every second the words on the watch list are read. -/
  | watchListRead (errs : List BadWord)
  /-- ERROR_RECORD_CLOSE (R485): The Saddle monitor closes a record, logs it, posts its event and starts follow-up. -/
  | errorRecordClose
  /-- HANDLER_WATCHDOG_TIMEOUT (R486): A record in handling for MEM_HDL_WDT is a DEVICE_FAULT. -/
  | handlerWatchdogTimeout
  /-- ROW_SPARE (R478): The Saddle monitor copies a degraded row into a spare and remaps it. -/
  | rowSpare
  /-- RIDER_RESTART (R484): The Saddle monitor restarts the rider firmware by domain reset of RIDER. -/
  | riderRestart
  /-- FAILSAFE_SEQUENCE (R493): A DEVICE_FAULT enters FAILSAFE, drops outputs, sends FAULT, resets domains and logs the fault. -/
  | failsafeSequence
  /-- SESSION_RESERVE_WRITE (R509): The next SESSION reserve is written to NOR, retried every second on failure. -/
  | sessionReserveWrite (ok : Bool)
  /-- KEY_GRACE_EXPIRY (R525): A slot's grace deadline passes, and it becomes DEAD with its uses stopped. -/
  | keyGraceExpiry (slot : Fin 64)
  /-- KEY_GRACE_NOTICE (R524): Every 60 s in GRACE, KEY_GRACE is posted with the seconds remaining. -/
  | keyGraceNotice (slot : Fin 64)
  /-- REMASK_ROUND (R528): Each TKR_GROOM period, every key share pair is re-masked. -/
  | remaskRound
  /-- ENTROPY_FAILURE (R529): An entropy health test fails, re-masking pauses and SEC_NOTICE is posted. -/
  | entropyFailure
  /-- TRIAL_CONFIRM (R542): After IMG_TRIAL seconds in NORMAL, the trial slot becomes GOOD, the floor rises and the migration commits. -/
  | trialConfirm
  /-- CONFIG_MIGRATION (R548): At start the rider firmware runs, migrates, re-migrates or discards configuration blocks. -/
  | configMigration
  /-- MG0_IMAGE_CHUNK (R545): An image chunk datagram on MG0 is staged, and a reply is sent. -/
  | mg0ImageChunk (ip : Word) (port : Half) (dst : Word) (dport : Half) (datagram : List Byte) (written : Bool)
  /-- ARP_REQUEST (R545): An ARP request for IMG_MG_IP on MG0 is answered. -/
  | arpRequest (target ip : Word) (mac : BitVec 48)
  /-- IMG_PEER_GO (R546): A GO write starts copying a slot from the partner. -/
  | imgPeerGo (v : Word)
  /-- IMG_PEER_STOP (R546): A STOP write ends the partner copy, and the held chunks stay held. -/
  | imgPeerStop (v : Word)
  /-- CUE_LIST_LOAD (R594): At the first NORMAL entry the stored cue list is read and checked. -/
  | cueListLoad
  /-- SHU_CUE_SUBMIT (R595): The rider firmware submits the next cue as a CUE_STEP within LEAD ticks. -/
  | shuCueSubmit
  /-- SHU_GO (R595): GO in SHU_CTRL starts play at GO_CUE. -/
  | shuGo (p : Machine.ShuPort) (v : Word)
  /-- SHU_STOP (R596): STOP in SHU_CTRL ends submission. -/
  | shuStop (p : Machine.ShuPort) (v : Word)
  /-- SHU_BLACKOUT (R597): A BLACKOUT change writes the master cell by cue step. -/
  | shuBlackout (p : Machine.ShuPort) (v : Word)
  /-- SHU_MASTER_WRITE (R597): A write to SHU_MASTER sets the master level through the master cell. -/
  | shuMasterWrite (p : Machine.ShuPort) (v : Word)
  /-- SHU_REINST (R599): A write to SHU_REINST reinstates the local channels it selects. -/
  | shuReinst (p : Machine.ShuPort) (high : Bool) (v : Word)
  /-- SHU_EVT_READ (R599): A bridle-checked read of SHU_EVT word 0 removes the head item of queue 0. -/
  | shuEvtRead (p : Machine.ShuPort)
  /-- JTAG_TEST_LOGIC_RESET (R586): The TAP enters Test-Logic-Reset and loads IDCODE. -/
  | jtagTestLogicReset
  /-- JTAG_EXTEST (R586): EXTEST drives the boundary register in TEST, and otherwise acts as SAMPLE/PRELOAD. -/
  | jtagExtest (op : Machine.BoundaryOp)
  /-- JTAG_SAMPLE_PRELOAD (R586): SAMPLE/PRELOAD captures or preloads the boundary register. -/
  | jtagSamplePreload (op : Machine.BoundaryOp)
  /-- JTAG_IDCODE (R623): IDCODE selects the 32-bit identity register. -/
  | jtagIdcode
  /-- JTAG_CLAMP (R586): CLAMP holds the balls from the boundary register with bypass selected. -/
  | jtagClamp (op : Machine.BoundaryOp)
  /-- JTAG_HIGHZ (R586): HIGHZ puts the outputs in high impedance with bypass selected. -/
  | jtagHighz (op : Machine.BoundaryOp)
  /-- JTAG_EXTEST_PULSE (R586): EXTEST_PULSE tests AC-coupled pairs under IEEE 1149.6. -/
  | jtagExtestPulse (op : Machine.BoundaryOp)
  /-- JTAG_EXTEST_TRAIN (R586): EXTEST_TRAIN tests AC-coupled pairs with pulse trains under IEEE 1149.6. -/
  | jtagExtestTrain (op : Machine.BoundaryOp)
  /-- JTAG_REGACC (R588): REGACC performs one 4-byte BAR0 access in TEST or debug operation. -/
  | jtagRegacc (write : Bool) (off data counted : Word)
  /-- JTAG_OTP_AUTH0 (R589): OTP_AUTH0 programs authority position 0 under its conditions. -/
  | jtagOtpAuth0 (go : Bool) (hash : BitVec 384) (check : Word) (ok : Bool)
  /-- JTAG_BYPASS (R586): BYPASS, or any unassigned code, selects the bypass register. -/
  | jtagBypass (code : BitVec 6)
  /-- SLEW_COMPLETE (R42): The slew removes the last of the pending offset, so it becomes 0 and SLEW_BUSY clears. -/
  | slewComplete
  /-- TIME_CAPTURE_READ (R53): A read of TB_PPS_IN_NS, TK_BOUND_FRAC or MTR_LATCH_NS latches the companion seconds or nanoseconds registers until the next such read. -/
  | timeCaptureRead (c : TimeCapture)
  /-- OUT_OF_STEP (R442): When the partner link stays up for 150 µs after an unverified frame, the wheeler is out of step and enters RESYNC. -/
  | outOfStep
  /-- DMX_PACKET_END (R314): The end of a DMX packet lets the port place a waiting RDM transaction, or in a DMX loop-back start the next test packet back to back. -/
  | dmxPacketEnd (port : Fin 16) (wrong : Fin 514)
  /-- METERING_SAMPLE (R407): At each 62.5 µs metering instant (and each high-rate sample), the device corrects the sample, adds it to the active and reactive energy accumulators, and feeds the window sums. -/
  | meteringSample (feed : Fin 16) (high : Bool) (codes plain : List (BitVec 24))
  /-- PRBS_CHECKER_LOCKED (R580): After 128 consecutive bits match the pattern, a lane's PRBS checker locks and starts counting errors. -/
  | prbsCheckerLocked (lane : Fin 23)
  /-- PRBS_CHECKER_LOCK_LOST (R580): When 64 errors fall within 1,024 bits, the checker loses lock and seeds itself again. -/
  | prbsCheckerLockLost (lane : Fin 23) (errors : Word)
  /-- PCIE_LOOPBACK_ENTRY (R578): When the PCIe link partner directs it, the device enters Loopback as follower in any service state. -/
  | pcieLoopbackEntry
  /-- SESSION_RESERVE_DONE (R509): A SESSION reserve write to NOR completes, SES_WAIT clears, and a waiting SESSION advance and the held trace frames proceed. -/
  | sessionReserveDone
  deriving DecidableEq, Repr

end Sys2Proof
end

