-- ==== Sys2Proof/Machine/Bits.lean ====
section
/-! DEFINITION. Bit fields, byte order, sign extension, saturation and the rounding of R17, used by every family. -/

namespace Sys2Proof.Machine

/-- Bits `lo + w - 1 .. lo` of `v`. -/
def bitsOf (v lo w : Nat) : Nat := v / 2 ^ lo % 2 ^ w

/-- `v` with bits `lo + w - 1 .. lo` replaced by `x` (taken modulo the field's range). -/
def setBits (v lo w x : Nat) : Nat := v / 2 ^ (lo + w) * 2 ^ (lo + w) + (x % 2 ^ w) * 2 ^ lo + v % 2 ^ lo

/-- One bit as a Bool. -/
def bitB (v i : Nat) : Bool := v / 2 ^ i % 2 = 1

/-- The number of a Bool as a field value. -/
def b2n (b : Bool) : Nat := if b then 1 else 0

/-- Two's complement reading of a `w`-bit field. -/
def sext (w v : Nat) : Int :=
  let u := v % 2 ^ w
  if u < 2 ^ (w - 1) then (u : Int) else (u : Int) - (2 ^ w : Nat)

/-- The `w`-bit two's complement field that holds `z` (modulo 2^w). -/
def toField (w : Nat) (z : Int) : Nat := (z % ((2 ^ w : Nat) : Int)).toNat

/-- Clamp to `[lo, hi]`. -/
def clampN (lo hi v : Nat) : Nat := if v < lo then lo else if hi < v then hi else v

/-- Clamp an integer to `[lo, hi]`. -/
def clampI (lo hi v : Int) : Int := if v < lo then lo else if hi < v then hi else v

/-- A counter of `w` bits that saturates at its largest value. -/
def satAdd (w c n : Nat) : Nat := min (2 ^ w - 1) (c + n)

/-- Division rounded to nearest, ties to even (R17); a zero divisor gives 0. -/
def rhe (n d : Nat) : Nat :=
  let q := n / d
  let r := n % d
  if 2 * r < d then q else if d < 2 * r then q + 1 else if q % 2 = 0 then q else q + 1

/-- Division of an integer by a natural number rounded to nearest, ties to even (R17). -/
def rheI (z : Int) (d : Nat) : Int := if z < 0 then -((rhe z.natAbs d : Nat) : Int) else ((rhe z.natAbs d : Nat) : Int)

/-- Division rounded up; a zero divisor gives 0. -/
def cdiv (n d : Nat) : Nat := if d = 0 then 0 else (n + d - 1) / d

/-- One bit of the integer square root, from bit `b` down. -/
def isqrtGo : Nat → Nat → Nat → Nat
  | 0, _, r => r
  | b + 1, n, r =>
    let t := r + 2 ^ b
    isqrtGo b n (if t * t ≤ n then t else r)

/-- Integer square root of a value below 2^256, rounded down. -/
def isqrt (n : Nat) : Nat := isqrtGo 128 n 0

/-- Square root rounded to nearest. -/
def isqrtR (n : Nat) : Nat :=
  let r := isqrt n
  if n - r * r > r then r + 1 else r

/-- Integer square root of a value below 2^512, rounded down. -/
def isqrtWide (n : Nat) : Nat := isqrtGo 256 n 0

/-- The square root of `n / d` rounded to nearest, ties to even. -/
def rootOf (n d : Nat) : Nat :=
  if d = 0 then 0
  else
    let r := isqrtWide (4 * n / d)
    if r % 2 = 1 ∧ r * r * d = 4 * n then (if r / 2 % 2 = 0 then r / 2 else r / 2 + 1) else (r + 1) / 2

/-- Byte `i` of a payload; a byte past its end reads 0. -/
def byteAt (bs : List Byte) (i : Nat) : Nat := (bs.getD i 0).toNat

/-- Little-endian value of `n` bytes from offset `i`. -/
def leAt (bs : List Byte) (i : Nat) : Nat → Nat
  | 0 => 0
  | n + 1 => byteAt bs i + 256 * leAt bs (i + 1) n

/-- Big-endian value of `n` bytes from offset `i` (network order). -/
def beAt (bs : List Byte) (i : Nat) : Nat → Nat
  | 0 => 0
  | n + 1 => byteAt bs i * 256 ^ n + beAt bs (i + 1) n

/-- The `n` little-endian bytes of a value. -/
def leBytes : Nat → Nat → List Byte
  | 0, _ => []
  | n + 1, v => BitVec.ofNat 8 v :: leBytes n (v / 256)

/-- The `n` big-endian bytes of a value. -/
def beBytes (n v : Nat) : List Byte := (leBytes n v).reverse

/-- Replace the bytes from offset `i` by `bs`. -/
def patchBytes (dst : List Byte) (i : Nat) (bs : List Byte) : List Byte :=
  dst.take i ++ bs ++ dst.drop (i + bs.length)

/-- One bit step of the reflected CRC-32 (IEEE 802.3 polynomial, reflected 0xEDB88320). -/
def crc32Bit (c : Nat) : Nat := if c % 2 = 1 then Nat.xor (c / 2) 0xEDB88320 else c / 2

/-- CRC-32 register after one byte. -/
def crc32Byte (c : Nat) (b : Byte) : Nat :=
  crc32Bit (crc32Bit (crc32Bit (crc32Bit (crc32Bit (crc32Bit (crc32Bit (crc32Bit (Nat.xor c b.toNat))))))))

/-- CRC-32 of a byte string (IEEE 802.3: initial value and final exclusive-or of all ones). -/
def crc32 (bs : List Byte) : Nat := Nat.xor (bs.foldl crc32Byte 0xFFFFFFFF) 0xFFFFFFFF

/-- One bit step of CRC-64/ECMA-182, most significant bit first. -/
def crc64Bit (c : Nat) : Nat :=
  if c / 2 ^ 63 % 2 = 1 then Nat.xor (c * 2 % 2 ^ 64) 0x42F0E1EBA9EA3693 else c * 2 % 2 ^ 64

/-- CRC-64 register after one byte. -/
def crc64Byte (c : Nat) (b : Byte) : Nat :=
  crc64Bit (crc64Bit (crc64Bit (crc64Bit (crc64Bit (crc64Bit (crc64Bit (crc64Bit (Nat.xor c (b.toNat * 2 ^ 56)))))))))

/-- CRC-64/ECMA-182 of a byte string (initial value 0, no reflection, no final exclusive-or). -/
def crc64 (bs : List Byte) : Nat := bs.foldl crc64Byte 0

end Sys2Proof.Machine
end

