-- ==== Sys2Proof/Machine/Crypto.lean ====
section
/-! DEFINITION. The published algorithms that 19_saddle_bridle_and_tack_room.md and 17_tandem_pair.md name: SHA-384, HMAC,
HKDF, AES-256-GCM, ECDSA and ECDH over P-384.  Their constants are those of the standards (log entry 13). -/

namespace Sys2Proof.Machine

/-- The 80 round constants of SHA-384, entries from 0. -/
def shaK0 : List Nat :=
  [0x428A2F98D728AE22, 0x7137449123EF65CD, 0xB5C0FBCFEC4D3B2F, 0xE9B5DBA58189DBBC, 0x3956C25BF348B538,
   0x59F111F1B605D019, 0x923F82A4AF194F9B, 0xAB1C5ED5DA6D8118, 0xD807AA98A3030242, 0x12835B0145706FBE,
   0x243185BE4EE4B28C, 0x550C7DC3D5FFB4E2, 0x72BE5D74F27B896F, 0x80DEB1FE3B1696B1, 0x9BDC06A725C71235,
   0xC19BF174CF692694, 0xE49B69C19EF14AD2, 0xEFBE4786384F25E3, 0xFC19DC68B8CD5B5, 0x240CA1CC77AC9C65]

/-- The 80 round constants of SHA-384, entries from 20. -/
def shaK1 : List Nat :=
  [0x2DE92C6F592B0275, 0x4A7484AA6EA6E483, 0x5CB0A9DCBD41FBD4, 0x76F988DA831153B5, 0x983E5152EE66DFAB,
   0xA831C66D2DB43210, 0xB00327C898FB213F, 0xBF597FC7BEEF0EE4, 0xC6E00BF33DA88FC2, 0xD5A79147930AA725,
   0x6CA6351E003826F, 0x142929670A0E6E70, 0x27B70A8546D22FFC, 0x2E1B21385C26C926, 0x4D2C6DFC5AC42AED,
   0x53380D139D95B3DF, 0x650A73548BAF63DE, 0x766A0ABB3C77B2A8, 0x81C2C92E47EDAEE6, 0x92722C851482353B]

/-- The 80 round constants of SHA-384, entries from 40. -/
def shaK2 : List Nat :=
  [0xA2BFE8A14CF10364, 0xA81A664BBC423001, 0xC24B8B70D0F89791, 0xC76C51A30654BE30, 0xD192E819D6EF5218,
   0xD69906245565A910, 0xF40E35855771202A, 0x106AA07032BBD1B8, 0x19A4C116B8D2D0C8, 0x1E376C085141AB53,
   0x2748774CDF8EEB99, 0x34B0BCB5E19B48A8, 0x391C0CB3C5C95A63, 0x4ED8AA4AE3418ACB, 0x5B9CCA4F7763E373,
   0x682E6FF3D6B2B8A3, 0x748F82EE5DEFB2FC, 0x78A5636F43172F60, 0x84C87814A1F0AB72, 0x8CC702081A6439EC]

/-- The 80 round constants of SHA-384, entries from 60. -/
def shaK3 : List Nat :=
  [0x90BEFFFA23631E28, 0xA4506CEBDE82BDE9, 0xBEF9A3F7B2C67915, 0xC67178F2E372532B, 0xCA273ECEEA26619C,
   0xD186B8C721C0C207, 0xEADA7DD6CDE0EB1E, 0xF57D4F7FEE6ED178, 0x6F067AA72176FBA, 0xA637DC5A2C898A6,
   0x113F9804BEF90DAE, 0x1B710B35131C471B, 0x28DB77F523047D84, 0x32CAAB7B40C72493, 0x3C9EBE0A15C9BEBC,
   0x431D67C49C100D4C, 0x4CC5D4BECB3E42B6, 0x597F299CFC657E2A, 0x5FCB6FAB3AD6FAEC, 0x6C44198C4A475817]

/-- The 80 round constants of SHA-384. -/
def shaK : List Nat := shaK0 ++ shaK1 ++ shaK2 ++ shaK3

/-- The AES S-box, entry i in bits 8i + 7 – 8i. -/
def sboxWord : Nat :=
  0x16BB54B00F2D99416842E6BF0D89A18CDF2855CEE9871E9B948ED9691198F8E19E1DC186B95735610EF6034866B53E708A8BBD4B1F74DDE8C6B4A61C2E2578BA08AE7A65EAF4566CA94ED58D6D37C8E779E4959162ACD3C25C2406490A3A32E0DB0B5EDE14B8EE4688902A22DC4F816073195D643D7EA7C41744975FEC130CCDD2F3FF1021DAB6BCF5389D928F40A351A89F3C507F02F94585334D43FBAAEFD0CF584C4A39BECB6A5BB1FC20ED00D153842FE329B3D63B52A05A6E1B1A2C830975B227EBE28012079A059618C323C7041531D871F1E5A534CCF73F362693FDB7C072A49CAFA2D4ADF04759FA7DC982CA76ABD7FE2B670130C56F6BF27B777C63

/-- The initial hash value of SHA-384. -/
def shaInit : List Nat :=
  [0xCBBB9D5DC1059ED8, 0x629A292A367CD507, 0x9159015A3070DD17, 0x152FECD8F70E5939,
   0x67332667FFC00B31, 0x8EB44A8768581511, 0xDB0C2E0D64F98FA7, 0x47B5481DBEFA4FA4]

/-! ### SHA-384 -/

/-- A 64-bit word rotated right. -/
def rotr (n x : Nat) : Nat := x / 2 ^ n + x % 2 ^ n * 2 ^ (64 - n)

/-- The complement of a 64-bit word. -/
def not64 (x : Nat) : Nat := 2 ^ 64 - 1 - x

def bigSigma0 (x : Nat) : Nat := Nat.xor (rotr 28 x) (Nat.xor (rotr 34 x) (rotr 39 x))
def bigSigma1 (x : Nat) : Nat := Nat.xor (rotr 14 x) (Nat.xor (rotr 18 x) (rotr 41 x))
def smallSigma0 (x : Nat) : Nat := Nat.xor (rotr 1 x) (Nat.xor (rotr 8 x) (x / 2 ^ 7))
def smallSigma1 (x : Nat) : Nat := Nat.xor (rotr 19 x) (Nat.xor (rotr 61 x) (x / 2 ^ 6))

/-- The message schedule: `n` further words after those of `w`, which stands newest first. -/
def schedule : Nat → List Nat → List Nat
  | 0, w => w
  | n + 1, w =>
    schedule n ((smallSigma1 (w.getD 1 0) + w.getD 6 0 + smallSigma0 (w.getD 14 0) + w.getD 15 0) % 2 ^ 64 :: w)

/-- The eight working variables. -/
structure Sha where
  a : Nat
  b : Nat
  c : Nat
  d : Nat
  e : Nat
  f : Nat
  g : Nat
  h : Nat
  deriving DecidableEq, Repr

/-- One round with constant plus word `kw`. -/
def shaRound (v : Sha) (kw : Nat) : Sha :=
  let ch := Nat.xor (Nat.land v.e v.f) (Nat.land (not64 v.e) v.g)
  let maj := Nat.xor (Nat.land v.a v.b) (Nat.xor (Nat.land v.a v.c) (Nat.land v.b v.c))
  let t1 := v.h + bigSigma1 v.e + ch + kw
  { a := (t1 + bigSigma0 v.a + maj) % 2 ^ 64, b := v.a, c := v.b, d := v.c, e := (v.d + t1) % 2 ^ 64, f := v.e, g := v.f, h := v.g }

/-- One block of 128 bytes. -/
def shaBlock (h : List Nat) (blk : List Byte) : List Nat :=
  let w := (schedule 64 ((List.range 16).map fun i => beAt blk (8 * i) 8).reverse).reverse
  let v0 : Sha := ⟨h.getD 0 0, h.getD 1 0, h.getD 2 0, h.getD 3 0, h.getD 4 0, h.getD 5 0, h.getD 6 0, h.getD 7 0⟩
  let v := (List.zipWith (fun k x => k + x) shaK w).foldl shaRound v0
  List.zipWith (fun x y => (x + y) % 2 ^ 64) h [v.a, v.b, v.c, v.d, v.e, v.f, v.g, v.h]

/-- Every block of a padded message. -/
def shaBlocks : Nat → List Byte → List Nat → List Nat
  | 0, _, h => h
  | n + 1, bs, h => shaBlocks n (bs.drop 128) (shaBlock h (bs.take 128))

/-- SHA-384 (FIPS 180-4). -/
def sha384 (bs : List Byte) : List Byte :=
  let n := bs.length
  let pad := bs ++ [0x80#8] ++ List.replicate ((239 - n % 128) % 128) 0 ++ beBytes 16 (8 * n)
  ((shaBlocks (pad.length / 128) pad shaInit).flatMap (beBytes 8)).take 48

/-! ### HMAC and HKDF (RFC 2104, RFC 5869) with SHA-384 (R505) -/

/-- Every byte of a block exclusive-or a constant. -/
def xorByte (c : Byte) (bs : List Byte) : List Byte := bs.map fun b => b ^^^ c

/-- HMAC with SHA-384. -/
def hmac (key msg : List Byte) : List Byte :=
  let k := if 128 < key.length then sha384 key else key
  let k := k ++ List.replicate (128 - k.length) 0
  sha384 (xorByte 0x5C k ++ sha384 (xorByte 0x36 k ++ msg))

/-- HKDF-Extract. -/
def hkdfExtract (salt ikm : List Byte) : List Byte := hmac salt ikm

/-- `n` blocks of HKDF-Expand from block number `i`. -/
def hkdfBlocks (prk info : List Byte) : Nat → Nat → List Byte → List Byte
  | 0, _, _ => []
  | n + 1, i, t =>
    let t := hmac prk (t ++ info ++ leBytes 1 i)
    t ++ hkdfBlocks prk info n (i + 1) t

/-- HKDF-Expand to `len` bytes. -/
def hkdfExpand (prk info : List Byte) (len : Nat) : List Byte := (hkdfBlocks prk info (cdiv len 48) 1 []).take len

/-! ### AES-256 (FIPS 197) -/

/-- The S-box. -/
def sbox (b : Byte) : Byte := BitVec.ofNat 8 (bitsOf sboxWord (8 * b.toNat) 8)

/-- Multiplication by x in the field of AES. -/
def xtime (b : Byte) : Byte := BitVec.ofNat 8 (if 128 ≤ b.toNat then Nat.xor (2 * b.toNat - 256) 0x1B else 2 * b.toNat)

/-- Exclusive-or of two byte strings, as long as the shorter. -/
def xorBytes (a b : List Byte) : List Byte := List.zipWith (fun x y => x ^^^ y) a b

/-- The key schedule: `n` further 4-byte words; `ws` stands newest first, `i` is the index of the next word. -/
def keyWords : Nat → Nat → Byte → List (List Byte) → List (List Byte)
  | 0, _, _, ws => ws
  | n + 1, i, rc, ws =>
    let p := ws.getD 0 []
    let t := if i % 8 = 0 then xorBytes ((p.drop 1 ++ p.take 1).map sbox) [rc, 0, 0, 0] else if i % 8 = 4 then p.map sbox else p
    keyWords n (i + 1) (if i % 8 = 0 then xtime rc else rc) (xorBytes (ws.getD 7 []) t :: ws)

/-- The 15 round keys of 16 bytes. -/
def roundKeys (key : List Byte) : List (List Byte) :=
  let ws := (keyWords 52 8 1 ((List.range 8).map fun i => (key.drop (4 * i)).take 4).reverse).reverse
  (List.range 15).map fun r => ((ws.drop (4 * r)).take 4).flatten

/-- SubBytes and ShiftRows. -/
def subShift (st : List Byte) : List Byte := (List.range 16).map fun i => sbox (st.getD ((i + 4 * (i % 4)) % 16) 0)

/-- MixColumns of one column. -/
def mixColumn (c : List Byte) : List Byte :=
  (List.range 4).map fun i =>
    let x (j : Nat) := c.getD ((i + j) % 4) 0
    xtime (x 0) ^^^ (xtime (x 1) ^^^ x 1) ^^^ x 2 ^^^ x 3

/-- MixColumns. -/
def mixColumns (st : List Byte) : List Byte := (List.range 4).flatMap fun k => mixColumn ((st.drop (4 * k)).take 4)

/-- The rounds after the first key addition. -/
def aesRounds (st : List Byte) : List (List Byte) → List Byte
  | [] => st
  | [k] => xorBytes (subShift st) k
  | k :: ks => aesRounds (xorBytes (mixColumns (subShift st)) k) ks

/-- AES-256 of one block under a schedule. -/
def aesBlock (ks : List (List Byte)) (blk : List Byte) : List Byte := aesRounds (xorBytes blk (ks.getD 0 [])) (ks.drop 1)

/-! ### GCM (SP 800-38D) with 96-bit IVs -/

/-- One bit step of the product in the field of GHASH; blocks are numbers with their first bit most significant. -/
def ghStep (y : Nat) (zv : Nat × Nat) (i : Nat) : Nat × Nat :=
  let z := if bitB y (127 - i) then Nat.xor zv.1 zv.2 else zv.1
  (z, if zv.2 % 2 = 1 then Nat.xor (zv.2 / 2) (0xE1 * 2 ^ 120) else zv.2 / 2)

/-- The product of two blocks. -/
def ghMul (x y : Nat) : Nat := ((List.range 128).foldl (ghStep y) (0, x)).1

/-- A byte string as blocks, the last filled with zeros. -/
def ghBlocks (bs : List Byte) : List Nat := (List.range (cdiv bs.length 16)).map fun i => beAt bs (16 * i) 16

/-- GHASH of the additional data and the ciphertext. -/
def ghash (h : Nat) (aad ct : List Byte) : Nat :=
  (ghBlocks aad ++ ghBlocks ct ++ [aad.length * 8 * 2 ^ 64 + ct.length * 8]).foldl (fun y b => ghMul (Nat.xor y b) h) 0

/-- The key stream of counter block `j`. -/
def gcmStream (ks : List (List Byte)) (iv : List Byte) (j : Nat) : List Byte := aesBlock ks (iv ++ beBytes 4 j)

/-- The counter mode of GCM over a text. -/
def gcmCtr (ks : List (List Byte)) (iv txt : List Byte) : List Byte :=
  xorBytes txt ((List.range (cdiv txt.length 16)).flatMap fun i => gcmStream ks iv (2 + i))

/-- The tag of GCM over a ciphertext. -/
def gcmTag (ks : List (List Byte)) (iv aad ct : List Byte) : List Byte :=
  let h := beAt (aesBlock ks (List.replicate 16 0)) 0 16
  xorBytes (beBytes 16 (ghash h aad ct)) (gcmStream ks iv 1)

/-- AES-256-GCM: the ciphertext and its tag. -/
def gcmSeal (key iv aad txt : List Byte) : List Byte × List Byte :=
  let ks := roundKeys key
  let ct := gcmCtr ks iv txt
  (ct, gcmTag ks iv aad ct)

/-- AES-256-GCM decryption; none when the tag does not verify. -/
def gcmOpen (key iv aad ct tag : List Byte) : Option (List Byte) :=
  let ks := roundKeys key
  if gcmTag ks iv aad ct = tag then some (gcmCtr ks iv ct) else none

/-- AES-GMAC: the tag over data that stay in the clear (R288, R434). -/
def gmac (key iv data : List Byte) : List Byte := gcmTag (roundKeys key) iv data []

/-! ### P-384 (FIPS 186-5) -/

/-- The prime of the field, the coefficient b, the order and the base point. -/
def pP : Nat := 2 ^ 384 - 2 ^ 128 - 2 ^ 96 + 2 ^ 32 - 1
def pB : Nat := 0xB3312FA7E23EE7E4988E056BE3F82D19181D9C6EFE8141120314088F5013875AC656398D8A2ED19D2A85C8EDD3EC2AEF
def pN : Nat := 0xFFFFFFFFFFFFFFFFFFFFFFFFFFFFFFFFFFFFFFFFFFFFFFFFC7634D81F4372DDF581A0DB248B0A77AECEC196ACCC52973
def pGx : Nat := 0xAA87CA22BE8B05378EB1C71EF320AD746E1D3B628BA79B9859F741E082542A385502F25DBF55296C3A545E3872760AB7
def pGy : Nat := 0x3617DE4A96262C6F5D9E98BF9292DC29F8F41DBD289A147CE9DA3113B5F0B8C00A60B1CE1D7E819D7A431D7C90EA0E5F

/-- A power modulo `m`, over the low `n` bits of the exponent. -/
def powMod (m : Nat) : Nat → Nat → Nat → Nat
  | 0, _, _ => 1
  | n + 1, b, e => let h := powMod m n (b * b % m) (e / 2); if e % 2 = 1 then h * b % m else h

/-- The inverse modulo a prime. -/
def invMod (m x : Nat) : Nat := powMod m 384 (x % m) (m - 2)

/-- A point of the curve; none is the point at infinity. -/
abbrev Point := Option (Nat × Nat)

/-- The sum of two points. -/
def padd (a b : Point) : Point :=
  match a, b with
  | none, q => q
  | p, none => p
  | some (x1, y1), some (x2, y2) =>
    if x1 = x2 ∧ (y1 + y2) % pP = 0 then none
    else
      let l := if x1 = x2 then (3 * x1 * x1 + (pP - 3)) * invMod pP (2 * y1) % pP else (y2 + pP - y1) * invMod pP (x2 + pP - x1) % pP
      let x3 := (l * l + 2 * pP - x1 - x2) % pP
      some (x3, (l * (x1 + pP - x3) + pP - y1) % pP)

/-- A multiple of a point, over the low `n` bits of the factor. -/
def pmul : Nat → Nat → Point → Point
  | 0, _, _ => none
  | n + 1, k, q => let h := pmul n (k / 2) (padd q q); if k % 2 = 1 then padd h q else h

/-- The base point. -/
def pG : Point := some (pGx, pGy)

/-- The point is on the curve. -/
def onCurve (x y : Nat) : Bool := x < pP && y < pP && (y * y) % pP = (x * x * x + (pP - 3) * x + pB) % pP

/-- A point as x || y, each 48 bytes big-endian (R517). -/
def pointBytes (q : Point) : List Byte := match q with | none => List.replicate 96 0 | some (x, y) => beBytes 48 x ++ beBytes 48 y

/-- The point of 96 bytes, when they name one. -/
def pointOf (bs : List Byte) : Point :=
  let x := beAt bs 0 48
  let y := beAt bs 48 48
  if onCurve x y then some (x, y) else none

/-- ECDSA P-384 verification of SHA-384 `h` under public key `q` with signature r || s. -/
def ecdsaVerify (q : Point) (h sig : List Byte) : Bool :=
  let r := beAt sig 0 48
  let t := beAt sig 48 48
  if r = 0 ∨ pN ≤ r ∨ t = 0 ∨ pN ≤ t ∨ q = none then false
  else
    let w := invMod pN t
    let u1 := beAt h 0 48 * w % pN
    let u2 := r * w % pN
    match padd (pmul 384 u1 pG) (pmul 384 u2 q) with
    | none => false
    | some (x, _) => x % pN = r

/-- The candidates of RFC 6979 from a state (K, V): the first in range is the nonce. -/
def nonceFrom : Nat → List Byte → List Byte → Nat
  | 0, _, _ => 1
  | n + 1, k, v =>
    let v := hmac k v
    let t := beAt v 0 48
    if 0 < t ∧ t < pN then t
    else
      let k := hmac k (v ++ [0])
      nonceFrom n k (hmac k v)

/-- The deterministic nonce of RFC 6979 for private key `d` and hash `h`. -/
def ecdsaNonce (d : Nat) (h : List Byte) : Nat :=
  let x := beBytes 48 d ++ beBytes 48 (beAt h 0 48 % pN)
  let v := List.replicate 48 1
  let k := hmac (List.replicate 48 0) (v ++ [0] ++ x)
  let v := hmac k v
  let k := hmac k (v ++ [1] ++ x)
  nonceFrom 16 k (hmac k v)

/-- ECDSA P-384 signature r || s with a deterministic nonce (R529). -/
def ecdsaSign (d : Nat) (h : List Byte) : List Byte :=
  let k := ecdsaNonce d h
  match pmul 384 k pG with
  | none => []
  | some (x, _) =>
    let r := x % pN
    beBytes 48 r ++ beBytes 48 (invMod pN k * (beAt h 0 48 + r * d) % pN)

/-- The x-coordinate of d · Q (R518). -/
def ecdhX (d : Nat) (q : Point) : List Byte := match pmul 384 d q with | none => [] | some (x, _) => beBytes 48 x

/-- The bytes of an ASCII string without a terminator (R505). -/
def ascii (t : String) : List Byte := t.toList.map fun c => BitVec.ofNat 8 c.toNat

end Sys2Proof.Machine
end

