-- ==== Sys2Proof/Config.lean ====
section
/-! DEFINITION. What an implementation fixes and what the spec leaves open: constants without a body, so that no proof
can see a value (each is named in the assumption log). -/

namespace Sys2Proof

/-- The free values that a meaning draws one after another (log entry 2). -/
opaque Config.free : Nat → Nat

/-- The 16-bit linear value that a transfer curve of R163 gives a code: transfer, bits, PQ peak, code; the bounds of R163
are applied where it is used (log entry 10). -/
opaque Config.curve : Nat → Nat → Nat → Nat → Nat

/-- The full-range code of a NARROW video sample (R166): bits, 1 for chroma, code (log entry 10). -/
opaque Config.expand : Nat → Nat → Nat → Nat

/-- The linear value of one component of a YCbCr pixel (R166), of the list colorimetry, transfer, bits, PQ peak, Y, Cb, Cr,
component (log entry 10). -/
opaque Config.video : List Nat → Nat

/-- The MAC address of an Ethernet port (log entry 15). -/
opaque Config.ownMac : Nat → List Byte

/-- The Ethernet, IP and UDP header octets of a datagram, of the list: IP version, port or window, destination, UDP port and
payload length (log entry 15). -/
opaque Config.ipHead : List Nat → List Byte

/-- A frame phasor (R351) in units of 2^-16 mA, of h and a list of weight in thirds of 1 mA, drive value and phase offset of each
channel (log entry 2). -/
opaque Config.phasor : Nat → List (Nat × Nat × Nat) → Int × Int

/-- A measured phasor (R353) in units of 2^-16 mA, of h, the period, the window start, OSR and clock of the feed, and the samples
with their stamps (log entry 2). -/
opaque Config.goertzel : Nat → List Nat → List (Nat × Int) → Int × Int

/-- The angle of a phasor in units of 1/65,536 turn. -/
opaque Config.turn : Int × Int → Nat

/-- v90 of R405 in units of 2^-53 mV, of FNOM and the latest voltage samples, newest first. -/
opaque Config.quarter : Nat → List Int → Int

/-- FAR_CAP_ANG of R426 in units of 2^-32 turn, of the stamps and samples of channel 0 and those of the channel. -/
opaque Config.angle : List (Nat × Int) → List (Nat × Int) → Int

/-- The SHA-384 of the mask ROM with the patches applied (R532), and of the release key in mask ROM (R541). -/
opaque Config.romHash : Nat
opaque Config.releaseKey : Nat

/-- The body of a configuration block converted to another version (R548), of its type, the two versions and the body. -/
opaque Config.convert : Nat → Nat → Nat → List Byte → List Byte

end Sys2Proof
end

