-- ==== Sys2Proof/Machine/Regs.lean ====
section
/-! DEFINITION. The BAR0 registers by name, offset and field, and the table that says of every register word which bits a
write may change and how, what a read clears and what it resets to (25_register_summary.md R628, R629 and the field
tables of the chapters; where the two differ the chapter governs, R21).  A register's name is the manual's; its value is
the BAR0 byte offset of its (low) word; an index of the register is an argument. -/

namespace Sys2Proof.Machine

/-- A field of a register word: the word's BAR0 offset, the least bit and the width. -/
structure Fld where
  off : Nat
  lo : Nat
  w : Nat
  deriving DecidableEq, Repr

/-- One word of a register (R9): the bits of each access code, the bits that a read clears, and the reset value. -/
structure WordDesc where
  rw : Nat := 0
  rws : Nat := 0
  rwl : Nat := 0
  rwt : Nat := 0
  w1c : Nat := 0
  wo : Nat := 0
  cor : Nat := 0
  reset : Nat := 0
  deriving DecidableEq, Repr

/-- A register or an array of registers: base offset, (stride, count) of each index, and its one or two words. -/
structure RegDesc where
  base : Nat
  dims : List (Nat × Nat)
  words : List WordDesc
  deriving DecidableEq, Repr

def GLB_DEVID : Nat := 0
def GLB_REVID : Nat := 4
def GLB_REVID_STEP_LETTER : Fld := ⟨GLB_REVID, 4, 4⟩
def GLB_REVID_STEP_DIGIT : Fld := ⟨GLB_REVID, 0, 4⟩
def GLB_CAP0 : Nat := 8
def GLB_CAP0_NODE_KI : Fld := ⟨GLB_CAP0, 16, 16⟩
def GLB_CAP0_EP_KI : Fld := ⟨GLB_CAP0, 0, 16⟩
def GLB_CAP1 : Nat := 0xC
def GLB_CAP1_LANES : Fld := ⟨GLB_CAP1, 24, 4⟩
def GLB_CAP1_TEAMS : Fld := ⟨GLB_CAP1, 16, 8⟩
def GLB_CAP1_LAYERS : Fld := ⟨GLB_CAP1, 0, 16⟩
def GLB_CAP2 : Nat := 0x10
def GLB_CAP2_DRV_CH : Fld := ⟨GLB_CAP2, 24, 8⟩
def GLB_CAP2_FEEDS : Fld := ⟨GLB_CAP2, 16, 5⟩
def GLB_CAP2_MGMT_PORTS : Fld := ⟨GLB_CAP2, 12, 4⟩
def GLB_CAP2_TANDEM_LANES : Fld := ⟨GLB_CAP2, 8, 4⟩
def GLB_CAP2_MEDIA_PORTS : Fld := ⟨GLB_CAP2, 4, 4⟩
def GLB_CAP2_TRACE_PORTS : Fld := ⟨GLB_CAP2, 0, 4⟩
def GLB_CAP3 : Nat := 0x14
def GLB_CAP3_MSIX : Fld := ⟨GLB_CAP3, 24, 7⟩
def GLB_CAP3_EVT_RINGS : Fld := ⟨GLB_CAP3, 16, 4⟩
def GLB_CAP3_RINGS : Fld := ⟨GLB_CAP3, 8, 6⟩
def GLB_CAP3_DMX_PORTS : Fld := ⟨GLB_CAP3, 0, 5⟩
def GLB_CAP4 : Nat := 0x18
def GLB_CAP4_PIPE_MAX : Fld := ⟨GLB_CAP4, 28, 4⟩
def GLB_CAP4_PROTO_MAX : Fld := ⟨GLB_CAP4, 24, 4⟩
def GLB_CAP4_KEY_SLOTS : Fld := ⟨GLB_CAP4, 16, 8⟩
def GLB_CAP4_FENCES : Fld := ⟨GLB_CAP4, 0, 16⟩
def GLB_CAP5 : Nat := 0x1C
def GLB_CAP5_SRAM_MIB : Fld := ⟨GLB_CAP5, 24, 8⟩
def GLB_CAP5_DDR_CH : Fld := ⟨GLB_CAP5, 16, 4⟩
def GLB_CAP5_COMP_KI : Fld := ⟨GLB_CAP5, 0, 16⟩
def GLB_BOOT : Nat := 0x20
def GLB_BOOT_SVC : Fld := ⟨GLB_BOOT, 8, 3⟩
def GLB_BOOT_RIDER_SLOT : Fld := ⟨GLB_BOOT, 4, 1⟩
def GLB_BOOT_STRAP_BAD : Fld := ⟨GLB_BOOT, 3, 1⟩
def GLB_BOOT_MODE : Fld := ⟨GLB_BOOT, 0, 3⟩
def GLB_LOCK : Nat := 0x24
def GLB_LOCK_v : Fld := ⟨GLB_LOCK, 0, 1⟩
def GLB_STATUS : Nat := 0x28
def GLB_STATUS_SIZE_ERR : Fld := ⟨GLB_STATUS, 1, 1⟩
def GLB_STATUS_LOCK_VIOL : Fld := ⟨GLB_STATUS, 0, 1⟩
def GLB_DEVREG_BASE : Nat := 0x30
def TB_CTRL : Nat := 0x300000
def TB_CTRL_STEP_EN : Fld := ⟨TB_CTRL, 4, 1⟩
def TB_CTRL_SERVO : Fld := ⟨TB_CTRL, 3, 1⟩
def TB_CTRL_HO_EXIT : Fld := ⟨TB_CTRL, 2, 1⟩
def TB_CTRL_LOCK : Fld := ⟨TB_CTRL, 1, 1⟩
def TB_CTRL_TRACK : Fld := ⟨TB_CTRL, 0, 1⟩
def TB_STATUS : Nat := 0x300004
def TB_STATUS_PPS_JUMP : Fld := ⟨TB_STATUS, 14, 1⟩
def TB_STATUS_PPS_LOSS : Fld := ⟨TB_STATUS, 13, 1⟩
def TB_STATUS_SYNC_LOSS : Fld := ⟨TB_STATUS, 12, 1⟩
def TB_STATUS_ANN_LOSS : Fld := ⟨TB_STATUS, 11, 1⟩
def TB_STATUS_GM_CHANGE : Fld := ⟨TB_STATUS, 10, 1⟩
def TB_STATUS_STEP_PEND : Fld := ⟨TB_STATUS, 9, 1⟩
def TB_STATUS_SLEW_BUSY : Fld := ⟨TB_STATUS, 8, 1⟩
def TB_STATUS_HO_DROP : Fld := ⟨TB_STATUS, 7, 1⟩
def TB_STATUS_REFUSED : Fld := ⟨TB_STATUS, 6, 1⟩
def TB_STATUS_INCR_CLAMP : Fld := ⟨TB_STATUS, 5, 1⟩
def TB_STATUS_STATE : Fld := ⟨TB_STATUS, 0, 3⟩
def TB_INCR : Nat := 0x300008
def TB_INCR_INT_NS : Fld := ⟨(TB_INCR + 4), 0, 8⟩
def TB_INCR_FRAC : Fld := ⟨TB_INCR, 0, 32⟩
def TB_ADJ_NS : Nat := 0x300010
def TB_ADJ_PEND : Nat := 0x300014
def TB_SLEW : Nat := 0x300018
def TB_SLEW_v : Fld := ⟨TB_SLEW, 0, 9⟩
def TB_STEP : Nat := 0x300020
def TB_SNAP_CTRL : Nat := 0x300028
def TB_SNAP_CTRL_v : Fld := ⟨TB_SNAP_CTRL, 0, 1⟩
def TB_PTP_CFG : Nat := 0x300040
def TB_PTP_CFG_DOMAIN : Fld := ⟨TB_PTP_CFG, 24, 8⟩
def TB_PTP_CFG_SLAVE_PORT : Fld := ⟨TB_PTP_CFG, 20, 4⟩
def TB_PTP_CFG_PROFILE : Fld := ⟨TB_PTP_CFG, 19, 1⟩
def TB_PTP_CFG_DELAY : Fld := ⟨TB_PTP_CFG, 18, 1⟩
def TB_PTP_CFG_ONE_STEP : Fld := ⟨TB_PTP_CFG, 17, 1⟩
def TB_PTP_CFG_ENCAP : Fld := ⟨TB_PTP_CFG, 15, 2⟩
def TB_PTP_CFG_BOUNDARY : Fld := ⟨TB_PTP_CFG, 14, 1⟩
def TB_PTP_CFG_ANN_TMO : Fld := ⟨TB_PTP_CFG, 10, 4⟩
def TB_PTP_CFG_SYNC_TMO : Fld := ⟨TB_PTP_CFG, 6, 4⟩
def TB_PTP_CFG_SOURCE : Fld := ⟨TB_PTP_CFG, 0, 2⟩
def TB_PTP_INTV : Nat := 0x300044
def TB_PTP_INTV_LOG_MINDREQ : Fld := ⟨TB_PTP_INTV, 16, 8⟩
def TB_PTP_INTV_LOG_ANN : Fld := ⟨TB_PTP_INTV, 8, 8⟩
def TB_PTP_INTV_LOG_SYNC : Fld := ⟨TB_PTP_INTV, 0, 8⟩
def TB_GM_ID : Nat := 0x300048
def TB_HO_TIME : Nat := 0x300050
def TB_PPS_CTRL : Nat := 0x300060
def TB_PPS_CTRL_OUT_WIDTH_US : Fld := ⟨TB_PPS_CTRL, 8, 20⟩
def TB_PPS_CTRL_IN_EDGE : Fld := ⟨TB_PPS_CTRL, 2, 1⟩
def TB_PPS_CTRL_IN_EN : Fld := ⟨TB_PPS_CTRL, 1, 1⟩
def TB_PPS_CTRL_OUT_EN : Fld := ⟨TB_PPS_CTRL, 0, 1⟩
def TB_PPS_OUT_OFS : Nat := 0x300064
def TB_PPS_IN_NS : Nat := 0x300068
def TB_PPS_IN_SEC_LO : Nat := 0x30006C
def TB_PPS_IN_SEC_HI : Nat := 0x300070
def ETH_PTP_CTRL (p : Nat) : Nat := 0x1000200 + 0x10000 * p
def ETH_PTP_CTRL_v (p : Nat) : Fld := ⟨(ETH_PTP_CTRL p), 0, 1⟩
def ETH_TS_CORR (p : Nat) : Nat := 0x1000204 + 0x10000 * p
def ETH_TS_CORR_EGR_NS (p : Nat) : Fld := ⟨(ETH_TS_CORR p), 16, 16⟩
def ETH_TS_CORR_ING_NS (p : Nat) : Fld := ⟨(ETH_TS_CORR p), 0, 16⟩
def ETH_TS_DROP (p : Nat) : Nat := 0x1000208 + 0x10000 * p
def TK_CTRL : Nat := 0x400000
def TK_CTRL_DEPTH : Fld := ⟨TK_CTRL, 4, 3⟩
def TK_CTRL_RUN : Fld := ⟨TK_CTRL, 0, 1⟩
def TK_STATUS : Nat := 0x400004
def TK_STATUS_DEPTH_REF : Fld := ⟨TK_STATUS, 6, 1⟩
def TK_STATUS_TICK_BACK : Fld := ⟨TK_STATUS, 5, 1⟩
def TK_STATUS_CLAMP : Fld := ⟨TK_STATUS, 4, 1⟩
def TK_STATUS_RUN_WR : Fld := ⟨TK_STATUS, 3, 1⟩
def TK_STATUS_REALIGN : Fld := ⟨TK_STATUS, 2, 1⟩
def TK_STATUS_OVERLOAD : Fld := ⟨TK_STATUS, 1, 1⟩
def TK_STATUS_RUNNING : Fld := ⟨TK_STATUS, 0, 1⟩
def TK_STAGED : Nat := 0x400008
def TK_STAGED_CHG_PEND : Fld := ⟨TK_STAGED, 2, 1⟩
def TK_STAGED_DESC_PEND : Fld := ⟨TK_STAGED, 1, 1⟩
def TK_STAGED_RWT_PEND : Fld := ⟨TK_STAGED, 0, 1⟩
def TK_PERIOD_NS : Nat := 0x400010
def TK_PERIOD_NS_v : Fld := ⟨TK_PERIOD_NS, 0, 27⟩
def TK_PERIOD_FRAC : Nat := 0x400014
def TK_PHASE_NS : Nat := 0x400018
def TK_PHASE_NS_v : Fld := ⟨TK_PHASE_NS, 0, 27⟩
def TK_TICK_NO : Nat := 0x400020
def TK_BOUND_FRAC : Nat := 0x400028
def TK_BOUND_NS : Nat := 0x40002C
def TK_BOUND_SEC_LO : Nat := 0x400030
def TK_BOUND_SEC_HI : Nat := 0x400034
def TK_PHASES : Nat := 0x400040
def TK_PHASES_TLM_PM : Fld := ⟨TK_PHASES, 16, 10⟩
def TK_PHASES_CMP_DL_PM : Fld := ⟨TK_PHASES, 0, 10⟩
def TK_REL_GUARD : Nat := 0x400044
def TK_REL_GUARD_v : Fld := ⟨TK_REL_GUARD, 0, 18⟩
def TK_COLL_OFS : Nat := 0x400048
def TK_COLL_OFS_v : Fld := ⟨TK_COLL_OFS, 0, 20⟩
def TK_GAIT : Nat := 0x40004C
def TK_GAIT_v : Fld := ⟨TK_GAIT, 0, 16⟩
def TK_OVR_LIMIT : Nat := 0x400050
def TK_OVR_LIMIT_v : Fld := ⟨TK_OVR_LIMIT, 0, 8⟩
def TK_OVR_CNT : Nat := 0x400054
def TK_OVR_SEG : Nat := 0x400058
def TK_OVR_LAST : Nat := 0x400060
def TK_CHG_TICK : Nat := 0x400068
def TK_REALIGN_NS : Nat := 0x400070
def TK_TEAM_STAT (t : Nat) : Nat := 0x400100 + 4 * t
def TK_TEAM_STAT_LATE_SEG (t : Nat) : Fld := ⟨(TK_TEAM_STAT t), 16, 16⟩
def TK_TEAM_STAT_STRETCH_LIM (t : Nat) : Fld := ⟨(TK_TEAM_STAT t), 0, 16⟩
def HIF_STATUS : Nat := 0x200000
def HIF_STATUS_RING_ERR : Fld := ⟨HIF_STATUS, 3, 1⟩
def HIF_STATUS_SIZE_ERR : Fld := ⟨HIF_STATUS, 2, 1⟩
def HIF_STATUS_DB_DIS : Fld := ⟨HIF_STATUS, 1, 1⟩
def HIF_STATUS_READY : Fld := ⟨HIF_STATUS, 0, 1⟩
def HIF_ERR_VEC : Nat := 0x200004
def HIF_ERR_VEC_v : Fld := ⟨HIF_ERR_VEC, 0, 6⟩
def HIF_SVC_REQ : Nat := 0x200008
def HIF_SVC_REQ_v : Fld := ⟨HIF_SVC_REQ, 0, 1⟩
def HIF_SQ_BASE (s : Nat) : Nat := 0x201000 + 0x20 * s
def HIF_SQ_SIZE (s : Nat) : Nat := 0x201008 + 0x20 * s
def HIF_SQ_SIZE_v (s : Nat) : Fld := ⟨(HIF_SQ_SIZE s), 0, 5⟩
def HIF_SQ_CTRL (s : Nat) : Nat := 0x20100C + 0x20 * s
def HIF_SQ_CTRL_EQ (s : Nat) : Fld := ⟨(HIF_SQ_CTRL s), 16, 3⟩
def HIF_SQ_CTRL_CQ (s : Nat) : Fld := ⟨(HIF_SQ_CTRL s), 8, 5⟩
def HIF_SQ_CTRL_PRIO (s : Nat) : Fld := ⟨(HIF_SQ_CTRL s), 1, 2⟩
def HIF_SQ_CTRL_EN (s : Nat) : Fld := ⟨(HIF_SQ_CTRL s), 0, 1⟩
def HIF_SQ_HEAD (s : Nat) : Nat := 0x201010 + 0x20 * s
def HIF_SQ_TAIL (s : Nat) : Nat := 0x201014 + 0x20 * s
def HIF_SQ_STAT (s : Nat) : Nat := 0x201018 + 0x20 * s
def HIF_SQ_STAT_DB_BACK (s : Nat) : Fld := ⟨(HIF_SQ_STAT s), 16, 16⟩
def HIF_SQ_STAT_CAUSE (s : Nat) : Fld := ⟨(HIF_SQ_STAT s), 8, 4⟩
def HIF_SQ_STAT_WAITING (s : Nat) : Fld := ⟨(HIF_SQ_STAT s), 1, 1⟩
def HIF_SQ_STAT_STOPPED (s : Nat) : Fld := ⟨(HIF_SQ_STAT s), 0, 1⟩
def HIF_CQ_BASE (c : Nat) : Nat := 0x202000 + 0x20 * c
def HIF_CQ_SIZE (c : Nat) : Nat := 0x202008 + 0x20 * c
def HIF_CQ_SIZE_v (c : Nat) : Fld := ⟨(HIF_CQ_SIZE c), 0, 5⟩
def HIF_CQ_CTRL (c : Nat) : Nat := 0x20200C + 0x20 * c
def HIF_CQ_CTRL_COAL_US (c : Nat) : Fld := ⟨(HIF_CQ_CTRL c), 24, 8⟩
def HIF_CQ_CTRL_COAL_CNT (c : Nat) : Fld := ⟨(HIF_CQ_CTRL c), 16, 8⟩
def HIF_CQ_CTRL_VEC (c : Nat) : Fld := ⟨(HIF_CQ_CTRL c), 8, 6⟩
def HIF_CQ_CTRL_EN (c : Nat) : Fld := ⟨(HIF_CQ_CTRL c), 0, 1⟩
def HIF_CQ_TAIL (c : Nat) : Nat := 0x202010 + 0x20 * c
def HIF_CQ_HEAD (c : Nat) : Nat := 0x202014 + 0x20 * c
def HIF_CQ_STAT (c : Nat) : Nat := 0x202018 + 0x20 * c
def HIF_CQ_STAT_FULL_STALL (c : Nat) : Fld := ⟨(HIF_CQ_STAT c), 16, 16⟩
def HIF_CQ_STAT_CAUSE (c : Nat) : Fld := ⟨(HIF_CQ_STAT c), 8, 4⟩
def HIF_CQ_STAT_STOPPED (c : Nat) : Fld := ⟨(HIF_CQ_STAT c), 0, 1⟩
def HIF_EQ_BASE (e : Nat) : Nat := 0x203000 + 0x20 * e
def HIF_EQ_SIZE (e : Nat) : Nat := 0x203008 + 0x20 * e
def HIF_EQ_SIZE_v (e : Nat) : Fld := ⟨(HIF_EQ_SIZE e), 0, 5⟩
def HIF_EQ_CTRL (e : Nat) : Nat := 0x20300C + 0x20 * e
def HIF_EQ_CTRL_COAL_US (e : Nat) : Fld := ⟨(HIF_EQ_CTRL e), 24, 8⟩
def HIF_EQ_CTRL_COAL_CNT (e : Nat) : Fld := ⟨(HIF_EQ_CTRL e), 16, 8⟩
def HIF_EQ_CTRL_VEC (e : Nat) : Fld := ⟨(HIF_EQ_CTRL e), 8, 6⟩
def HIF_EQ_CTRL_EN (e : Nat) : Fld := ⟨(HIF_EQ_CTRL e), 0, 1⟩
def HIF_EQ_TAIL (e : Nat) : Nat := 0x203010 + 0x20 * e
def HIF_EQ_HEAD (e : Nat) : Nat := 0x203014 + 0x20 * e
def HIF_EQ_STAT (e : Nat) : Nat := 0x203018 + 0x20 * e
def HIF_EQ_STAT_FULL_STALL (e : Nat) : Fld := ⟨(HIF_EQ_STAT e), 16, 16⟩
def HIF_EQ_STAT_CAUSE (e : Nat) : Fld := ⟨(HIF_EQ_STAT e), 8, 4⟩
def HIF_EQ_STAT_STOPPED (e : Nat) : Fld := ⟨(HIF_EQ_STAT e), 0, 1⟩
def HIF_FENCE_STAT : Nat := 0x20000C
def HIF_FENCE_STAT_TIMEOUTS : Fld := ⟨HIF_FENCE_STAT, 16, 16⟩
def HIF_FENCE_STAT_BIND_DROP : Fld := ⟨HIF_FENCE_STAT, 0, 1⟩
def HIF_SQ_FTMO (s : Nat) : Nat := 0x20101C + 0x20 * s
def HIF_SQ_FTMO_v (s : Nat) : Fld := ⟨(HIF_SQ_FTMO s), 0, 24⟩
def HIF_FBIND (k : Nat) : Nat := 0x204000 + 4 * k
def HIF_FBIND_EN (k : Nat) : Fld := ⟨(HIF_FBIND k), 31, 1⟩
def HIF_FBIND_FENCE (k : Nat) : Fld := ⟨(HIF_FBIND k), 0, 12⟩
def HIF_FENCE_VAL (i : Nat) : Nat := 0x208000 + 8 * i
def FE_LEASE_CTRL : Nat := 0x500100
def FE_LEASE_CTRL_v : Fld := ⟨FE_LEASE_CTRL, 0, 1⟩
def FE_LEASE_VIOL : Nat := 0x500104
def FE_LAYER_GEN (l : Nat) : Nat := 0x501000 + 4 * l
def FE_XFER_CTRL : Nat := 0x500110
def FE_XFER_CTRL_v : Fld := ⟨FE_XFER_CTRL, 0, 16⟩
def FE_LYR_DRAM_BASE : Nat := 0x500120
def FE_LYR_DRAM_SIZE : Nat := 0x500128
def FE_LYR_DRAM_FREE : Nat := 0x500130
def FE_STRM_CTRL (i : Nat) : Nat := 0x502000 + 0x40 * i
def FE_STRM_CTRL_IPV6 (i : Nat) : Fld := ⟨(FE_STRM_CTRL i), 6, 1⟩
def FE_STRM_CTRL_LOSS (i : Nat) : Fld := ⟨(FE_STRM_CTRL i), 5, 1⟩
def FE_STRM_CTRL_RX_TYPE (i : Nat) : Fld := ⟨(FE_STRM_CTRL i), 4, 1⟩
def FE_STRM_CTRL_PRI_PORT (i : Nat) : Fld := ⟨(FE_STRM_CTRL i), 2, 2⟩
def FE_STRM_CTRL_DUAL (i : Nat) : Fld := ⟨(FE_STRM_CTRL i), 1, 1⟩
def FE_STRM_CTRL_EN (i : Nat) : Fld := ⟨(FE_STRM_CTRL i), 0, 1⟩
def FE_STRM_FMT (i : Nat) : Nat := 0x502004 + 0x40 * i
def FE_STRM_FMT_RANGE (i : Nat) : Fld := ⟨(FE_STRM_FMT i), 11, 1⟩
def FE_STRM_FMT_TCS (i : Nat) : Fld := ⟨(FE_STRM_FMT i), 8, 3⟩
def FE_STRM_FMT_COLORIMETRY (i : Nat) : Fld := ⟨(FE_STRM_FMT i), 6, 2⟩
def FE_STRM_FMT_DEPTH (i : Nat) : Fld := ⟨(FE_STRM_FMT i), 4, 2⟩
def FE_STRM_FMT_SAMPLING (i : Nat) : Fld := ⟨(FE_STRM_FMT i), 0, 2⟩
def FE_STRM_SIZE (i : Nat) : Nat := 0x502008 + 0x40 * i
def FE_STRM_SIZE_HEIGHT (i : Nat) : Fld := ⟨(FE_STRM_SIZE i), 16, 16⟩
def FE_STRM_SIZE_WIDTH (i : Nat) : Fld := ⟨(FE_STRM_SIZE i), 0, 16⟩
def FE_STRM_UDP (i : Nat) : Nat := 0x50200C + 0x40 * i
def FE_STRM_UDP_PT (i : Nat) : Fld := ⟨(FE_STRM_UDP i), 16, 7⟩
def FE_STRM_UDP_PORT (i : Nat) : Fld := ⟨(FE_STRM_UDP i), 0, 16⟩
def FE_STRM_DST (i : Nat) (w : Nat) : Nat := 0x502010 + 0x40 * i + 4 * w
def FE_STRM_SRC (i : Nat) : Nat := 0x502020 + 0x40 * i
def FE_STRM_LAT (i : Nat) : Nat := 0x502024 + 0x40 * i
def FE_STRM_LAT_v (i : Nat) : Fld := ⟨(FE_STRM_LAT i), 0, 20⟩
def FE_STRM_SKEW (i : Nat) : Nat := 0x502028 + 0x40 * i
def FE_STRM_SKEW_v (i : Nat) : Fld := ⟨(FE_STRM_SKEW i), 0, 14⟩
def FE_STRM_STAT (i : Nat) : Nat := 0x50202C + 0x40 * i
def FE_STRM_STAT_OVFL (i : Nat) : Fld := ⟨(FE_STRM_STAT i), 3, 1⟩
def FE_STRM_STAT_UNSUP (i : Nat) : Fld := ⟨(FE_STRM_STAT i), 2, 1⟩
def FE_STRM_STAT_LOST (i : Nat) : Fld := ⟨(FE_STRM_STAT i), 1, 1⟩
def FE_STRM_STAT_ACTIVE (i : Nat) : Fld := ⟨(FE_STRM_STAT i), 0, 1⟩
def FE_STRM_PKT_LOST (i : Nat) : Nat := 0x502030 + 0x40 * i
def FE_STRM_PATH_LOST (i : Nat) : Nat := 0x502034 + 0x40 * i
def FE_STRM_PATH_LOST_SEC (i : Nat) : Fld := ⟨(FE_STRM_PATH_LOST i), 16, 16⟩
def FE_STRM_PATH_LOST_PRI (i : Nat) : Fld := ⟨(FE_STRM_PATH_LOST i), 0, 16⟩
def FE_STRM_LINE_REP (i : Nat) : Nat := 0x502038 + 0x40 * i
def FE_SACN_CTRL : Nat := 0x503000
def FE_SACN_CTRL_LOSS : Fld := ⟨FE_SACN_CTRL, 4, 1⟩
def FE_SACN_CTRL_PORT_EN : Fld := ⟨FE_SACN_CTRL, 0, 4⟩
def FE_CUE_CTRL : Nat := 0x503004
def FE_CUE_CTRL_PORT_EN : Fld := ⟨FE_CUE_CTRL, 16, 4⟩
def FE_CUE_CTRL_PORT : Fld := ⟨FE_CUE_CTRL, 0, 16⟩
def FE_CUE_DROP : Nat := 0x503008
def FE_DIVERGE : Nat := 0x503010
def FE_REP_MISM : Nat := 0x503014
def FE_MAP_DRAM_BASE : Nat := 0x500000
def FE_MAP_DRAM_SIZE : Nat := 0x500008
def FE_MAP_DRAM_FREE : Nat := 0x500010
def FE_SEG_COUNT : Nat := 0x500018
def FE_SEG_COUNT_v : Fld := ⟨FE_SEG_COUNT, 0, 12⟩
def FE_COMP_USED : Nat := 0x50001C
def FE_CMP_COST : Nat := 0x500020
def FE_CMP_TIME : Nat := 0x500028
def FE_STALL_NS : Nat := 0x50002C
def FE_CMP_BYTES : Nat := 0x500030
def FE_TC_MISS : Nat := 0x500038
def FE_TC_HOST : Nat := 0x50003C
def FE_MAP_ABSENT : Nat := 0x500040
def FE_FILL : Nat := 0x500044
def FE_MAP_DRAM_LARGEST : Nat := 0x500048
def FE_CLR_TEMP_DEF : Nat := 0x504000
def FE_CLR_TEMP_DEF_v : Fld := ⟨FE_CLR_TEMP_DEF, 0, 16⟩
def FE_CLR_TEMP_STALE : Nat := 0x504004
def FE_CLR_TEMP_STALE_v : Fld := ⟨FE_CLR_TEMP_STALE, 0, 16⟩
def FE_CLR_TRIM_CTRL : Nat := 0x504008
def FE_CLR_TRIM_CTRL_FREEZE : Fld := ⟨FE_CLR_TRIM_CTRL, 8, 1⟩
def FE_CLR_TRIM_CTRL_SLEW : Fld := ⟨FE_CLR_TRIM_CTRL, 0, 8⟩
def FE_CLR_CLIP : Nat := 0x50400C
def FE_CLR_STALE : Nat := 0x504010
def FE_CLR_STALE_v : Fld := ⟨FE_CLR_STALE, 0, 19⟩
def FE_CUE_PEND : Nat := 0x504014
def FE_CUE_PEND_v : Fld := ⟨FE_CUE_PEND, 0, 19⟩
def CRB_CTRL : Nat := 0x600000
def CRB_CTRL_CORR_CLR : Fld := ⟨CRB_CTRL, 2, 1⟩
def CRB_CTRL_CORR_EN : Fld := ⟨CRB_CTRL, 1, 1⟩
def CRB_CTRL_EN : Fld := ⟨CRB_CTRL, 0, 1⟩
def CRB_CORR_TAU : Nat := 0x600004
def CRB_CORR_TAU_v : Fld := ⟨CRB_CORR_TAU, 0, 16⟩
def CRB_CORR_MAX : Nat := 0x600008
def CRB_CORR_MAX_v : Fld := ⟨CRB_CORR_MAX, 0, 20⟩
def CRB_RISE : Nat := 0x60000C
def CRB_RISE_v : Fld := ⟨CRB_RISE, 0, 17⟩
def CRB_STATUS : Nat := 0x600010
def CRB_STATUS_ACTIVE : Fld := ⟨CRB_STATUS, 16, 16⟩
def CRB_STATUS_UNMET : Fld := ⟨CRB_STATUS, 0, 8⟩
def CRB_UNMET_CNT : Nat := 0x600014
def CRB_GLB_PRED : Nat := 0x600018
def CRB_FP_PRED (fp : Nat) : Nat := 0x601000 + 4 * fp
def CRB_FP_CORR (fp : Nat) : Nat := 0x601100 + 4 * fp
def CRB_FP_VOLT (fp : Nat) : Nat := 0x601200 + 4 * fp
def CRB_FP_SCALE (fp : Nat) (k : Nat) : Nat := 0x602000 + 0x10 * fp + 4 * k
def CRB_FP_SCALE_v (fp : Nat) (k : Nat) : Fld := ⟨(CRB_FP_SCALE fp k), 0, 17⟩
def CRB_TEAM_PRED (t : Nat) : Nat := 0x603000 + 4 * t
def CRB_TEAM_SCALE (t : Nat) (k : Nat) : Nat := 0x603100 + 0x10 * t + 4 * k
def CRB_TEAM_SCALE_v (t : Nat) (k : Nat) : Fld := ⟨(CRB_TEAM_SCALE t k), 0, 17⟩
def CRB_GLB_SCALE (k : Nat) : Nat := 0x603200 + 4 * k
def CRB_GLB_SCALE_v (k : Nat) : Fld := ⟨(CRB_GLB_SCALE k), 0, 17⟩
def TM_STATUS : Nat := 0x700000
def TM_STATUS_RST_BUSY : Fld := ⟨TM_STATUS, 17, 1⟩
def TM_STATUS_RUN_WR : Fld := ⟨TM_STATUS, 16, 1⟩
def TM_STATUS_FREEZE : Fld := ⟨TM_STATUS, 0, 16⟩
def TM_TEAM_RST : Nat := 0x700008
def TM_PORT_CFG (p : Nat) : Nat := 0x700100 + 0x40 * p
def TM_PORT_CFG_TEAM (p : Nat) : Fld := ⟨(TM_PORT_CFG p), 4, 4⟩
def TM_PORT_CFG_SPEED (p : Nat) : Fld := ⟨(TM_PORT_CFG p), 1, 1⟩
def TM_PORT_CFG_EN (p : Nat) : Fld := ⟨(TM_PORT_CFG p), 0, 1⟩
def TM_PORT_EP_FIRST (p : Nat) : Nat := 0x700104 + 0x40 * p
def TM_PORT_EP_FIRST_v (p : Nat) : Fld := ⟨(TM_PORT_EP_FIRST p), 0, 23⟩
def TM_PORT_EP_COUNT (p : Nat) : Nat := 0x700108 + 0x40 * p
def TM_PORT_EP_COUNT_v (p : Nat) : Fld := ⟨(TM_PORT_EP_COUNT p), 0, 23⟩
def TM_PORT_WM (p : Nat) : Nat := 0x70010C + 0x40 * p
def TM_PORT_WM_CWM (p : Nat) : Fld := ⟨(TM_PORT_WM p), 8, 8⟩
def TM_PORT_WM_LWM (p : Nat) : Fld := ⟨(TM_PORT_WM p), 0, 8⟩
def TM_PORT_OVH (p : Nat) : Nat := 0x700110 + 0x40 * p
def TM_PORT_OVH_TAIL (p : Nat) : Fld := ⟨(TM_PORT_OVH p), 8, 8⟩
def TM_PORT_OVH_HDR (p : Nat) : Fld := ⟨(TM_PORT_OVH p), 0, 8⟩
def TM_PORT_STAT (p : Nat) : Nat := 0x700114 + 0x40 * p
def TM_PORT_STAT_DEFER (p : Nat) : Fld := ⟨(TM_PORT_STAT p), 16, 16⟩
def TM_PORT_STAT_LINE_SLIP (p : Nat) : Fld := ⟨(TM_PORT_STAT p), 0, 16⟩
def TM_PORT_STARVE (p : Nat) : Nat := 0x700118 + 0x40 * p
def TM_PORT_URG (p : Nat) : Nat := 0x70011C + 0x40 * p
def TM_PORT_URG_L3_ENTRY (p : Nat) : Fld := ⟨(TM_PORT_URG p), 16, 16⟩
def TM_PORT_URG_LEVEL (p : Nat) : Fld := ⟨(TM_PORT_URG p), 0, 2⟩
def TM_PORT_CBR_MAX (p : Nat) : Nat := 0x700120 + 0x40 * p
def TM_PORT_CBR_MAX_v (p : Nat) : Fld := ⟨(TM_PORT_CBR_MAX p), 0, 18⟩
def TM_PORT_DOWN_DISC (p : Nat) : Nat := 0x700124 + 0x40 * p
def TM_RST_H0 (r : Nat) : Nat := 0x701000 + 0x20 * r
def TM_RST_H0_H_BP (r : Nat) : Fld := ⟨(TM_RST_H0 r), 8, 8⟩
def TM_RST_H0_H_SYNC (r : Nat) : Fld := ⟨(TM_RST_H0 r), 0, 8⟩
def TM_RST_H1 (r : Nat) : Nat := 0x701004 + 0x20 * r
def TM_RST_H1_H_FP (r : Nat) : Fld := ⟨(TM_RST_H1 r), 16, 12⟩
def TM_RST_H1_H_ACT (r : Nat) : Fld := ⟨(TM_RST_H1 r), 0, 12⟩
def TM_RST_V0 (r : Nat) : Nat := 0x701008 + 0x20 * r
def TM_RST_V0_V_BP (r : Nat) : Fld := ⟨(TM_RST_V0 r), 8, 8⟩
def TM_RST_V0_V_SYNC (r : Nat) : Fld := ⟨(TM_RST_V0 r), 0, 4⟩
def TM_RST_V1 (r : Nat) : Nat := 0x70100C + 0x20 * r
def TM_RST_V1_V_FP (r : Nat) : Fld := ⟨(TM_RST_V1 r), 16, 16⟩
def TM_RST_V1_V_ACT (r : Nat) : Fld := ⟨(TM_RST_V1 r), 0, 16⟩
def TM_RST_EPL (r : Nat) : Nat := 0x701010 + 0x20 * r
def TM_RST_EPL_v (r : Nat) : Fld := ⟨(TM_RST_EPL r), 0, 13⟩
def TM_RST_VBLK (r : Nat) : Nat := 0x701014 + 0x20 * r
def TM_RST_VBLK_VBLANK_MAX (r : Nat) : Fld := ⟨(TM_RST_VBLK r), 16, 16⟩
def TM_RST_VBLK_VBLANK_MIN (r : Nat) : Fld := ⟨(TM_RST_VBLK r), 0, 16⟩
def TM_FRZ_CTRL (t : Nat) : Nat := 0x702000 + 0x40 * t
def TM_FRZ_CTRL_FRZ_TICKS (t : Nat) : Fld := ⟨(TM_FRZ_CTRL t), 8, 8⟩
def TM_FRZ_CTRL_EN (t : Nat) : Fld := ⟨(TM_FRZ_CTRL t), 0, 1⟩
def TM_FRZ_SRC (t : Nat) (i : Nat) : Nat := 0x702004 + 0x40 * t + 4 * i
def TM_FRZ_SRC_EN (t : Nat) (i : Nat) : Fld := ⟨(TM_FRZ_SRC t i), 31, 1⟩
def TM_FRZ_SRC_LAYER (t : Nat) (i : Nat) : Fld := ⟨(TM_FRZ_SRC t i), 0, 10⟩
def TM_FRZ_CNT (t : Nat) : Nat := 0x702014 + 0x40 * t
def TM_FRZ_CNT_v (t : Nat) : Fld := ⟨(TM_FRZ_CNT t), 0, 16⟩
def TM_FRZ_SIG (t : Nat) : Nat := 0x702018 + 0x40 * t
def TM_TRC_CFG : Nat := 0x704000
def TM_TRC_CFG_UDP_PORT : Fld := ⟨TM_TRC_CFG, 16, 16⟩
def TM_TRC_CFG_ETYPE : Fld := ⟨TM_TRC_CFG, 0, 16⟩
def TM_TRC_MTU : Nat := 0x704004
def TM_TRC_MTU_v : Fld := ⟨TM_TRC_MTU, 0, 14⟩
def TM_TRC_UNIT : Nat := 0x704008
def TM_TRC_UNIT_v : Fld := ⟨TM_TRC_UNIT, 0, 1⟩
def TM_TRC_HOLD : Nat := 0x70400C
def TM_TRC_HOLD_RULE : Fld := ⟨TM_TRC_HOLD, 16, 2⟩
def TM_TRC_HOLD_HOLD_TICKS : Fld := ⟨TM_TRC_HOLD, 0, 16⟩
def TM_TRC_PLAN_INTV : Nat := 0x704010
def TM_TRC_PLAN_INTV_v : Fld := ⟨TM_TRC_PLAN_INTV, 0, 16⟩
def TM_TRC_CMD : Nat := 0x704014
def TM_TRC_CMD_MAX : Fld := ⟨TM_TRC_CMD, 16, 8⟩
def TM_TRC_CMD_RETRY : Fld := ⟨TM_TRC_CMD, 8, 8⟩
def TM_TRC_CMD_TMO : Fld := ⟨TM_TRC_CMD, 0, 8⟩
def TM_TRC_STAT : Nat := 0x704018
def TM_TRC_STAT_TLM_AUTH : Fld := ⟨TM_TRC_STAT, 16, 16⟩
def TM_TRC_STAT_RX_OTHER : Fld := ⟨TM_TRC_STAT, 0, 16⟩
def TM_TRC_SPLIT : Nat := 0x70401C
def TM_TRC_SPLIT_v : Fld := ⟨TM_TRC_SPLIT, 0, 19⟩
def TM_TRC_NODE_SEL : Nat := 0x704020
def TM_TRC_NODE_SEL_v : Fld := ⟨TM_TRC_NODE_SEL, 0, 18⟩
def TM_TRC_NODE_INFO : Nat := 0x704024
def TM_TRC_NODE_INFO_SEEN : Fld := ⟨TM_TRC_NODE_INFO, 31, 1⟩
def TM_TRC_NODE_INFO_LEVEL : Fld := ⟨TM_TRC_NODE_INFO, 29, 2⟩
def TM_TRC_NODE_INFO_PORT : Fld := ⟨TM_TRC_NODE_INFO, 26, 3⟩
def TM_TRC_LOC_GEN (p : Nat) : Nat := 0x704040 + 4 * p
def TM_TRC_LOC_GEN_v (p : Nat) : Fld := ⟨(TM_TRC_LOC_GEN p), 0, 8⟩
def TM_TRC_PORT (p : Nat) : Nat := 0x704100 + 0x20 * p
def TM_TRC_PORT_VID (p : Nat) : Fld := ⟨(TM_TRC_PORT p), 20, 12⟩
def TM_TRC_PORT_PCP (p : Nat) : Fld := ⟨(TM_TRC_PORT p), 17, 3⟩
def TM_TRC_PORT_VLAN (p : Nat) : Fld := ⟨(TM_TRC_PORT p), 16, 1⟩
def TM_TRC_PORT_FORMAT (p : Nat) : Fld := ⟨(TM_TRC_PORT p), 4, 2⟩
def TM_TRC_PORT_ENCAP (p : Nat) : Fld := ⟨(TM_TRC_PORT p), 0, 2⟩
def TM_TRC_DMAC (p : Nat) : Nat := 0x704108 + 0x20 * p
def TM_TRC_DIP (p : Nat) (w : Nat) : Nat := 0x704110 + 0x20 * p + 4 * w
def TM_SACN_CFG (p : Nat) : Nat := 0x704400 + 0x20 * p
def TM_SACN_CFG_UNIV_FIRST (p : Nat) : Fld := ⟨(TM_SACN_CFG p), 16, 16⟩
def TM_SACN_CFG_PRIORITY (p : Nat) : Fld := ⟨(TM_SACN_CFG p), 8, 8⟩
def TM_SACN_CFG_SYNC_EN (p : Nat) : Fld := ⟨(TM_SACN_CFG p), 1, 1⟩
def TM_SACN_CFG_MODE16 (p : Nat) : Fld := ⟨(TM_SACN_CFG p), 0, 1⟩
def TM_SACN_SYNC (p : Nat) : Nat := 0x704404 + 0x20 * p
def TM_SACN_SYNC_v (p : Nat) : Fld := ⟨(TM_SACN_SYNC p), 0, 16⟩
def TM_SACN_CID (w : Nat) : Nat := 0x704500 + 4 * w
def DMX_CFG (n : Nat) : Nat := 0x1200000 + 0x20 * n
def DMX_CFG_RDM_EN (n : Nat) : Fld := ⟨(DMX_CFG n), 4, 1⟩
def DMX_CFG_MODE16 (n : Nat) : Fld := ⟨(DMX_CFG n), 1, 1⟩
def DMX_CFG_EN (n : Nat) : Fld := ⟨(DMX_CFG n), 0, 1⟩
def DMX_EP_FIRST (n : Nat) : Nat := 0x1200004 + 0x20 * n
def DMX_EP_FIRST_v (n : Nat) : Fld := ⟨(DMX_EP_FIRST n), 0, 23⟩
def DMX_EP_COUNT (n : Nat) : Nat := 0x1200008 + 0x20 * n
def DMX_EP_COUNT_v (n : Nat) : Fld := ⟨(DMX_EP_COUNT n), 0, 10⟩
def DMX_TIMING (n : Nat) : Nat := 0x120000C + 0x20 * n
def DMX_TIMING_BREAK_US (n : Nat) : Fld := ⟨(DMX_TIMING n), 16, 16⟩
def DMX_TIMING_MAB_US (n : Nat) : Fld := ⟨(DMX_TIMING n), 0, 16⟩
def DMX_RDM (n : Nat) : Nat := 0x1200010 + 0x20 * n
def DMX_RDM_v (n : Nat) : Fld := ⟨(DMX_RDM n), 0, 4⟩
def DMX_STAT (n : Nat) : Nat := 0x1200014 + 0x20 * n
def DMX_STAT_RDM_NORESP (n : Nat) : Fld := ⟨(DMX_STAT n), 16, 16⟩
def DMX_STAT_OVER (n : Nat) : Fld := ⟨(DMX_STAT n), 1, 1⟩
def DMX_STAT_ACTIVE (n : Nat) : Fld := ⟨(DMX_STAT n), 0, 1⟩
def DMX_UID : Nat := 0x1200200
def DRV_CTRL : Nat := 0xA00000
def DRV_CTRL_v : Fld := ⟨DRV_CTRL, 0, 1⟩
def DRV_RETIRED : Nat := 0xA00008
def DRV_RET_NODE : Nat := 0xA00010
def DRV_RET_EP : Nat := 0xA00014
def DRV_RET_EP_v : Fld := ⟨DRV_RET_EP, 0, 23⟩
def DRV_DEBT_FORGIVE : Nat := 0xA00018
def DRV_FEED_PER_NS (f : Nat) : Nat := 0xA00100 + 8 * f
def DRV_FEED_PER_NS_v (f : Nat) : Fld := ⟨(DRV_FEED_PER_NS f), 0, 20⟩
def DRV_FEED_PER_FRAC (f : Nat) : Nat := 0xA00104 + 8 * f
def DRV_FEED_PER_FRAC_v (f : Nat) : Fld := ⟨(DRV_FEED_PER_FRAC f), 0, 16⟩
def DRV_CH_CFG (ch : Nat) : Nat := 0xA01000 + 0x20 * ch
def DRV_CH_CFG_EN (ch : Nat) : Fld := ⟨(DRV_CH_CFG ch), 31, 1⟩
def DRV_CH_CFG_SENSE_EN (ch : Nat) : Fld := ⟨(DRV_CH_CFG ch), 30, 1⟩
def DRV_CH_CFG_FEED (ch : Nat) : Fld := ⟨(DRV_CH_CFG ch), 26, 4⟩
def DRV_CH_CFG_COMP (ch : Nat) : Fld := ⟨(DRV_CH_CFG ch), 23, 3⟩
def DRV_CH_CFG_EP (ch : Nat) : Fld := ⟨(DRV_CH_CFG ch), 0, 23⟩
def DRV_CH_DIAG (ch : Nat) : Nat := 0xA01004 + 0x20 * ch
def DRV_CH_DIAG_TH_SHORT (ch : Nat) : Fld := ⟨(DRV_CH_DIAG ch), 22, 10⟩
def DRV_CH_DIAG_TH_OPEN (ch : Nat) : Fld := ⟨(DRV_CH_DIAG ch), 12, 10⟩
def DRV_CH_DIAG_K (ch : Nat) : Fld := ⟨(DRV_CH_DIAG ch), 4, 8⟩
def DRV_CH_DIAG_RETRY_MAX (ch : Nat) : Fld := ⟨(DRV_CH_DIAG ch), 0, 4⟩
def DRV_CH_DIAG2 (ch : Nat) : Nat := 0xA01008 + 0x20 * ch
def DRV_CH_DIAG2_PERSIST_TICKS (ch : Nat) : Fld := ⟨(DRV_CH_DIAG2 ch), 16, 16⟩
def DRV_CH_DIAG2_LC_LEVEL (ch : Nat) : Fld := ⟨(DRV_CH_DIAG2 ch), 8, 8⟩
def DRV_CH_DIAG2_PROBE_ZERO (ch : Nat) : Fld := ⟨(DRV_CH_DIAG2 ch), 0, 1⟩
def DRV_CH_STAT (ch : Nat) : Nat := 0xA0100C + 0x20 * ch
def DRV_CH_STAT_PHASE (ch : Nat) : Fld := ⟨(DRV_CH_STAT ch), 24, 8⟩
def DRV_CH_STAT_R (ch : Nat) : Fld := ⟨(DRV_CH_STAT ch), 20, 4⟩
def DRV_CH_STAT_CAUSE (ch : Nat) : Fld := ⟨(DRV_CH_STAT ch), 18, 2⟩
def DRV_CH_STAT_LAST_OBS (ch : Nat) : Fld := ⟨(DRV_CH_STAT ch), 16, 2⟩
def DRV_CH_STAT_STATE (ch : Nat) : Fld := ⟨(DRV_CH_STAT ch), 0, 3⟩
def DRV_CH_ADC (ch : Nat) : Nat := 0xA01010 + 0x20 * ch
def DRV_CH_ADC_VALID (ch : Nat) : Fld := ⟨(DRV_CH_ADC ch), 31, 1⟩
def DRV_CH_ADC_CODE (ch : Nat) : Fld := ⟨(DRV_CH_ADC ch), 0, 12⟩
def DRV_CH_CNT (ch : Nat) : Nat := 0xA01014 + 0x20 * ch
def DRV_CH_CNT_FAULTS (ch : Nat) : Fld := ⟨(DRV_CH_CNT ch), 16, 16⟩
def DRV_CH_CNT_RECOVER (ch : Nat) : Fld := ⟨(DRV_CH_CNT ch), 0, 16⟩
def DRV_CH_WAIT (ch : Nat) : Nat := 0xA01018 + 0x20 * ch
def DRV_CH_WAIT_v (ch : Nat) : Fld := ⟨(DRV_CH_WAIT ch), 0, 16⟩
def PHP_WIN : Nat := 0xA08000
def PHP_WIN_v : Fld := ⟨PHP_WIN, 0, 16⟩
def PHP_CORR_N : Nat := 0xA08004
def PHP_CORR_N_v : Fld := ⟨PHP_CORR_N, 0, 8⟩
def PHP_VOID : Nat := 0xA08008
def PHP_FEED_STAT (f : Nat) : Nat := 0xA08100 + 0x10 * f
def PHP_FEED_STAT_HELD (f : Nat) : Fld := ⟨(PHP_FEED_STAT f), 2, 1⟩
def PHP_FEED_STAT_MODE (f : Nat) : Fld := ⟨(PHP_FEED_STAT f), 0, 2⟩
def PHP_FEED_TGT (f : Nat) : Nat := 0xA08104 + 0x10 * f
def PHP_FEED_TGT_T2 (f : Nat) : Fld := ⟨(PHP_FEED_TGT f), 16, 16⟩
def PHP_FEED_TGT_T1 (f : Nat) : Fld := ⟨(PHP_FEED_TGT f), 0, 16⟩
def PHP_FEED_PLAN (f : Nat) : Nat := 0xA08108 + 0x10 * f
def PHP_FEED_LAST (f : Nat) : Nat := 0xA0810C + 0x10 * f
def PHP_MEAS_MAG (fp : Nat) (h : Nat) : Nat := 0xA09000 + 0x20 * fp + 0x10 * h
def PHP_MEAS_ANG (fp : Nat) (h : Nat) : Nat := 0xA09004 + 0x20 * fp + 0x10 * h
def PHP_MEAS_ANG_v (fp : Nat) (h : Nat) : Fld := ⟨(PHP_MEAS_ANG fp h), 0, 16⟩
def PHP_PRED_MAG (fp : Nat) (h : Nat) : Nat := 0xA09008 + 0x20 * fp + 0x10 * h
def PHP_CORR_MAG (fp : Nat) (h : Nat) : Nat := 0xA0900C + 0x20 * fp + 0x10 * h
def TLM_HERD_WIN : Nat := 0x900004
def TLM_HERD_WIN_v : Fld := ⟨TLM_HERD_WIN, 0, 8⟩
def TLM_SILENT_MS : Nat := 0x900008
def TLM_SILENT_MS_v : Fld := ⟨TLM_SILENT_MS, 0, 16⟩
def TLM_ROUTE0 : Nat := 0x900010
def TLM_ROUTE1 : Nat := 0x900014
def TLM_STATUS : Nat := 0x900020
def TLM_STATUS_PRES_BAD : Fld := ⟨TLM_STATUS, 1, 1⟩
def TLM_STATUS_RD_EN : Fld := ⟨TLM_STATUS, 0, 1⟩
def TLM_RX_STAT : Nat := 0x900024
def TLM_RX_STAT_DUP : Fld := ⟨TLM_RX_STAT, 16, 16⟩
def TLM_RX_STAT_MALFORMED : Fld := ⟨TLM_RX_STAT, 0, 16⟩
def TLM_HERD_OPEN : Nat := 0x900028
def TLM_HERD_OPEN_v : Fld := ⟨TLM_HERD_OPEN, 0, 13⟩
def TLM_HERD_FULL : Nat := 0x90002C
def TLM_NODE_LOCMISS : Nat := 0x900030
def TLM_NODE_HELD : Nat := 0x900034
def TLM_NODE_REJECT : Nat := 0x900038
def TLM_ZONE_BAD : Nat := 0x90003C
def TLM_EQ_RD (e : Nat) (w : Nat) : Nat := 0x901000 + 0x40 * e + 4 * w
def TLM_EQ_FILL (e : Nat) : Nat := 0x901020 + 0x40 * e
def TLM_EQ_FILL_v (e : Nat) : Fld := ⟨(TLM_EQ_FILL e), 0, 15⟩
def TLM_EQ_LOST (e : Nat) : Nat := 0x901024 + 0x40 * e
def TLM_EQ_DROP (e : Nat) : Nat := 0x901028 + 0x40 * e
def TLM_EQ_GAP (e : Nat) : Nat := 0x90102C + 0x40 * e
def TLM_EQ_GAP_v (e : Nat) : Fld := ⟨(TLM_EQ_GAP e), 0, 1⟩
def TLM_PRES_CTRL : Nat := 0x902000
def TLM_PRES_CTRL_EN : Fld := ⟨TLM_PRES_CTRL, 31, 1⟩
def TLM_PRES_CTRL_LAYER : Fld := ⟨TLM_PRES_CTRL, 0, 10⟩
def TLM_ZONE_SEL : Nat := 0x902010
def TLM_ZONE_SEL_v : Fld := ⟨TLM_ZONE_SEL, 0, 12⟩
def TLM_ZONE_PED : Nat := 0x902014
def TLM_ZONE_CYC : Nat := 0x902018
def TLM_ZONE_VEH : Nat := 0x90201C
def TLM_ZONE_STATE : Nat := 0x902020
def TLM_ZONE_STATE_CEIL : Fld := ⟨TLM_ZONE_STATE, 16, 16⟩
def TLM_ZONE_STATE_FLOOR : Fld := ⟨TLM_ZONE_STATE, 0, 16⟩
def TLM_ZONE_ACT : Nat := 0x902024
def TLM_ZONE_ACT_v : Fld := ⟨TLM_ZONE_ACT, 0, 1⟩
def TLM_PRES_RULE_A (r : Nat) : Nat := 0x902100 + 0x20 * r
def TLM_PRES_RULE_A_FLOOR_ACT (r : Nat) : Fld := ⟨(TLM_PRES_RULE_A r), 16, 16⟩
def TLM_PRES_RULE_A_FLOOR_IDLE (r : Nat) : Fld := ⟨(TLM_PRES_RULE_A r), 0, 16⟩
def TLM_PRES_RULE_B (r : Nat) : Nat := 0x902104 + 0x20 * r
def TLM_PRES_RULE_B_CEIL_ACT (r : Nat) : Fld := ⟨(TLM_PRES_RULE_B r), 16, 16⟩
def TLM_PRES_RULE_B_CEIL_IDLE (r : Nat) : Fld := ⟨(TLM_PRES_RULE_B r), 0, 16⟩
def TLM_PRES_RULE_C (r : Nat) : Nat := 0x902108 + 0x20 * r
def TLM_PRES_RULE_C_STEP_DOWN (r : Nat) : Fld := ⟨(TLM_PRES_RULE_C r), 16, 16⟩
def TLM_PRES_RULE_C_STEP_UP (r : Nat) : Fld := ⟨(TLM_PRES_RULE_C r), 0, 16⟩
def TLM_PRES_RULE_D (r : Nat) : Nat := 0x90210C + 0x20 * r
def TLM_PRES_RULE_D_EN (r : Nat) : Fld := ⟨(TLM_PRES_RULE_D r), 31, 1⟩
def TLM_PRES_RULE_D_W_VEH (r : Nat) : Fld := ⟨(TLM_PRES_RULE_D r), 24, 4⟩
def TLM_PRES_RULE_D_W_CYC (r : Nat) : Fld := ⟨(TLM_PRES_RULE_D r), 20, 4⟩
def TLM_PRES_RULE_D_W_PED (r : Nat) : Fld := ⟨(TLM_PRES_RULE_D r), 16, 4⟩
def TLM_PRES_RULE_D_HOLD_TICKS (r : Nat) : Fld := ⟨(TLM_PRES_RULE_D r), 0, 16⟩
def TLM_PRES_RULE_E (r : Nat) : Nat := 0x902110 + 0x20 * r
def TLM_PRES_RULE_E_v (r : Nat) : Fld := ⟨(TLM_PRES_RULE_E r), 0, 16⟩
def TLM_ZONE_MAP (z : Nat) : Nat := 0x903000 + 4 * z
def TLM_ZONE_MAP_B0 (z : Nat) : Fld := ⟨(TLM_ZONE_MAP z), 0, 6⟩
def TLM_ZONE_MAP_B1 (z : Nat) : Fld := ⟨(TLM_ZONE_MAP z), 8, 6⟩
def TLM_ZONE_MAP_B2 (z : Nat) : Fld := ⟨(TLM_ZONE_MAP z), 16, 6⟩
def TLM_ZONE_MAP_B3 (z : Nat) : Fld := ⟨(TLM_ZONE_MAP z), 24, 6⟩
def MTR_SAVE_BASE : Nat := 0xB00000
def MTR_SAVE_BASE_v : Fld := ⟨MTR_SAVE_BASE, 12, 20⟩
def MTR_SAVE_SECT : Nat := 0xB00004
def MTR_SAVE_SECT_v : Fld := ⟨MTR_SAVE_SECT, 0, 13⟩
def MTR_SAVE_INTV : Nat := 0xB00008
def MTR_SAVE_INTV_v : Fld := ⟨MTR_SAVE_INTV, 0, 12⟩
def MTR_SAVE_STAT : Nat := 0xB0000C
def MTR_SAVE_STAT_FAILS : Fld := ⟨MTR_SAVE_STAT, 16, 16⟩
def MTR_SAVE_STAT_BAD : Fld := ⟨MTR_SAVE_STAT, 2, 1⟩
def MTR_SAVE_STAT_RESTORED : Fld := ⟨MTR_SAVE_STAT, 1, 1⟩
def MTR_SAVE_STAT_BUSY : Fld := ⟨MTR_SAVE_STAT, 0, 1⟩
def MTR_SAVE_SEQ : Nat := 0xB00010
def FAR_STAT : Nat := 0xC00000
def FAR_STAT_LFAILS : Fld := ⟨FAR_STAT, 16, 16⟩
def FAR_STAT_LEDGER_BAD : Fld := ⟨FAR_STAT, 2, 1⟩
def FAR_STAT_CAP_WR : Fld := ⟨FAR_STAT, 1, 1⟩
def FAR_STAT_FT_BAD : Fld := ⟨FAR_STAT, 0, 1⟩
def FAR_FT_PERIOD : Nat := 0xC00004
def FAR_FT_PERIOD_v : Fld := ⟨FAR_FT_PERIOD, 0, 12⟩
def FAR_FT_HYST : Nat := 0xC00008
def FAR_FT_HYST_v : Fld := ⟨FAR_FT_HYST, 0, 12⟩
def FAR_LEDGER_BASE : Nat := 0xC0000C
def FAR_LEDGER_BASE_v : Fld := ⟨FAR_LEDGER_BASE, 12, 20⟩
def FAR_LEDGER_SECT : Nat := 0xC00010
def FAR_LEDGER_SECT_v : Fld := ⟨FAR_LEDGER_SECT, 0, 8⟩
def FAR_TJ (s : Nat) : Nat := 0xC00100 + 4 * s
def FAR_TJ_v (s : Nat) : Fld := ⟨(FAR_TJ s), 0, 16⟩
def FAR_SET_TEMP (k : Nat) : Nat := 0xC00120 + 4 * k
def FAR_SET_TEMP_v (k : Nat) : Fld := ⟨(FAR_SET_TEMP k), 0, 16⟩
def FAR_SET_CNT (k : Nat) : Nat := 0xC00200 + 0x20 * k
def FAR_SET_TIME (k : Nat) : Nat := 0xC00208 + 0x20 * k
def FAR_SET_NS (k : Nat) : Nat := 0xC00210 + 0x20 * k
def FAR_SET_REF (k : Nat) : Nat := 0xC00218 + 0x20 * k
def FAR_CAP_CTRL : Nat := 0xC00800
def FAR_CAP_CTRL_CYC : Fld := ⟨FAR_CAP_CTRL, 8, 12⟩
def FAR_CAP_CTRL_FEED : Fld := ⟨FAR_CAP_CTRL, 4, 4⟩
def FAR_CAP_CTRL_STOP : Fld := ⟨FAR_CAP_CTRL, 1, 1⟩
def FAR_CAP_CTRL_START : Fld := ⟨FAR_CAP_CTRL, 0, 1⟩
def FAR_CAP_REF : Nat := 0xC00808
def FAR_CAP_STAT : Nat := 0xC00810
def FAR_CAP_STAT_DONE : Fld := ⟨FAR_CAP_STAT, 16, 16⟩
def FAR_CAP_STAT_STATUS : Fld := ⟨FAR_CAP_STAT, 1, 3⟩
def FAR_CAP_STAT_BUSY : Fld := ⟨FAR_CAP_STAT, 0, 1⟩
def FAR_CAP_FREQ : Nat := 0xC00814
def FAR_CAP_RMS (c : Nat) : Nat := 0xC00820 + 4 * c
def FAR_CAP_ANG (c : Nat) : Nat := 0xC00840 + 4 * c
def TDM_CTRL : Nat := 0x800000
def TDM_CTRL_ISO_TAKEOVER : Fld := ⟨TDM_CTRL, 2, 1⟩
def TDM_CTRL_ROLE_PREF : Fld := ⟨TDM_CTRL, 1, 1⟩
def TDM_CTRL_EN : Fld := ⟨TDM_CTRL, 0, 1⟩
def TDM_STATUS : Nat := 0x800004
def TDM_STATUS_FAULT_CAUSE : Fld := ⟨TDM_STATUS, 8, 4⟩
def TDM_STATUS_SWAP_PEND : Fld := ⟨TDM_STATUS, 7, 1⟩
def TDM_STATUS_ALIVE_IN : Fld := ⟨TDM_STATUS, 6, 1⟩
def TDM_STATUS_PARTNER : Fld := ⟨TDM_STATUS, 5, 1⟩
def TDM_STATUS_LANE1_UP : Fld := ⟨TDM_STATUS, 4, 1⟩
def TDM_STATUS_LANE0_UP : Fld := ⟨TDM_STATUS, 3, 1⟩
def TDM_STATUS_MODE : Fld := ⟨TDM_STATUS, 2, 1⟩
def TDM_STATE : Nat := 0x800008
def TDM_STATE_v : Fld := ⟨TDM_STATE, 0, 3⟩
def TDM_EPOCH : Nat := 0x80000C
def TDM_EPOCH_v : Fld := ⟨TDM_EPOCH, 0, 16⟩
def TDM_HOLD : Nat := 0x800010
def TDM_HOLD_v : Fld := ⟨TDM_HOLD, 0, 8⟩
def TDM_SEARCH_MS : Nat := 0x800014
def TDM_SEARCH_MS_v : Fld := ⟨TDM_SEARCH_MS, 0, 16⟩
def TDM_LR_TMO : Nat := 0x800018
def TDM_LR_TMO_v : Fld := ⟨TDM_LR_TMO, 0, 10⟩
def TDM_DIV_LIMIT : Nat := 0x80001C
def TDM_DIV_LIMIT_v : Fld := ⟨TDM_DIV_LIMIT, 0, 8⟩
def TDM_TOFS : Nat := 0x800020
def TDM_TOFS_MAX : Nat := 0x800024
def TDM_TOFS_MAX_v : Fld := ⟨TDM_TOFS_MAX, 0, 16⟩
def TDM_CFG : Nat := 0x800028
def TDM_CFG_v : Fld := ⟨TDM_CFG, 0, 16⟩
def TDM_VER : Nat := 0x80002C
def TDM_VER_ARITH_ID : Fld := ⟨TDM_VER, 16, 16⟩
def TDM_VER_CGEN : Fld := ⟨TDM_VER, 0, 8⟩
def TDM_PVER : Nat := 0x800030
def TDM_JRN_LAST : Nat := 0x800038
def TDM_SWAP_PER : Nat := 0x800040
def TDM_SWAP_NEXT : Nat := 0x800048
def TDM_MISM : Nat := 0x800050
def TDM_MISM_MISMATCH : Fld := ⟨TDM_MISM, 16, 16⟩
def TDM_MISM_DIVERGED : Fld := ⟨TDM_MISM, 0, 16⟩
def TDM_UNCHK : Nat := 0x800054
def TDM_ARB_SKIP : Nat := 0x800058
def TDM_RS_BYTES : Nat := 0x800060
def MEM_STATUS : Nat := 0xD00000
def MEM_STATUS_LOG_NE : Fld := ⟨MEM_STATUS, 3, 1⟩
def MEM_STATUS_WATCH_FULL : Fld := ⟨MEM_STATUS, 2, 1⟩
def MEM_STATUS_SVC_REFUSED : Fld := ⟨MEM_STATUS, 1, 1⟩
def MEM_STATUS_INIT_DONE : Fld := ⟨MEM_STATUS, 0, 1⟩
def MEM_SVC_REQ : Nat := 0xD00004
def MEM_SVC_REQ_LEAVE : Fld := ⟨MEM_SVC_REQ, 1, 1⟩
def MEM_SVC_REQ_TEST : Fld := ⟨MEM_SVC_REQ, 0, 1⟩
def MEM_SCRUB_DRAM : Nat := 0xD00008
def MEM_SCRUB_DRAM_v : Fld := ⟨MEM_SCRUB_DRAM, 0, 20⟩
def MEM_SCRUB_SRAM : Nat := 0xD0000C
def MEM_SCRUB_SRAM_v : Fld := ⟨MEM_SCRUB_SRAM, 0, 17⟩
def MEM_SCRUB_POS : Nat := 0xD00010
def MEM_SCRUB_POS_SRAM_PCT : Fld := ⟨MEM_SCRUB_POS, 16, 7⟩
def MEM_SCRUB_POS_DRAM_PCT : Fld := ⟨MEM_SCRUB_POS, 0, 7⟩
def MEM_REPEAT_WIN : Nat := 0xD00014
def MEM_REPEAT_WIN_v : Fld := ⟨MEM_REPEAT_WIN, 0, 8⟩
def MEM_HDL_WDT : Nat := 0xD00018
def MEM_HDL_WDT_v : Fld := ⟨MEM_HDL_WDT, 0, 16⟩
def MEM_POISON_RD : Nat := 0xD0001C
def MEM_HELD_SEG : Nat := 0xD00020
def MEM_RIDER_RST : Nat := 0xD00024
def MEM_FS_CAUSE : Nat := 0xD00028
def MEM_FS_CAUSE_KIND : Fld := ⟨MEM_FS_CAUSE, 16, 8⟩
def MEM_FS_CAUSE_MEMID : Fld := ⟨MEM_FS_CAUSE, 8, 8⟩
def MEM_FS_CAUSE_VALID : Fld := ⟨MEM_FS_CAUSE, 0, 1⟩
def MEM_LOG_SEL : Nat := 0xD00030
def MEM_LOG_SEL_v : Fld := ⟨MEM_LOG_SEL, 0, 6⟩
def MEM_LOG_COUNT : Nat := 0xD00034
def MEM_LOG_COUNT_v : Fld := ⟨MEM_LOG_COUNT, 0, 7⟩
def MEM_LOG_LOST : Nat := 0xD00038
def MEM_LOG_DATA (w : Nat) : Nat := 0xD00040 + 4 * w
def MEM_ECC_CE1 (m : Nat) : Nat := 0xD00100 + 0x10 * m
def MEM_ECC_CE2 (m : Nat) : Nat := 0xD00104 + 0x10 * m
def MEM_ECC_UE (m : Nat) : Nat := 0xD00108 + 0x10 * m
def MEM_SPARE (m : Nat) : Nat := 0xD0010C + 0x10 * m
def MEM_SPARE_LEFT (m : Nat) : Fld := ⟨(MEM_SPARE m), 16, 16⟩
def MEM_SPARE_USED (m : Nat) : Fld := ⟨(MEM_SPARE m), 0, 16⟩
def BRD_STATUS : Nat := 0x100000
def BRD_STATUS_BAD : Fld := ⟨BRD_STATUS, 2, 1⟩
def BRD_STATUS_DEFAULT : Fld := ⟨BRD_STATUS, 1, 1⟩
def BRD_STATUS_LOCKED : Fld := ⟨BRD_STATUS, 0, 1⟩
def BRD_MASK (k : Nat) : Nat := 0x100010 + 4 * k
def BRD_MASK_v (k : Nat) : Fld := ⟨(BRD_MASK k), 0, 8⟩
def BRD_PORT_DENY : Nat := 0x100040
def BRD_DENY_CNT : Nat := 0x100048
def BRD_DENY_LAST : Nat := 0x10004C
def BRD_DENY_LAST_CLASS : Fld := ⟨BRD_DENY_LAST, 8, 3⟩
def BRD_DENY_LAST_PORT : Fld := ⟨BRD_DENY_LAST, 0, 6⟩
def TKR_STAT : Nat := 0xE00000
def TKR_STAT_AUTH_POS : Fld := ⟨TKR_STAT, 6, 2⟩
def TKR_STAT_SES_WAIT : Fld := ⟨TKR_STAT, 5, 1⟩
def TKR_STAT_COMMIT_BUSY : Fld := ⟨TKR_STAT, 4, 1⟩
def TKR_STAT_GROOM_LATE : Fld := ⟨TKR_STAT, 3, 1⟩
def TKR_STAT_TRNG_BAD : Fld := ⟨TKR_STAT, 2, 1⟩
def TKR_STAT_DBG_ARMED : Fld := ⟨TKR_STAT, 1, 1⟩
def TKR_STAT_DEBUG : Fld := ⟨TKR_STAT, 0, 1⟩
def TKR_GROOM : Nat := 0xE00004
def TKR_GROOM_v : Fld := ⟨TKR_GROOM, 0, 10⟩
def TKR_GRACE : Nat := 0xE00008
def TKR_GRACE_v : Fld := ⟨TKR_GRACE, 0, 17⟩
def TKR_KEY_LEAD : Nat := 0xE0000C
def TKR_KEY_LEAD_v : Fld := ⟨TKR_KEY_LEAD, 0, 8⟩
def TKR_CTR : Nat := 0xE00010
def TKR_BOOTC : Nat := 0xE00018
def TKR_SESSION : Nat := 0xE0001C
def TKR_NODE_MASTER : Nat := 0xE00020
def TKR_NODE_MASTER_EN : Fld := ⟨TKR_NODE_MASTER, 31, 1⟩
def TKR_NODE_MASTER_SLOT : Fld := ⟨TKR_NODE_MASTER, 0, 6⟩
def TKR_PAIR_SLOT : Nat := 0xE00024
def TKR_PAIR_SLOT_EN : Fld := ⟨TKR_PAIR_SLOT, 31, 1⟩
def TKR_PAIR_SLOT_SLOT : Fld := ⟨TKR_PAIR_SLOT, 0, 6⟩
def TKR_SLOT_SEL : Nat := 0xE00028
def TKR_SLOT_SEL_v : Fld := ⟨TKR_SLOT_SEL, 0, 6⟩
def TKR_SLOT_INFO : Nat := 0xE0002C
def TKR_SLOT_INFO_STATE : Fld := ⟨TKR_SLOT_INFO, 16, 3⟩
def TKR_SLOT_INFO_KIND : Fld := ⟨TKR_SLOT_INFO, 8, 3⟩
def TKR_SLOT_INFO_PARENT : Fld := ⟨TKR_SLOT_INFO, 0, 8⟩
def TKR_SLOT_GEN : Nat := 0xE00030
def TKR_SLOT_GRACE : Nat := 0xE00034
def TKR_ID_HASH (w : Nat) : Nat := 0xE00040 + 4 * w
def TKR_PORT_DOM (p : Nat) : Nat := 0xE00100 + 4 * p
def TKR_PORT_DOM_EN (p : Nat) : Fld := ⟨(TKR_PORT_DOM p), 31, 1⟩
def TKR_PORT_DOM_SLOT (p : Nat) : Fld := ⟨(TKR_PORT_DOM p), 0, 6⟩
def IMG_STATUS : Nat := 0xF00000
def IMG_STATUS_FLOOR : Fld := ⟨IMG_STATUS, 24, 7⟩
def IMG_STATUS_CAUSE : Fld := ⟨IMG_STATUS, 8, 4⟩
def IMG_STATUS_UNOWNED : Fld := ⟨IMG_STATUS, 2, 1⟩
def IMG_STATUS_TRIAL : Fld := ⟨IMG_STATUS, 1, 1⟩
def IMG_STATUS_FALLBACK : Fld := ⟨IMG_STATUS, 0, 1⟩
def IMG_TRIAL : Nat := 0xF00004
def IMG_TRIAL_v : Fld := ⟨IMG_TRIAL, 0, 16⟩
def IMG_SLOT_STATE (s : Nat) : Nat := 0xF00100 + 0x20 * s
def IMG_SLOT_STATE_CGEN (s : Nat) : Fld := ⟨(IMG_SLOT_STATE s), 24, 8⟩
def IMG_SLOT_STATE_SVN (s : Nat) : Fld := ⟨(IMG_SLOT_STATE s), 16, 8⟩
def IMG_SLOT_STATE_CAUSE (s : Nat) : Fld := ⟨(IMG_SLOT_STATE s), 4, 4⟩
def IMG_SLOT_STATE_ACTIVE (s : Nat) : Fld := ⟨(IMG_SLOT_STATE s), 3, 1⟩
def IMG_SLOT_STATE_STATE (s : Nat) : Fld := ⟨(IMG_SLOT_STATE s), 0, 3⟩
def IMG_SLOT_VER (s : Nat) : Nat := 0xF00104 + 0x20 * s
def IMG_SLOT_TOTAL (s : Nat) : Nat := 0xF00108 + 0x20 * s
def IMG_SLOT_TOTAL_v (s : Nat) : Fld := ⟨(IMG_SLOT_TOTAL s), 0, 13⟩
def IMG_SLOT_MISSING (s : Nat) : Nat := 0xF0010C + 0x20 * s
def IMG_SLOT_MISSING_v (s : Nat) : Fld := ⟨(IMG_SLOT_MISSING s), 0, 13⟩
def IMG_PEER : Nat := 0xF00200
def IMG_PEER_STOP : Fld := ⟨IMG_PEER, 9, 1⟩
def IMG_PEER_GO : Fld := ⟨IMG_PEER, 8, 1⟩
def IMG_PEER_SRC_SLOT : Fld := ⟨IMG_PEER, 4, 1⟩
def IMG_PEER_DST_SLOT : Fld := ⟨IMG_PEER, 0, 1⟩
def IMG_PEER_STAT : Nat := 0xF00204
def IMG_PEER_STAT_RECEIVED : Fld := ⟨IMG_PEER_STAT, 16, 16⟩
def IMG_PEER_STAT_STATE : Fld := ⟨IMG_PEER_STAT, 0, 3⟩
def IMG_MG_IP : Nat := 0xF00300
def IMG_MG_PORT : Nat := 0xF00304
def IMG_MG_PORT_v : Fld := ⟨IMG_MG_PORT, 0, 16⟩
def IMG_MIG : Nat := 0xF00400
def IMG_MIG_CFG_VER : Fld := ⟨IMG_MIG, 16, 16⟩
def IMG_MIG_STATE : Fld := ⟨IMG_MIG, 0, 2⟩
def IMG_NODE_VER : Nat := 0xF00500
def IMG_RELAY_ID (i : Nat) : Nat := 0xF00600 + 8 * i
def IMG_RELAY_INFO (i : Nat) : Nat := 0xF00604 + 8 * i
def IMG_RELAY_INFO_VALID (i : Nat) : Fld := ⟨(IMG_RELAY_INFO i), 31, 1⟩
def IMG_RELAY_INFO_TOTAL (i : Nat) : Fld := ⟨(IMG_RELAY_INFO i), 16, 13⟩
def IMG_RELAY_INFO_MISSING (i : Nat) : Fld := ⟨(IMG_RELAY_INFO i), 0, 13⟩
def GLB_PWR_REQ : Nat := 0x100
def GLB_PWR_REQ_LEGACY : Fld := ⟨GLB_PWR_REQ, 13, 1⟩
def GLB_PWR_REQ_MIXED : Fld := ⟨GLB_PWR_REQ, 12, 1⟩
def GLB_PWR_REQ_TANDEM : Fld := ⟨GLB_PWR_REQ, 11, 1⟩
def GLB_PWR_REQ_MEDIA : Fld := ⟨GLB_PWR_REQ, 10, 1⟩
def GLB_PWR_REQ_EGRESS : Fld := ⟨GLB_PWR_REQ, 9, 1⟩
def GLB_PWR_REQ_FE_B : Fld := ⟨GLB_PWR_REQ, 8, 1⟩
def GLB_PWR_REQ_FE_A : Fld := ⟨GLB_PWR_REQ, 7, 1⟩
def GLB_PWR_REQ_FIXED : Fld := ⟨GLB_PWR_REQ, 0, 7⟩
def GLB_PWR_STAT : Nat := 0x104
def GLB_PWR_STAT_OFF_ACC : Fld := ⟨GLB_PWR_STAT, 17, 1⟩
def GLB_PWR_STAT_REFUSED : Fld := ⟨GLB_PWR_STAT, 16, 1⟩
def GLB_PWR_STAT_ON : Fld := ⟨GLB_PWR_STAT, 0, 14⟩
def GLB_DOM_RST : Nat := 0x108
def GLB_DOM_RST_MEDIA : Fld := ⟨GLB_DOM_RST, 10, 1⟩
def GLB_DOM_RST_TANDEM : Fld := ⟨GLB_DOM_RST, 11, 1⟩
def GLB_DOM_RST_LEGACY : Fld := ⟨GLB_DOM_RST, 13, 1⟩
def GLB_RST_CAUSE : Nat := 0x10C
def GLB_RST_CAUSE_BROWNOUT : Fld := ⟨GLB_RST_CAUSE, 8, 1⟩
def GLB_RST_CAUSE_LAST : Fld := ⟨GLB_RST_CAUSE, 0, 3⟩
def GLB_CLK_STAT : Nat := 0x110
def GLB_CLK_STAT_LOCK_LOST : Fld := ⟨GLB_CLK_STAT, 17, 1⟩
def GLB_CLK_STAT_REF_LOST : Fld := ⟨GLB_CLK_STAT, 16, 1⟩
def GLB_CLK_STAT_HOLD : Fld := ⟨GLB_CLK_STAT, 8, 1⟩
def GLB_CLK_STAT_PCIE_LOCK : Fld := ⟨GLB_CLK_STAT, 7, 1⟩
def GLB_CLK_STAT_ETH_LOCK : Fld := ⟨GLB_CLK_STAT, 6, 1⟩
def GLB_CLK_STAT_DDR_LOCK : Fld := ⟨GLB_CLK_STAT, 5, 1⟩
def GLB_CLK_STAT_DRV_LOCK : Fld := ⟨GLB_CLK_STAT, 4, 1⟩
def GLB_CLK_STAT_CPU_LOCK : Fld := ⟨GLB_CLK_STAT, 3, 1⟩
def GLB_CLK_STAT_ENG_LOCK : Fld := ⟨GLB_CLK_STAT, 2, 1⟩
def GLB_CLK_STAT_TB_LOCK : Fld := ⟨GLB_CLK_STAT, 1, 1⟩
def GLB_CLK_STAT_REF_OK : Fld := ⟨GLB_CLK_STAT, 0, 1⟩
def LBK_STATUS : Nat := 0x1100000
def LBK_STATUS_JTAG_BLK : Fld := ⟨LBK_STATUS, 3, 1⟩
def LBK_STATUS_PATH : Fld := ⟨LBK_STATUS, 2, 1⟩
def LBK_STATUS_CONFLICT : Fld := ⟨LBK_STATUS, 1, 1⟩
def LBK_STATUS_SVC : Fld := ⟨LBK_STATUS, 0, 1⟩
def LBK_PCIE : Nat := 0x1100010
def LBK_PCIE_v : Fld := ⟨LBK_PCIE, 0, 2⟩
def LBK_DDR : Nat := 0x1100020
def LBK_DDR_C0 : Fld := ⟨LBK_DDR, 0, 2⟩
def LBK_DDR_C1 : Fld := ⟨LBK_DDR, 3, 2⟩
def LBK_DDR_C2 : Fld := ⟨LBK_DDR, 6, 2⟩
def LBK_DDR_C3 : Fld := ⟨LBK_DDR, 9, 2⟩
def LBK_DDR_C4 : Fld := ⟨LBK_DDR, 12, 2⟩
def LBK_DDR_C5 : Fld := ⟨LBK_DDR, 15, 2⟩
def LBK_DDR_ERR (c : Nat) : Nat := 0x1100024 + 4 * c
def LBK_MPG_CTRL : Nat := 0x1100040
def LBK_MPG_CTRL_v : Fld := ⟨LBK_MPG_CTRL, 0, 16⟩
def LBK_MPG_FREQ : Nat := 0x1100044
def LBK_MPG_FREQ_v : Fld := ⟨LBK_MPG_FREQ, 0, 17⟩
def LBK_MPG_AMP : Nat := 0x1100048
def LBK_MPG_AMP_AMP_I : Fld := ⟨LBK_MPG_AMP, 16, 16⟩
def LBK_MPG_AMP_AMP_V : Fld := ⟨LBK_MPG_AMP, 0, 16⟩
def LBK_MPG_LAG : Nat := 0x110004C
def LBK_MPG_LAG_v : Fld := ⟨LBK_MPG_LAG, 0, 16⟩
def LBK_DRV_CTRL : Nat := 0x1100060
def LBK_DRV_CTRL_EN : Fld := ⟨LBK_DRV_CTRL, 31, 1⟩
def LBK_DRV_CTRL_SENSE : Fld := ⟨LBK_DRV_CTRL, 0, 2⟩
def LBK_DRV_MASK : Nat := 0x1100068
def LBK_DRV_DUTY : Nat := 0x1100070
def LBK_DRV_DUTY_v : Fld := ⟨LBK_DRV_DUTY, 0, 16⟩
def LBK_DMX : Nat := 0x1100080
def LBK_LANE_CTRL (L : Nat) : Nat := 0x1101000 + 0x10 * L
def LBK_LANE_CTRL_INV (L : Nat) : Fld := ⟨(LBK_LANE_CTRL L), 12, 1⟩
def LBK_LANE_CTRL_CHK_PAT (L : Nat) : Fld := ⟨(LBK_LANE_CTRL L), 8, 3⟩
def LBK_LANE_CTRL_GEN_PAT (L : Nat) : Fld := ⟨(LBK_LANE_CTRL L), 4, 3⟩
def LBK_LANE_CTRL_DEPTH (L : Nat) : Fld := ⟨(LBK_LANE_CTRL L), 0, 3⟩
def LBK_LANE_STAT (L : Nat) : Nat := 0x1101004 + 0x10 * L
def LBK_LANE_STAT_v (L : Nat) : Fld := ⟨(LBK_LANE_STAT L), 0, 1⟩
def LBK_LANE_ERR (L : Nat) : Nat := 0x1101008 + 0x10 * L
def LBK_DRV_RES (ch : Nat) : Nat := 0x1102000 + 4 * ch
def LBK_DRV_RES_SHORT (ch : Nat) : Fld := ⟨(LBK_DRV_RES ch), 20, 10⟩
def LBK_DRV_RES_OPEN (ch : Nat) : Fld := ⟨(LBK_DRV_RES ch), 10, 10⟩
def LBK_DRV_RES_OK (ch : Nat) : Fld := ⟨(LBK_DRV_RES ch), 0, 10⟩
def LBK_DMX_ERR (n : Nat) : Nat := 0x1103000 + 4 * n
def SHU_CTRL : Nat := 0x1300004
def SHU_CTRL_GO_CUE : Fld := ⟨SHU_CTRL, 16, 16⟩
def SHU_CTRL_BLACKOUT : Fld := ⟨SHU_CTRL, 2, 1⟩
def SHU_CTRL_STOP : Fld := ⟨SHU_CTRL, 1, 1⟩
def SHU_CTRL_GO : Fld := ⟨SHU_CTRL, 0, 1⟩
def SHU_STATUS : Nat := 0x1300008
def SHU_STATUS_LATE : Fld := ⟨SHU_STATUS, 16, 16⟩
def SHU_STATUS_CFG_BAD : Fld := ⟨SHU_STATUS, 5, 1⟩
def SHU_STATUS_LIST_BAD : Fld := ⟨SHU_STATUS, 4, 1⟩
def SHU_STATUS_FEED_ALARM : Fld := ⟨SHU_STATUS, 3, 1⟩
def SHU_STATUS_FAULT : Fld := ⟨SHU_STATUS, 2, 1⟩
def SHU_STATUS_LOOP : Fld := ⟨SHU_STATUS, 1, 1⟩
def SHU_STATUS_PLAYING : Fld := ⟨SHU_STATUS, 0, 1⟩
def TB_SNAP_FRAC : Nat := 0x300030
def TB_SNAP_NS : Nat := 0x300034
def TB_SNAP_SEC_LO : Nat := 0x300038
def TB_SNAP_SEC_HI : Nat := 0x30003C
def MTR_FEED_CFG (f : Nat) : Nat := 0xB01000 + 0x400 * f
def MTR_FEED_CFG_EN (f : Nat) : Fld := ⟨(MTR_FEED_CFG f), 31, 1⟩
def MTR_FEED_CFG_CLK_DIR (f : Nat) : Fld := ⟨(MTR_FEED_CFG f), 30, 1⟩
def MTR_FEED_CFG_EDGE (f : Nat) : Fld := ⟨(MTR_FEED_CFG f), 29, 1⟩
def MTR_FEED_CFG_LATCH_EVT (f : Nat) : Fld := ⟨(MTR_FEED_CFG f), 28, 1⟩
def MTR_FEED_CFG_SEQ_ACB (f : Nat) : Fld := ⟨(MTR_FEED_CFG f), 27, 1⟩
def MTR_FEED_CFG_FNOM (f : Nat) : Fld := ⟨(MTR_FEED_CFG f), 26, 1⟩
def MTR_FEED_CFG_CH_EN (f : Nat) : Fld := ⟨(MTR_FEED_CFG f), 19, 7⟩
def MTR_FEED_CFG_CLK_DIV (f : Nat) : Fld := ⟨(MTR_FEED_CFG f), 9, 6⟩
def MTR_FEED_CFG_OSR (f : Nat) : Fld := ⟨(MTR_FEED_CFG f), 0, 9⟩
def MTR_LATCH_CYC (f : Nat) : Nat := 0xB01004 + 0x400 * f
def MTR_LATCH_CYC_v (f : Nat) : Fld := ⟨(MTR_LATCH_CYC f), 0, 13⟩
def MTR_FEED_STAT (f : Nat) : Nat := 0xB01008 + 0x400 * f
def MTR_FEED_STAT_RUN (f : Nat) : Fld := ⟨(MTR_FEED_STAT f), 31, 1⟩
def MTR_FEED_STAT_CLK_LOST (f : Nat) : Fld := ⟨(MTR_FEED_STAT f), 30, 1⟩
def MTR_FEED_STAT_SEQ_BAD (f : Nat) : Fld := ⟨(MTR_FEED_STAT f), 29, 1⟩
def MTR_FEED_STAT_NEU_LOST (f : Nat) : Fld := ⟨(MTR_FEED_STAT f), 28, 1⟩
def MTR_FEED_STAT_SYNTH (f : Nat) : Fld := ⟨(MTR_FEED_STAT f), 27, 1⟩
def MTR_FEED_STAT_REF (f : Nat) : Fld := ⟨(MTR_FEED_STAT f), 25, 2⟩
def MTR_FEED_STAT_CLIP (f : Nat) : Fld := ⟨(MTR_FEED_STAT f), 0, 7⟩
def MTR_LATCH_CNT (f : Nat) : Nat := 0xB01010 + 0x400 * f
def MTR_LATCH_NS (f : Nat) : Nat := 0xB01018 + 0x400 * f
def MTR_LATCH_SEC_LO (f : Nat) : Nat := 0xB0101C + 0x400 * f
def MTR_LATCH_SEC_HI (f : Nat) : Nat := 0xB01020 + 0x400 * f
def MTR_IN_RMS (f : Nat) : Nat := 0xB01024 + 0x400 * f
def MTR_SYNTH_CNT (f : Nat) : Nat := 0xB01028 + 0x400 * f
def MTR_PH_V (f : Nat) (p : Nat) : Nat := 0xB01040 + 0x400 * f + 0x20 * p
def MTR_PH_I (f : Nat) (p : Nat) : Nat := 0xB01044 + 0x400 * f + 0x20 * p
def MTR_PH_P (f : Nat) (p : Nat) : Nat := 0xB01048 + 0x400 * f + 0x20 * p
def MTR_PH_Q (f : Nat) (p : Nat) : Nat := 0xB0104C + 0x400 * f + 0x20 * p
def MTR_PH_S (f : Nat) (p : Nat) : Nat := 0xB01050 + 0x400 * f + 0x20 * p
def MTR_PH_PF (f : Nat) (p : Nat) : Nat := 0xB01054 + 0x400 * f + 0x20 * p
def MTR_PH_PF_v (f : Nat) (p : Nat) : Fld := ⟨(MTR_PH_PF f p), 0, 16⟩
def MTR_PH_F (f : Nat) (p : Nat) : Nat := 0xB01058 + 0x400 * f + 0x20 * p
def MTR_TICK_I (f : Nat) (c : Nat) : Nat := 0xB010C0 + 0x400 * f + 4 * c
def MTR_TICK_V (f : Nat) (p : Nat) : Nat := 0xB010D0 + 0x400 * f + 4 * p
def MTR_PH_E (f : Nat) (p : Nat) (a : Nat) : Nat := 0xB01100 + 0x400 * f + 0x30 * p + 8 * a
def MTR_PH_E_VALUE (f : Nat) (p : Nat) (a : Nat) : Fld := ⟨(MTR_PH_E f p a), 0, 32⟩
def MTR_PH_E_WRAP (f : Nat) (p : Nat) (a : Nat) : Fld := ⟨(MTR_PH_E f p a + 4), 0, 4⟩
def MTR_PH_E_LATCH_LO (f : Nat) (p : Nat) (a : Nat) : Fld := ⟨(MTR_PH_E f p a + 4), 16, 16⟩
def MTR_FEED_E (f : Nat) (a : Nat) : Nat := 0xB01200 + 0x400 * f + 8 * a
def SHU_ID : Nat := 0x1300000
def SHU_MASTER : Nat := 0x130000C
def SHU_MASTER_v : Fld := ⟨SHU_MASTER, 0, 16⟩
def SHU_CUE : Nat := 0x1300010
def SHU_CH (ch : Nat) : Nat := 0x1300040 + 4 * ch
def SHU_CH_DRIVE (ch : Nat) : Fld := ⟨(SHU_CH ch), 16, 16⟩
def SHU_CH_STATE (ch : Nat) : Fld := ⟨(SHU_CH ch), 0, 3⟩
def SHU_E (f : Nat) (p : Nat) : Nat := 0x1300100 + 0xC * f + 4 * p
def SHU_EVT (w : Nat) : Nat := 0x1300140 + 4 * w
def SHU_REINST (i : Nat) : Nat := 0x1300180 + 4 * i
def SHU_DEVID : Nat := 0x13003FC

/-- The registers of the 1 MiB block at 0 of BAR0. -/
def regBlock0 : List RegDesc := [
  ⟨GLB_DEVID, [], [{ reset := 0x5A4A5120 }]⟩,
  ⟨GLB_REVID, [], [{ reset := 0x21 }]⟩,
  ⟨GLB_CAP0, [], [{ reset := 0x1001400 }]⟩,
  ⟨GLB_CAP1, [], [{ reset := 0x8100400 }]⟩,
  ⟨GLB_CAP2, [], [{ reset := 0x30101248 }]⟩,
  ⟨GLB_CAP3, [], [{ reset := 0x40082010 }]⟩,
  ⟨GLB_CAP4, [], [{ reset := 0x43401000 }]⟩,
  ⟨GLB_CAP5, [], [{ reset := 0x40065000 }]⟩,
  ⟨GLB_BOOT, [], [{}]⟩,
  ⟨GLB_LOCK, [], [{}]⟩,
  ⟨GLB_STATUS, [], [{ w1c := 3 }]⟩,
  ⟨GLB_DEVREG_BASE, [], [{}, {}]⟩,
  ⟨GLB_PWR_REQ, [], [{ rw := 0x2F80, reset := 0x3FFF }]⟩,
  ⟨GLB_PWR_STAT, [], [{ w1c := 0x30000 }]⟩,
  ⟨GLB_DOM_RST, [], [{ wo := 0x2C00 }]⟩,
  ⟨GLB_RST_CAUSE, [], [{}]⟩,
  ⟨GLB_CLK_STAT, [], [{ w1c := 0x30000 }]⟩]

/-- The registers of the 1 MiB block at 0x100000 of BAR0. -/
def regBlock1 : List RegDesc := [
  ⟨BRD_STATUS, [], [{}]⟩,
  ⟨BRD_MASK 0, [(4, 8)], [{}]⟩,
  ⟨BRD_PORT_DENY, [], [{}, {}]⟩,
  ⟨BRD_DENY_CNT, [], [{ cor := 0xFFFFFFFF }]⟩,
  ⟨BRD_DENY_LAST, [], [{}]⟩]

/-- The registers of the 1 MiB block at 0x200000 of BAR0. -/
def regBlock2 : List RegDesc := [
  ⟨HIF_STATUS, [], [{ w1c := 6 }]⟩,
  ⟨HIF_ERR_VEC, [], [{ rw := 0x3F }]⟩,
  ⟨HIF_SVC_REQ, [], [{ wo := 1 }]⟩,
  ⟨HIF_SQ_BASE 0, [(0x20, 32)], [{ rw := 0xFFFFF000 }, { rw := 0xFFFFFFFF }]⟩,
  ⟨HIF_SQ_SIZE 0, [(0x20, 32)], [{ rw := 0x1F, reset := 6 }]⟩,
  ⟨HIF_SQ_CTRL 0, [(0x20, 32)], [{ rw := 0x71F07 }]⟩,
  ⟨HIF_SQ_HEAD 0, [(0x20, 32)], [{}]⟩,
  ⟨HIF_SQ_TAIL 0, [(0x20, 32)], [{}]⟩,
  ⟨HIF_SQ_STAT 0, [(0x20, 32)], [{ cor := 0xFFFF0000, reset := 1 }]⟩,
  ⟨HIF_CQ_BASE 0, [(0x20, 32)], [{ rw := 0xFFFFF000 }, { rw := 0xFFFFFFFF }]⟩,
  ⟨HIF_CQ_SIZE 0, [(0x20, 32)], [{ rw := 0x1F, reset := 6 }]⟩,
  ⟨HIF_CQ_CTRL 0, [(0x20, 32)], [{ rw := 0xFFFF3F01, reset := 0x8010000 }]⟩,
  ⟨HIF_CQ_TAIL 0, [(0x20, 32)], [{}]⟩,
  ⟨HIF_CQ_HEAD 0, [(0x20, 32)], [{}]⟩,
  ⟨HIF_CQ_STAT 0, [(0x20, 32)], [{ cor := 0xFFFF0000, reset := 1 }]⟩,
  ⟨HIF_EQ_BASE 0, [(0x20, 8)], [{ rw := 0xFFFFF000 }, { rw := 0xFFFFFFFF }]⟩,
  ⟨HIF_EQ_SIZE 0, [(0x20, 8)], [{ rw := 0x1F, reset := 6 }]⟩,
  ⟨HIF_EQ_CTRL 0, [(0x20, 8)], [{ rw := 0xFFFF3F01, reset := 0x8010000 }]⟩,
  ⟨HIF_EQ_TAIL 0, [(0x20, 8)], [{}]⟩,
  ⟨HIF_EQ_HEAD 0, [(0x20, 8)], [{}]⟩,
  ⟨HIF_EQ_STAT 0, [(0x20, 8)], [{ cor := 0xFFFF0000, reset := 1 }]⟩,
  ⟨HIF_FENCE_STAT, [], [{ w1c := 1, cor := 0xFFFF0000 }]⟩,
  ⟨HIF_SQ_FTMO 0, [(0x20, 32)], [{ rw := 0xFFFFFF, reset := 0x3E8 }]⟩,
  ⟨HIF_FBIND 0, [(4, 22)], [{ rw := 0x80000FFF }]⟩,
  ⟨HIF_FENCE_VAL 0, [(8, 4096)], [{}, {}]⟩]

/-- The registers of the 1 MiB block at 0x300000 of BAR0. -/
def regBlock3 : List RegDesc := [
  ⟨TB_CTRL, [], [{ rw := 0x1B, wo := 4 }]⟩,
  ⟨TB_STATUS, [], [{ w1c := 0x7CE0 }]⟩,
  ⟨TB_INCR, [], [{ rws := 0xFFFFFFFF }, { rws := 0xFF, reset := 5 }]⟩,
  ⟨TB_ADJ_NS, [], [{ wo := 0xFFFFFFFF }]⟩,
  ⟨TB_ADJ_PEND, [], [{}]⟩,
  ⟨TB_SLEW, [], [{ rw := 0x1FF, reset := 0x64 }]⟩,
  ⟨TB_STEP, [], [{ wo := 0xFFFFFFFF }, { wo := 0xFFFFFFFF }]⟩,
  ⟨TB_SNAP_CTRL, [], [{ wo := 1 }]⟩,
  ⟨TB_PTP_CFG, [], [{ rw := 0xFFFFFFC3, reset := 0xF00CC0 }]⟩,
  ⟨TB_PTP_INTV, [], [{ rw := 0xFFFFFF, reset := 0x100 }]⟩,
  ⟨TB_GM_ID, [], [{}, {}]⟩,
  ⟨TB_HO_TIME, [], [{}]⟩,
  ⟨TB_PPS_CTRL, [], [{ rw := 0xFFFFF07, reset := 0x3E800 }]⟩,
  ⟨TB_PPS_OUT_OFS, [], [{ rw := 0xFFFFFFFF }]⟩,
  ⟨TB_PPS_IN_NS, [], [{}]⟩,
  ⟨TB_PPS_IN_SEC_LO, [], [{}]⟩,
  ⟨TB_PPS_IN_SEC_HI, [], [{}]⟩,
  ⟨TB_SNAP_FRAC, [], [{}]⟩,
  ⟨TB_SNAP_NS, [], [{}]⟩,
  ⟨TB_SNAP_SEC_LO, [], [{}]⟩,
  ⟨TB_SNAP_SEC_HI, [], [{}]⟩]

/-- The registers of the 1 MiB block at 0x400000 of BAR0. -/
def regBlock4 : List RegDesc := [
  ⟨TK_CTRL, [], [{ rw := 0x71, reset := 0x20 }]⟩,
  ⟨TK_STATUS, [], [{ w1c := 0x78 }]⟩,
  ⟨TK_STAGED, [], [{}]⟩,
  ⟨TK_PERIOD_NS, [], [{ rw := 0x7FFFFFF, reset := 0x4C4B40 }]⟩,
  ⟨TK_PERIOD_FRAC, [], [{ rw := 0xFFFFFFFF }]⟩,
  ⟨TK_PHASE_NS, [], [{ rw := 0x7FFFFFF }]⟩,
  ⟨TK_TICK_NO, [], [{}, {}]⟩,
  ⟨TK_BOUND_FRAC, [], [{}]⟩,
  ⟨TK_BOUND_NS, [], [{}]⟩,
  ⟨TK_BOUND_SEC_LO, [], [{}]⟩,
  ⟨TK_BOUND_SEC_HI, [], [{}]⟩,
  ⟨TK_PHASES, [], [{ rwt := 0x3FF03FF, reset := 0x3B60320 }]⟩,
  ⟨TK_REL_GUARD, [], [{ rwt := 0x3FFFF, reset := 0xC350 }]⟩,
  ⟨TK_COLL_OFS, [], [{ rwt := 0xFFFFF, reset := 0x4E20 }]⟩,
  ⟨TK_GAIT, [], [{ rw := 0xFFFF }]⟩,
  ⟨TK_OVR_LIMIT, [], [{ rw := 0xFF, reset := 8 }]⟩,
  ⟨TK_OVR_CNT, [], [{ cor := 0xFFFFFFFF }]⟩,
  ⟨TK_OVR_SEG, [], [{ cor := 0xFFFFFFFF }]⟩,
  ⟨TK_OVR_LAST, [], [{}, {}]⟩,
  ⟨TK_CHG_TICK, [], [{}, {}]⟩,
  ⟨TK_REALIGN_NS, [], [{}]⟩,
  ⟨TK_TEAM_STAT 0, [(4, 16)], [{ cor := 0xFFFFFFFF }]⟩]

/-- The registers of the 1 MiB block at 0x500000 of BAR0. -/
def regBlock5 : List RegDesc := [
  ⟨FE_LEASE_CTRL, [], [{ rw := 1 }]⟩,
  ⟨FE_LEASE_VIOL, [], [{ cor := 0xFFFFFFFF }]⟩,
  ⟨FE_LAYER_GEN 0, [(4, 1024)], [{}]⟩,
  ⟨FE_XFER_CTRL, [], [{ rw := 0xFFFF, reset := 0x3E8 }]⟩,
  ⟨FE_LYR_DRAM_BASE, [], [{ rwl := 0xFFE00000 }, { rwl := 0xFFFFFFFF }]⟩,
  ⟨FE_LYR_DRAM_SIZE, [], [{ rwl := 0xFFE00000 }, { rwl := 0xFFFFFFFF }]⟩,
  ⟨FE_LYR_DRAM_FREE, [], [{}, {}]⟩,
  ⟨FE_STRM_CTRL 0, [(0x40, 16)], [{ rw := 0x7F, reset := 0x10 }]⟩,
  ⟨FE_STRM_FMT 0, [(0x40, 16)], [{ rw := 0xFF3, reset := 0x10 }]⟩,
  ⟨FE_STRM_SIZE 0, [(0x40, 16)], [{ rw := 0xFFFFFFFF, reset := 0x4380780 }]⟩,
  ⟨FE_STRM_UDP 0, [(0x40, 16)], [{ rw := 0x7FFFFF, reset := 0x60138C }]⟩,
  ⟨FE_STRM_DST 0 0, [(0x40, 16), (4, 4)], [{ rw := 0xFFFFFFFF }]⟩,
  ⟨FE_STRM_SRC 0, [(0x40, 16)], [{ rw := 0xFFFFFFFF }]⟩,
  ⟨FE_STRM_LAT 0, [(0x40, 16)], [{ rw := 0xFFFFF, reset := 0x61A8 }]⟩,
  ⟨FE_STRM_SKEW 0, [(0x40, 16)], [{ rw := 0x3FFF, reset := 0x7D0 }]⟩,
  ⟨FE_STRM_STAT 0, [(0x40, 16)], [{ w1c := 8 }]⟩,
  ⟨FE_STRM_PKT_LOST 0, [(0x40, 16)], [{ cor := 0xFFFFFFFF }]⟩,
  ⟨FE_STRM_PATH_LOST 0, [(0x40, 16)], [{ cor := 0xFFFFFFFF }]⟩,
  ⟨FE_STRM_LINE_REP 0, [(0x40, 16)], [{ cor := 0xFFFFFFFF }]⟩,
  ⟨FE_SACN_CTRL, [], [{ rw := 0x1F }]⟩,
  ⟨FE_CUE_CTRL, [], [{ rw := 0xFFFFF, reset := 0xA26D }]⟩,
  ⟨FE_CUE_DROP, [], [{ cor := 0xFFFFFFFF }]⟩,
  ⟨FE_DIVERGE, [], [{ cor := 0xFFFFFFFF }]⟩,
  ⟨FE_REP_MISM, [], [{ cor := 0xFFFFFFFF }]⟩,
  ⟨FE_MAP_DRAM_BASE, [], [{ rwl := 0xFFE00000 }, { rwl := 0xFFFFFFFF }]⟩,
  ⟨FE_MAP_DRAM_SIZE, [], [{ rwl := 0xFFE00000 }, { rwl := 0xFFFFFFFF }]⟩,
  ⟨FE_MAP_DRAM_FREE, [], [{}, {}]⟩,
  ⟨FE_SEG_COUNT, [], [{}]⟩,
  ⟨FE_COMP_USED, [], [{}]⟩,
  ⟨FE_CMP_COST, [], [{}, {}]⟩,
  ⟨FE_CMP_TIME, [], [{}]⟩,
  ⟨FE_STALL_NS, [], [{}]⟩,
  ⟨FE_CMP_BYTES, [], [{}, {}]⟩,
  ⟨FE_TC_MISS, [], [{}]⟩,
  ⟨FE_TC_HOST, [], [{}]⟩,
  ⟨FE_MAP_ABSENT, [], [{}]⟩,
  ⟨FE_FILL, [], [{}]⟩,
  ⟨FE_MAP_DRAM_LARGEST, [], [{}, {}]⟩,
  ⟨FE_CLR_TEMP_DEF, [], [{ rwt := 0xFFFF, reset := 0x1900 }]⟩,
  ⟨FE_CLR_TEMP_STALE, [], [{ rwt := 0xFFFF, reset := 0x3C }]⟩,
  ⟨FE_CLR_TRIM_CTRL, [], [{ rwt := 0x1FF, reset := 1 }]⟩,
  ⟨FE_CLR_CLIP, [], [{}]⟩,
  ⟨FE_CLR_STALE, [], [{}]⟩,
  ⟨FE_CUE_PEND, [], [{}]⟩]

/-- The registers of the 1 MiB block at 0x600000 of BAR0. -/
def regBlock6 : List RegDesc := [
  ⟨CRB_CTRL, [], [{ rwt := 3, wo := 4, reset := 2 }]⟩,
  ⟨CRB_CORR_TAU, [], [{ rwt := 0xFFFF, reset := 0x32 }]⟩,
  ⟨CRB_CORR_MAX, [], [{ rwt := 0xFFFFF, reset := 0xC350 }]⟩,
  ⟨CRB_RISE, [], [{ rwt := 0x1FFFF, reset := 0x28F }]⟩,
  ⟨CRB_STATUS, [], [{}]⟩,
  ⟨CRB_UNMET_CNT, [], [{ cor := 0xFFFFFFFF }]⟩,
  ⟨CRB_GLB_PRED, [], [{}]⟩,
  ⟨CRB_FP_PRED 0, [(4, 64)], [{}]⟩,
  ⟨CRB_FP_CORR 0, [(4, 64)], [{}]⟩,
  ⟨CRB_FP_VOLT 0, [(4, 64)], [{}]⟩,
  ⟨CRB_FP_SCALE 0 0, [(0x10, 64), (4, 4)], [{ reset := 0x10000 }]⟩,
  ⟨CRB_TEAM_PRED 0, [(4, 16)], [{}]⟩,
  ⟨CRB_TEAM_SCALE 0 0, [(0x10, 16), (4, 4)], [{ reset := 0x10000 }]⟩,
  ⟨CRB_GLB_SCALE 0, [(4, 4)], [{ reset := 0x10000 }]⟩]

/-- The registers of the 1 MiB block at 0x700000 of BAR0. -/
def regBlock7 : List RegDesc := [
  ⟨TM_STATUS, [], [{ w1c := 0x30000 }]⟩,
  ⟨TM_TEAM_RST, [], [{ rw := 0xFFFFFFFF }, { rw := 0xFFFFFFFF }]⟩,
  ⟨TM_PORT_CFG 0, [(0x40, 8)], [{ rw := 0xF3 }]⟩,
  ⟨TM_PORT_EP_FIRST 0, [(0x40, 8)], [{ rw := 0x7FFFFF }]⟩,
  ⟨TM_PORT_EP_COUNT 0, [(0x40, 8)], [{ rw := 0x7FFFFF }]⟩,
  ⟨TM_PORT_WM 0, [(0x40, 8)], [{ rw := 0xFFFF, reset := 0x2060 }]⟩,
  ⟨TM_PORT_OVH 0, [(0x40, 8)], [{}]⟩,
  ⟨TM_PORT_STAT 0, [(0x40, 8)], [{ cor := 0xFFFFFFFF }]⟩,
  ⟨TM_PORT_STARVE 0, [(0x40, 8)], [{ cor := 0xFFFFFFFF }]⟩,
  ⟨TM_PORT_URG 0, [(0x40, 8)], [{ cor := 0xFFFF0000 }]⟩,
  ⟨TM_PORT_CBR_MAX 0, [(0x40, 8)], [{ cor := 0x3FFFF }]⟩,
  ⟨TM_PORT_DOWN_DISC 0, [(0x40, 8)], [{ cor := 0xFFFFFFFF }]⟩,
  ⟨TM_RST_H0 0, [(0x20, 16)], [{ rw := 0xFFFF, reset := 0x1003 }]⟩,
  ⟨TM_RST_H1 0, [(0x20, 16)], [{ rw := 0xFFF0FFF, reset := 0x200400 }]⟩,
  ⟨TM_RST_V0 0, [(0x20, 16)], [{ rw := 0xFF0F, reset := 0x401 }]⟩,
  ⟨TM_RST_V1 0, [(0x20, 16)], [{ rw := 0xFFFFFFFF, reset := 0x100400 }]⟩,
  ⟨TM_RST_EPL 0, [(0x20, 16)], [{ rw := 0x1FFF, reset := 0x400 }]⟩,
  ⟨TM_RST_VBLK 0, [(0x20, 16)], [{ rw := 0xFFFFFFFF, reset := 0x12C0014 }]⟩,
  ⟨TM_FRZ_CTRL 0, [(0x40, 16)], [{ rwt := 0xFF01, reset := 0xC01 }]⟩,
  ⟨TM_FRZ_SRC 0 0, [(0x40, 16), (4, 4)], [{ rwt := 0x800003FF }]⟩,
  ⟨TM_FRZ_CNT 0, [(0x40, 16)], [{}]⟩,
  ⟨TM_FRZ_SIG 0, [(0x40, 16)], [{}, {}]⟩,
  ⟨TM_TRC_CFG, [], [{ rwl := 0xFFFFFFFF, reset := 0xA26C88B5 }]⟩,
  ⟨TM_TRC_MTU, [], [{ rwl := 0x3FFF, reset := 0x2328 }]⟩,
  ⟨TM_TRC_UNIT, [], [{ rwl := 1 }]⟩,
  ⟨TM_TRC_HOLD, [], [{ rwt := 0x3FFFF, reset := 4 }]⟩,
  ⟨TM_TRC_PLAN_INTV, [], [{ rwt := 0xFFFF, reset := 0xC8 }]⟩,
  ⟨TM_TRC_CMD, [], [{ rw := 0xFFFFFF, reset := 0x400314 }]⟩,
  ⟨TM_TRC_STAT, [], [{ cor := 0xFFFFFFFF }]⟩,
  ⟨TM_TRC_SPLIT, [], [{}]⟩,
  ⟨TM_TRC_NODE_SEL, [], [{ rw := 0x3FFFF }]⟩,
  ⟨TM_TRC_NODE_INFO, [], [{ reset := 0x20000000 }]⟩,
  ⟨TM_TRC_LOC_GEN 0, [(4, 8)], [{}]⟩,
  ⟨TM_TRC_PORT 0, [(0x20, 8)], [{ rw := 0xFFFF0033 }]⟩,
  ⟨TM_TRC_DMAC 0, [(0x20, 8)], [{ rw := 0xFFFFFFFF, reset := 0xFFFFFFFF }, { rw := 0xFFFF, reset := 0xFFFF }]⟩,
  ⟨TM_TRC_DIP 0 0, [(0x20, 8), (4, 4)], [{ rw := 0xFFFFFFFF }]⟩,
  ⟨TM_SACN_CFG 0, [(0x20, 8)], [{ rw := 0xFFFFFF03, reset := 0x16400 }]⟩,
  ⟨TM_SACN_SYNC 0, [(0x20, 8)], [{ rw := 0xFFFF }]⟩,
  ⟨TM_SACN_CID 0, [(4, 4)], [{ rwl := 0xFFFFFFFF }]⟩]

/-- The registers of the 1 MiB block at 0x800000 of BAR0. -/
def regBlock8 : List RegDesc := [
  ⟨TDM_CTRL, [], [{ rw := 7 }]⟩,
  ⟨TDM_STATUS, [], [{}]⟩,
  ⟨TDM_STATE, [], [{}]⟩,
  ⟨TDM_EPOCH, [], [{}]⟩,
  ⟨TDM_HOLD, [], [{ rwt := 0xFF, reset := 0x18 }]⟩,
  ⟨TDM_SEARCH_MS, [], [{ rw := 0xFFFF, reset := 0x7D0 }]⟩,
  ⟨TDM_LR_TMO, [], [{ rwt := 0x3FF, reset := 0x64 }]⟩,
  ⟨TDM_DIV_LIMIT, [], [{ rwt := 0xFF, reset := 3 }]⟩,
  ⟨TDM_TOFS, [], [{}]⟩,
  ⟨TDM_TOFS_MAX, [], [{ rw := 0xFFFF, reset := 0x3E8 }]⟩,
  ⟨TDM_CFG, [], [{ rwl := 0xFFFF, reset := 0x88B6 }]⟩,
  ⟨TDM_VER, [], [{}]⟩,
  ⟨TDM_PVER, [], [{}]⟩,
  ⟨TDM_JRN_LAST, [], [{}, {}]⟩,
  ⟨TDM_SWAP_PER, [], [{ reset := 0x15180 }]⟩,
  ⟨TDM_SWAP_NEXT, [], [{}, {}]⟩,
  ⟨TDM_MISM, [], [{ cor := 0xFFFFFFFF }]⟩,
  ⟨TDM_UNCHK, [], [{ cor := 0xFFFFFFFF }]⟩,
  ⟨TDM_ARB_SKIP, [], [{ cor := 0xFFFFFFFF }]⟩,
  ⟨TDM_RS_BYTES, [], [{}, {}]⟩]

/-- The registers of the 1 MiB block at 0x900000 of BAR0. -/
def regBlock9 : List RegDesc := [
  ⟨TLM_HERD_WIN, [], [{ rwt := 0xFF, reset := 8 }]⟩,
  ⟨TLM_SILENT_MS, [], [{ rwt := 0xFFFF, reset := 0xBB8 }]⟩,
  ⟨TLM_ROUTE0, [], [{ rw := 0xFFFFFFFF }]⟩,
  ⟨TLM_ROUTE1, [], [{ rw := 0xFFFFFFFF, reset := 0x2100 }]⟩,
  ⟨TLM_STATUS, [], [{ w1c := 1 }]⟩,
  ⟨TLM_RX_STAT, [], [{ cor := 0xFFFFFFFF }]⟩,
  ⟨TLM_HERD_OPEN, [], [{}]⟩,
  ⟨TLM_HERD_FULL, [], [{ cor := 0xFFFFFFFF }]⟩,
  ⟨TLM_NODE_LOCMISS, [], [{ cor := 0xFFFFFFFF }]⟩,
  ⟨TLM_NODE_HELD, [], [{ cor := 0xFFFFFFFF }]⟩,
  ⟨TLM_NODE_REJECT, [], [{ cor := 0xFFFFFFFF }]⟩,
  ⟨TLM_ZONE_BAD, [], [{ cor := 0xFFFFFFFF }]⟩,
  ⟨TLM_EQ_RD 0 0, [(0x40, 8), (4, 8)], [{}]⟩,
  ⟨TLM_EQ_FILL 0, [(0x40, 8)], [{}]⟩,
  ⟨TLM_EQ_LOST 0, [(0x40, 8)], [{ cor := 0xFFFFFFFF }]⟩,
  ⟨TLM_EQ_DROP 0, [(0x40, 8)], [{ cor := 0xFFFFFFFF }]⟩,
  ⟨TLM_EQ_GAP 0, [(0x40, 8)], [{}]⟩,
  ⟨TLM_PRES_CTRL, [], [{ rwt := 0x800003FF }]⟩,
  ⟨TLM_ZONE_SEL, [], [{ rw := 0xFFF }]⟩,
  ⟨TLM_ZONE_PED, [], [{}]⟩,
  ⟨TLM_ZONE_CYC, [], [{}]⟩,
  ⟨TLM_ZONE_VEH, [], [{}]⟩,
  ⟨TLM_ZONE_STATE, [], [{ reset := 0xFFFF0000 }]⟩,
  ⟨TLM_ZONE_ACT, [], [{}]⟩,
  ⟨TLM_PRES_RULE_A 1, [(0x20, 63)], [{ rwt := 0xFFFFFFFF }]⟩,
  ⟨TLM_PRES_RULE_B 1, [(0x20, 63)], [{ rwt := 0xFFFFFFFF, reset := 0xFFFFFFFF }]⟩,
  ⟨TLM_PRES_RULE_C 1, [(0x20, 63)], [{ rwt := 0xFFFFFFFF }]⟩,
  ⟨TLM_PRES_RULE_D 1, [(0x20, 63)], [{ rwt := 0x8FFFFFFF, reset := 0x1110BB8 }]⟩,
  ⟨TLM_PRES_RULE_E 1, [(0x20, 63)], [{ rwt := 0xFFFF, reset := 1 }]⟩,
  ⟨TLM_ZONE_MAP 0, [(4, 1024)], [{ rwt := 0x3F3F3F3F }]⟩]

/-- The registers of the 1 MiB block at 0xA00000 of BAR0. -/
def regBlock10 : List RegDesc := [
  ⟨DRV_CTRL, [], [{ rwt := 1 }]⟩,
  ⟨DRV_RETIRED, [], [{}, {}]⟩,
  ⟨DRV_RET_NODE, [], [{}]⟩,
  ⟨DRV_RET_EP, [], [{}]⟩,
  ⟨DRV_DEBT_FORGIVE, [], [{ cor := 0xFFFFFFFF }]⟩,
  ⟨DRV_FEED_PER_NS 0, [(8, 16)], [{ rwt := 0xFFFFF, reset := 0x43D11 }]⟩,
  ⟨DRV_FEED_PER_FRAC 0, [(8, 16)], [{ rwt := 0xFFFF, reset := 0xC71C }]⟩,
  ⟨DRV_CH_CFG 0, [(0x20, 48)], [{}]⟩,
  ⟨DRV_CH_DIAG 0, [(0x20, 48)], [{ reset := 0xFFC00103 }]⟩,
  ⟨DRV_CH_DIAG2 0, [(0x20, 48)], [{ reset := 0x400A00 }]⟩,
  ⟨DRV_CH_STAT 0, [(0x20, 48)], [{}]⟩,
  ⟨DRV_CH_ADC 0, [(0x20, 48)], [{}]⟩,
  ⟨DRV_CH_CNT 0, [(0x20, 48)], [{ cor := 0xFFFFFFFF }]⟩,
  ⟨DRV_CH_WAIT 0, [(0x20, 48)], [{}]⟩,
  ⟨PHP_WIN, [], [{ rwt := 0xFFFF, reset := 0x168 }]⟩,
  ⟨PHP_CORR_N, [], [{ rwt := 0xFF, reset := 4 }]⟩,
  ⟨PHP_VOID, [], [{ cor := 0xFFFFFFFF }]⟩,
  ⟨PHP_FEED_STAT 0, [(0x10, 16)], [{ reset := 2 }]⟩,
  ⟨PHP_FEED_TGT 0, [(0x10, 16)], [{}]⟩,
  ⟨PHP_FEED_PLAN 0, [(0x10, 16)], [{}]⟩,
  ⟨PHP_FEED_LAST 0, [(0x10, 16)], [{}]⟩,
  ⟨PHP_MEAS_MAG 0 0, [(0x20, 64), (0x10, 2)], [{}]⟩,
  ⟨PHP_MEAS_ANG 0 0, [(0x20, 64), (0x10, 2)], [{}]⟩,
  ⟨PHP_PRED_MAG 0 0, [(0x20, 64), (0x10, 2)], [{}]⟩,
  ⟨PHP_CORR_MAG 0 0, [(0x20, 64), (0x10, 2)], [{}]⟩]

/-- The registers of the 1 MiB block at 0xB00000 of BAR0. -/
def regBlock11 : List RegDesc := [
  ⟨MTR_SAVE_BASE, [], [{ rwl := 0xFFFFF000 }]⟩,
  ⟨MTR_SAVE_SECT, [], [{ rwl := 0x1FFF }]⟩,
  ⟨MTR_SAVE_INTV, [], [{ rwt := 0xFFF, reset := 0x3C }]⟩,
  ⟨MTR_SAVE_STAT, [], [{ cor := 0xFFFF0000 }]⟩,
  ⟨MTR_SAVE_SEQ, [], [{}, {}]⟩,
  ⟨MTR_FEED_CFG 0, [(0x400, 16)], [{ reset := 0x3F81480 }]⟩,
  ⟨MTR_LATCH_CYC 0, [(0x400, 16)], [{ reset := 0x32 }]⟩,
  ⟨MTR_FEED_STAT 0, [(0x400, 16)], [{ w1c := 0x7F }]⟩,
  ⟨MTR_LATCH_CNT 0, [(0x400, 16)], [{}, {}]⟩,
  ⟨MTR_LATCH_NS 0, [(0x400, 16)], [{}]⟩,
  ⟨MTR_LATCH_SEC_LO 0, [(0x400, 16)], [{}]⟩,
  ⟨MTR_LATCH_SEC_HI 0, [(0x400, 16)], [{}]⟩,
  ⟨MTR_IN_RMS 0, [(0x400, 16)], [{}]⟩,
  ⟨MTR_SYNTH_CNT 0, [(0x400, 16)], [{ cor := 0xFFFFFFFF }]⟩,
  ⟨MTR_PH_V 0 0, [(0x400, 16), (0x20, 3)], [{}]⟩,
  ⟨MTR_PH_I 0 0, [(0x400, 16), (0x20, 3)], [{}]⟩,
  ⟨MTR_PH_P 0 0, [(0x400, 16), (0x20, 3)], [{}]⟩,
  ⟨MTR_PH_Q 0 0, [(0x400, 16), (0x20, 3)], [{}]⟩,
  ⟨MTR_PH_S 0 0, [(0x400, 16), (0x20, 3)], [{}]⟩,
  ⟨MTR_PH_PF 0 0, [(0x400, 16), (0x20, 3)], [{}]⟩,
  ⟨MTR_PH_F 0 0, [(0x400, 16), (0x20, 3)], [{}]⟩,
  ⟨MTR_TICK_I 0 0, [(0x400, 16), (4, 4)], [{}]⟩,
  ⟨MTR_TICK_V 0 0, [(0x400, 16), (4, 3)], [{}]⟩,
  ⟨MTR_PH_E 0 0 0, [(0x400, 16), (0x30, 3), (8, 6)], [{}, {}]⟩,
  ⟨MTR_FEED_E 0 0, [(0x400, 16), (8, 6)], [{}, {}]⟩]

/-- The registers of the 1 MiB block at 0xC00000 of BAR0. -/
def regBlock12 : List RegDesc := [
  ⟨FAR_STAT, [], [{ w1c := 2, cor := 0xFFFF0000 }]⟩,
  ⟨FAR_FT_PERIOD, [], [{ rw := 0xFFF, reset := 0x64 }]⟩,
  ⟨FAR_FT_HYST, [], [{ rw := 0xFFF, reset := 0x80 }]⟩,
  ⟨FAR_LEDGER_BASE, [], [{ rwl := 0xFFFFF000 }]⟩,
  ⟨FAR_LEDGER_SECT, [], [{ rwl := 0xFF }]⟩,
  ⟨FAR_TJ 0, [(4, 8)], [{}]⟩,
  ⟨FAR_SET_TEMP 0, [(4, 20)], [{}]⟩,
  ⟨FAR_SET_CNT 0, [(0x20, 20)], [{}]⟩,
  ⟨FAR_SET_TIME 0, [(0x20, 20)], [{}, {}]⟩,
  ⟨FAR_SET_NS 0, [(0x20, 20)], [{}]⟩,
  ⟨FAR_SET_REF 0, [(0x20, 20)], [{}, {}]⟩,
  ⟨FAR_CAP_CTRL, [], [{ rw := 0xFFFF0, wo := 3, reset := 0xFA00 }]⟩,
  ⟨FAR_CAP_REF, [], [{ rw := 0xFFFFFFFF }, { rw := 0xFFFFFFFF }]⟩,
  ⟨FAR_CAP_STAT, [], [{}]⟩,
  ⟨FAR_CAP_FREQ, [], [{}]⟩,
  ⟨FAR_CAP_RMS 0, [(4, 7)], [{}]⟩,
  ⟨FAR_CAP_ANG 0, [(4, 7)], [{}]⟩]

/-- The registers of the 1 MiB block at 0xD00000 of BAR0. -/
def regBlock13 : List RegDesc := [
  ⟨MEM_STATUS, [], [{ w1c := 6 }]⟩,
  ⟨MEM_SVC_REQ, [], [{ wo := 3 }]⟩,
  ⟨MEM_SCRUB_DRAM, [], [{ rw := 0xFFFFF, reset := 0x3840 }]⟩,
  ⟨MEM_SCRUB_SRAM, [], [{ rw := 0x1FFFF, reset := 0x258 }]⟩,
  ⟨MEM_SCRUB_POS, [], [{}]⟩,
  ⟨MEM_REPEAT_WIN, [], [{ rw := 0xFF, reset := 0x18 }]⟩,
  ⟨MEM_HDL_WDT, [], [{ rwl := 0xFFFF, reset := 0x2710 }]⟩,
  ⟨MEM_POISON_RD, [], [{ cor := 0xFFFFFFFF }]⟩,
  ⟨MEM_HELD_SEG, [], [{ cor := 0xFFFFFFFF }]⟩,
  ⟨MEM_RIDER_RST, [], [{}]⟩,
  ⟨MEM_FS_CAUSE, [], [{}]⟩,
  ⟨MEM_LOG_SEL, [], [{ rw := 0x3F }]⟩,
  ⟨MEM_LOG_COUNT, [], [{}]⟩,
  ⟨MEM_LOG_LOST, [], [{}]⟩,
  ⟨MEM_LOG_DATA 0, [(4, 12)], [{}]⟩,
  ⟨MEM_ECC_CE1 0, [(0x10, 9)], [{ cor := 0xFFFFFFFF }]⟩,
  ⟨MEM_ECC_CE2 0, [(0x10, 9)], [{ cor := 0xFFFFFFFF }]⟩,
  ⟨MEM_ECC_UE 0, [(0x10, 9)], [{ cor := 0xFFFFFFFF }]⟩,
  ⟨MEM_SPARE 0, [(0x10, 9)], [{}]⟩]

/-- The registers of the 1 MiB block at 0xE00000 of BAR0. -/
def regBlock14 : List RegDesc := [
  ⟨TKR_STAT, [], [{ w1c := 8 }]⟩,
  ⟨TKR_GROOM, [], [{ rw := 0x3FF, reset := 0xA }]⟩,
  ⟨TKR_GRACE, [], [{ rwl := 0x1FFFF, reset := 0xE10 }]⟩,
  ⟨TKR_KEY_LEAD, [], [{ rwl := 0xFF, reset := 0x10 }]⟩,
  ⟨TKR_CTR, [], [{}, {}]⟩,
  ⟨TKR_BOOTC, [], [{}]⟩,
  ⟨TKR_SESSION, [], [{}]⟩,
  ⟨TKR_NODE_MASTER, [], [{ rwl := 0x8000003F }]⟩,
  ⟨TKR_PAIR_SLOT, [], [{ rwl := 0x8000003F }]⟩,
  ⟨TKR_SLOT_SEL, [], [{ rw := 0x3F }]⟩,
  ⟨TKR_SLOT_INFO, [], [{ reset := 0xFF }]⟩,
  ⟨TKR_SLOT_GEN, [], [{}]⟩,
  ⟨TKR_SLOT_GRACE, [], [{}]⟩,
  ⟨TKR_ID_HASH 0, [(4, 12)], [{}]⟩,
  ⟨TKR_PORT_DOM 0, [(4, 8)], [{ rw := 0x8000003F }]⟩]

/-- The registers of the 1 MiB block at 0xF00000 of BAR0. -/
def regBlock15 : List RegDesc := [
  ⟨IMG_STATUS, [], [{}]⟩,
  ⟨IMG_TRIAL, [], [{ rwl := 0xFFFF, reset := 0x258 }]⟩,
  ⟨IMG_SLOT_STATE 0, [(0x20, 2)], [{}]⟩,
  ⟨IMG_SLOT_VER 0, [(0x20, 2)], [{}]⟩,
  ⟨IMG_SLOT_TOTAL 0, [(0x20, 2)], [{}]⟩,
  ⟨IMG_SLOT_MISSING 0, [(0x20, 2)], [{}]⟩,
  ⟨IMG_PEER, [], [{ rw := 0x11, wo := 0x300 }]⟩,
  ⟨IMG_PEER_STAT, [], [{}]⟩,
  ⟨IMG_MG_IP, [], [{ rws := 0xFFFFFFFF, reset := 0xC0A80A0A }]⟩,
  ⟨IMG_MG_PORT, [], [{ rws := 0xFFFF, reset := 0xA26E }]⟩,
  ⟨IMG_MIG, [], [{}]⟩,
  ⟨IMG_NODE_VER, [], [{}]⟩,
  ⟨IMG_RELAY_ID 0, [(8, 8)], [{}]⟩,
  ⟨IMG_RELAY_INFO 0, [(8, 8)], [{}]⟩]

/-- The registers of the 1 MiB block at 0x1000000 of BAR0. -/
def regBlock16 : List RegDesc := [
  ⟨ETH_PTP_CTRL 0, [(0x10000, 15)], [{ rw := 1 }]⟩,
  ⟨ETH_TS_CORR 0, [(0x10000, 15)], [{ rw := 0xFFFFFFFF }]⟩,
  ⟨ETH_TS_DROP 0, [(0x10000, 15)], [{ cor := 0xFFFFFFFF }]⟩]

/-- The registers of the 1 MiB block at 0x1100000 of BAR0. -/
def regBlock17 : List RegDesc := [
  ⟨LBK_STATUS, [], [{ w1c := 0xF }]⟩,
  ⟨LBK_PCIE, [], [{ rw := 3 }]⟩,
  ⟨LBK_DDR, [], [{ rw := 0x1B6DB }]⟩,
  ⟨LBK_DDR_ERR 0, [(4, 6)], [{ cor := 0xFFFFFFFF }]⟩,
  ⟨LBK_MPG_CTRL, [], [{ rw := 0xFFFF }]⟩,
  ⟨LBK_MPG_FREQ, [], [{ rw := 0x1FFFF, reset := 0xC350 }]⟩,
  ⟨LBK_MPG_AMP, [], [{ rw := 0xFFFFFFFF, reset := 0x80008000 }]⟩,
  ⟨LBK_MPG_LAG, [], [{ rw := 0xFFFF }]⟩,
  ⟨LBK_DRV_CTRL, [], [{ rw := 0x80000003 }]⟩,
  ⟨LBK_DRV_MASK, [], [{ rw := 0xFFFFFFFF }, { rw := 0xFFFF }]⟩,
  ⟨LBK_DRV_DUTY, [], [{ rw := 0xFFFF }]⟩,
  ⟨LBK_DMX, [], [{ rw := 0xFFFFFFFF }]⟩,
  ⟨LBK_LANE_CTRL 0, [(0x10, 23)], [{ rw := 0x1777 }]⟩,
  ⟨LBK_LANE_STAT 0, [(0x10, 23)], [{}]⟩,
  ⟨LBK_LANE_ERR 0, [(0x10, 23)], [{ cor := 0xFFFFFFFF }]⟩,
  ⟨LBK_DRV_RES 0, [(4, 48)], [{ cor := 0x3FFFFFFF }]⟩,
  ⟨LBK_DMX_ERR 0, [(4, 16)], [{ cor := 0xFFFFFFFF }]⟩]

/-- The registers of the 1 MiB block at 0x1200000 of BAR0. -/
def regBlock18 : List RegDesc := [
  ⟨DMX_CFG 0, [(0x20, 16)], [{ rw := 0x13 }]⟩,
  ⟨DMX_EP_FIRST 0, [(0x20, 16)], [{ rw := 0x7FFFFF }]⟩,
  ⟨DMX_EP_COUNT 0, [(0x20, 16)], [{ rw := 0x3FF }]⟩,
  ⟨DMX_TIMING 0, [(0x20, 16)], [{ rw := 0xFFFFFFFF, reset := 0xB00010 }]⟩,
  ⟨DMX_RDM 0, [(0x20, 16)], [{ rw := 0xF, reset := 2 }]⟩,
  ⟨DMX_STAT 0, [(0x20, 16)], [{ cor := 0xFFFF0000 }]⟩,
  ⟨DMX_UID, [], [{ rwl := 0xFFFFFFFF }, { rwl := 0xFFFF }]⟩]

/-- The registers of the 1 MiB block at 0x1300000 of BAR0. -/
def regBlock19 : List RegDesc := [
  ⟨SHU_CTRL, [], [{ rw := 0xFFFF0004, wo := 3 }]⟩,
  ⟨SHU_STATUS, [], [{ cor := 0xFFFF0000 }]⟩,
  ⟨SHU_ID, [], [{ reset := 0x53480040 }]⟩,
  ⟨SHU_MASTER, [], [{ rw := 0xFFFF, reset := 0xFFFF }]⟩,
  ⟨SHU_CUE, [], [{}]⟩,
  ⟨SHU_CH 0, [(4, 48)], [{}]⟩,
  ⟨SHU_E 0 0, [(0xC, 2), (4, 3)], [{}]⟩,
  ⟨SHU_EVT 0, [(4, 8)], [{}]⟩,
  ⟨SHU_REINST 0, [(4, 2)], [{ wo := 0xFFFFFFFF }]⟩,
  ⟨SHU_DEVID, [], [{ reset := 0x5A4A5120 }]⟩]

/-- The registers of block `b` (R10: a block that the table does not name holds none). -/
def regBlock (b : Nat) : List RegDesc :=
  match b with
  | 0 => regBlock0
  | 1 => regBlock1
  | 2 => regBlock2
  | 3 => regBlock3
  | 4 => regBlock4
  | 5 => regBlock5
  | 6 => regBlock6
  | 7 => regBlock7
  | 8 => regBlock8
  | 9 => regBlock9
  | 10 => regBlock10
  | 11 => regBlock11
  | 12 => regBlock12
  | 13 => regBlock13
  | 14 => regBlock14
  | 15 => regBlock15
  | 16 => regBlock16
  | 17 => regBlock17
  | 18 => regBlock18
  | 19 => regBlock19
  | _ => []

/-- Index and word of the offset `r` into an array with the strides and counts `dims` of registers of `n` words. -/
def locateIn (n : Nat) : List (Nat × Nat) → Nat → Nat → Option (Nat × Nat)
  | [], r, i => if r < 4 * n then some (i, r / 4) else none
  | (st, k) :: ds, r, i => if r / st < k then locateIn n ds (r % st) (i * k + r / st) else none

/-- Index and word of offset `off` in an array of registers, when it lies there. -/
def RegDesc.locate (d : RegDesc) (off : Nat) : Option (Nat × Nat) := if off < d.base then none else locateIn d.words.length d.dims (off - d.base) 0

/-- The description and index of the register word at offset `off`, if a register stands there. -/
def findReg : List RegDesc → Nat → Option (RegDesc × Nat × Nat)
  | [], _ => none
  | d :: ds, off =>
    match d.locate off with
    | some (i, w) => some (d, i, w)
    | none => findReg ds off

/-- The block of 1 MiB (R9's table of blocks) that an offset lies in; every ETH window belongs to block 16. -/
def blockOf (off : Nat) : Nat := off / 0x100000

/-- The register at an aligned offset (R10: none where no register stands). -/
def regAt (off : Nat) : Option (RegDesc × Nat × Nat) := findReg (regBlock (blockOf off)) (off / 4 * 4)

/-- The word description at an offset; a word without a register has no writable bit and resets to 0 (R10). -/
def wordAt (off : Nat) : WordDesc :=
  match regAt off with
  | some (d, _, w) => d.words.getD w {}
  | none => {}

/-- Reset values that depend on the index (25_register_summary.md): HIF_SQ_CTRL, HIF_CQ_CTRL, HIF_EQ_CTRL, MEM_SPARE. -/
def indexedReset (base i dflt : Nat) : Nat :=
  if base = HIF_SQ_CTRL 0 then 0x100 * i
  else if base = HIF_CQ_CTRL 0 then 0x08010000 + 0x100 * (i + 1)
  else if base = HIF_EQ_CTRL 0 then 0x08010000 + 0x100 * (33 + i)
  else if base = MEM_SPARE 0 then (if i = 6 then 0x04000000 else if i = 7 then 0x00380000 else if i = 8 then 0x00080000 else 0)
  else dflt

/-- The value that the register word at `off` reads after power-on reset (R628). -/
def resetWord (off : Nat) : Nat :=
  match regAt off with
  | some (d, i, w) => indexedReset d.base i (d.words.getD w {}).reset
  | none => 0

end Sys2Proof.Machine
end

