-- ==== Sys2Proof/Machine/State.lean ====
section
/-! DEFINITION. The state of the device as plain data: a register file keyed by BAR0 offset and, for what no register
holds, a structure per block.  Every field's default is its reset value; INVENTORY.md lists them with their rules. -/

namespace Sys2Proof.Machine

/-- What leaves the device: each item stands for one thing that the surroundings see, in order. -/
inductive Output where
  /-- A DMA write to host memory (R94). -/
  | hostWrite (addr : Nat) (bytes : List Byte)
  /-- An MSI-X message (R112). -/
  | msix (vector : Nat)
  /-- A frame or datagram on an Ethernet port, by ETH window (R19). -/
  | frame (window : Nat) (kind : FrameKind) (bytes : List Byte)
  /-- A message on the Tandem lanes (R434, R437): its lane and the SEQ of its first frame; every frame bears a tag under the link
  key (R516). -/
  | tandem (lane seq : Nat) (msg : TdmMsg)
  /-- A DMX or RDM packet on a DMX port (R311, R314): start code and slots. -/
  | dmx (port : Nat) (startCode : Nat) (slots : List Byte)
  /-- The word that a BAR0 read of `off` returns (R11). -/
  | readData (off : Nat) (data : Nat)
  deriving DecidableEq, Repr

/-- Why a command stops the model.  The spec describes no stop of the block (every error is a status bit, an event, a
completion code or a service state), so no meaning answers a fault. -/
inductive Fault where
  /-- A command that no sender can form (WellFormed refuses it).  No meaning raises it: each gives every operand an effect; safe. -/
  | illFormed
  deriving DecidableEq, Repr

/-- Why a command is refused. -/
inductive Refusal where
  /-- For a command that has no meaning yet: every command has one, so `exec` never answers with it; safe. -/
  | notModelled (mnemonic : String)
  deriving DecidableEq, Repr

/-- The machine.  Each register of 25_register_summary.md has its home in `regs` (a view of a structured field where the
register only shows one); everything else the spec gives the device stands in its own field. -/
structure State where
  /-- The register file: BAR0 word offset to value; an unlisted word holds its reset value (R628). -/
  regs : Sparse Word := []
  /-- R12: the high word latched by the latest low-word read, by offset of the high word. -/
  readLatch : Sparse Word := []
  /-- R13: low words written and not yet committed, by offset of the low word. -/
  writeLatch : List (Nat × Word) := []
  /-- The companion registers latched by a read of TB_PPS_IN_NS, TK_BOUND_FRAC or MTR_LATCH_NS (R53). -/
  timeLatch : Sparse Word := []
  /-- RWT writes and TICK_BOUND descriptors staged for a boundary, in order (R14). -/
  staged : List Staged := []
  tb : Timebase := {}
  tick : TickUnit := {}
  hif : HostIf := {}
  evq : Sparse EventQueue := []
  /-- The time of the latest SEC_NOTICE of cause 4 (R534). -/
  denyNotice : Option Nat := none
  fe : FrameEngine := {}
  crb : Governor := {}
  tdm : Tandem := {}
  mem : Integrity := {}
  tkr : TackRoom := {}
  tm : Egress := {}
  drv : DriveEngine := {}
  php : PhasePlanner := {}
  tlm : Concentrator := {}
  mtr : Metering := {}
  far : Calibration := {}
  nor : NorData := {}
  img : Images := {}
  pwr : Power := {}
  test : TestAccess := {}
  shu : Shuset := {}
  /-- Free values drawn so far: the model's own field, not the spec's (log entry 2). -/
  drawn : Nat := 0
  /-- What the device has sent, oldest first (log entry 5). -/
  out : List Output := []
  /-- The commands that wait, first in, first out. -/
  pending : List Instr := []
  deriving DecidableEq, Repr

/-- The machine right after power-on reset (R32, R561, R562, R628): every field at its default. -/
def State.reset : State := {}

end Sys2Proof.Machine
end

