-- ==== Sys2Proof/Machine/Ops.lean ====
section
/-! DEFINITION. The shared operations: the register file and its fields, time, events (R108, R379 – R382), fences
(R126 – R129), MSI-X messages (R112), power domains (R555) and the service state. -/

namespace Sys2Proof.Machine

/-- What a meaning answers. -/
abbrev Res := Host.Outcome State Fault Refusal

/-! ### Registers -/

/-- What an unlisted register word holds. -/
def regDflt (off : Nat) : Word := BitVec.ofNat 32 (resetWord off)

/-- The value held in the register word at `off`. -/
def State.reg (s : State) (off : Nat) : Nat := (sget regDflt s.regs off).toNat

/-- The register file with `v` in the word at `off`. -/
def State.setReg (s : State) (off v : Nat) : State := { s with regs := sput regDflt s.regs off (BitVec.ofNat 32 v) }

/-- A field of a register. -/
def State.fld (s : State) (x : Fld) : Nat := bitsOf (s.reg x.off) x.lo x.w

/-- A one-bit field as a Bool. -/
def State.bit (s : State) (x : Fld) : Bool := s.fld x ≠ 0

/-- Load a field. -/
def State.setFld (s : State) (x : Fld) (v : Nat) : State := s.setReg x.off (setBits (s.reg x.off) x.lo x.w v)

/-- Set a status bit. -/
def State.raise (s : State) (x : Fld) : State := s.setFld x 1

/-- Clear a field. -/
def State.clear (s : State) (x : Fld) : State := s.setFld x 0

/-- Advance a saturating counter field by `n`. -/
def State.bump (s : State) (x : Fld) (n : Nat) : State := s.setFld x (satAdd x.w (s.fld x) n)

/-- Advance a saturating 32-bit counter register by `n`. -/
def State.bumpReg (s : State) (off n : Nat) : State := s.setReg off (satAdd 32 (s.reg off) n)

/-- A 64-bit register (R12). -/
def State.reg64 (s : State) (off : Nat) : Nat := s.reg off + 2 ^ 32 * s.reg (off + 4)

/-- Load a 64-bit register. -/
def State.setReg64 (s : State) (off v : Nat) : State := (s.setReg off (v % 2 ^ 32)).setReg (off + 4) (v / 2 ^ 32 % 2 ^ 32)

/-! ### Free values (log entry 2) -/

/-- The next free value, below `n`. -/
def State.freeVal (s : State) (n : Nat) : Nat := Config.free s.drawn % n

/-- The state after one free value is drawn. -/
def State.drew (s : State) : State := { s with drawn := s.drawn + 1 }

/-! ### Service state, power domains -/

/-- GLB_BOOT.SVC: 0 START, 1 NORMAL, 2 TEST, 3 RECOVERY, 4 FAILSAFE. -/
def State.svc (s : State) : Nat := s.fld GLB_BOOT_SVC

/-- GLB_BOOT.MODE, the boot mode in force. -/
def State.mode (s : State) : Nat := s.fld GLB_BOOT_MODE

/-- TK_CTRL.RUN. -/
def State.run (s : State) : Bool := s.bit TK_CTRL_RUN

/-- Domain `d` of R555 is on; AON is on whenever the device has supply. -/
def State.domOn (s : State) (d : Nat) : Bool := d = 0 || bitB (s.reg GLB_PWR_STAT) d

/-- The domain of R555 that holds the block of a BAR0 offset (none: no block). -/
def domainOf (off : Nat) : Option Nat :=
  match blockOf off with
  | 0 => some 0 | 1 => some 1 | 2 => some 3 | 3 => some 0 | 4 => some 0 | 5 => some 7 | 6 => some 7 | 7 => some 9
  | 8 => some 11 | 9 => some 3 | 10 => some 12 | 11 => some 12 | 12 => some 12 | 13 => some 0 | 14 => some 1
  | 15 => some 1 | 17 => some 0 | 18 => some 13 | 19 => some 13
  | 16 =>
    let w := off / 0x10000 % 16
    if w ≤ 7 then some 9 else if w ≤ 11 then some 10 else if w ≤ 13 then some 11 else if w = 14 then some 13 else none
  | _ => none

/-- No loss of lock. -/
def noLoss (_ : Nat) : Option Nat := none

/-- PLL `k` of R570 has not lost lock (R569). -/
def State.pllOk (s : State) (k : Nat) : Bool := (sget noLoss s.pwr.pllLost k).isNone

/-- The link of Ethernet window `w` can be up: its domain is on, PLL_ETH is locked, and the trace SerDes have power (R559, R569). -/
def State.linkMay (s : State) (w : Nat) : Bool :=
  s.pllOk 6 && !(decide (s.mode = 2 ∧ w < 8)) && (match domainOf (0x1000000 + 0x10000 * w) with | some d => s.domOn d | none => false)

/-- A BAR0 access to the block of `off` leaves state `t` behind; while the block's domain is off it only sets OFF_ACC (R558). -/
def State.onBlock (s : State) (off : Nat) (t : State) : State :=
  match domainOf off with
  | some d => if s.domOn d then t else s.raise GLB_PWR_STAT_OFF_ACC
  | none => t

/-! ### Time -/

/-- Units of 2^-32 ns in one ns, one µs, one ms and one second. -/
def unitNs : Nat := 4294967296
def unitUs : Nat := 4294967296000
def unitMs : Nat := 4294967296000000
def unitSec : Nat := 4294967296000000000

/-- The fields of R30 of a time. -/
def secOf (t : Nat) : Nat := t / unitSec
def nsOf (t : Nat) : Nat := t / unitNs % 1000000000
def fracOf (t : Nat) : Nat := t % unitNs

/-- The counter wraps with its 48-bit seconds field. -/
def timeSpan : Nat := 281474976710656 * unitSec

/-- TICK_NO (fence 0, R127). -/
def State.tickNo (s : State) : Nat := s.reg64 TK_TICK_NO

/-- STATE of TB_STATUS. -/
def tbFree : Nat := 0
def tbAcquire : Nat := 1
def tbLocked : Nat := 2
def tbHoldover : Nat := 3

/-- The magnitude of the slew term: TB_INCR × TB_SLEW / 10^6, truncated (R42). -/
def slewMag (eff ppm : Nat) : Nat := eff * ppm / 1000000

/-- What one cycle adds to the counter, and the pending offset after it (R31, R42). -/
def slewOf (eff ppm : Nat) (p : Int) : Int × Int :=
  let m := slewMag eff ppm
  if p = 0 ∨ m = 0 then ((eff : Int), p)
  else if p.natAbs < m then ((eff : Int) + p, 0)
  else if 0 < p then ((eff : Int) + (m : Int), p - (m : Int)) else ((eff : Int) - (m : Int), p + (m : Int))

/-- Add an interval to the counter; HOLDOVER time runs with it. -/
def Timebase.addTime (t : Timebase) (d : Nat) (holdover : Bool) : Timebase :=
  { t with now := (t.now + d) % timeSpan, hoFor := if holdover then t.hoFor + d else t.hoFor }

/-- Apply an accepted step in one cycle, clearing any pending offset (R44). -/
def Timebase.applyStep (t : Timebase) : Timebase :=
  match t.step with
  | none => t
  | some v =>
    let n := (((t.now : Int) + v * (unitNs : Int)) % (timeSpan : Int)).toNat
    { t with now := n, pend := 0, step := none, stepIn := 0, ppsLow := min t.ppsLow n }

/-- A committed TB_INCR value becomes the effective increment on the second cycle after its commit (R31). -/
def Timebase.tickCommit (t : Timebase) : Timebase :=
  match t.commit with
  | none => t
  | some (0, v) => { t with eff := v, commit := none }
  | some (n + 1, v) => { t with commit := some (n, v) }

/-- An accepted step waits for a boundary while the tick unit runs and for the second cycle after its commit otherwise. -/
def Timebase.tickStep (t : Timebase) (running : Bool) : Timebase :=
  if t.step.isSome && !running then
    (match t.stepIn with
     | 0 => t.applyStep
     | n + 1 => { t with stepIn := n })
  else t

/-- The grid point of spacing `g` whose comparator fires next at time `now`: one that this cycle is the first to reach, at most
5.01 ns after it (R42, R55, R58), or the one after. -/
def gridNext (g now : Nat) : Nat := if now % g < 6 * unitNs then now / g else now / g + 1

/-- One cycle of the timebase clock: the step, then a TB_INCR commit (R45), then the increment with its slew term. -/
def Timebase.cycle (t : Timebase) (ppm : Nat) (holdover running : Bool) : Timebase :=
  let t := (t.tickStep running).tickCommit
  let (d, p) := slewOf t.eff ppm t.pend
  { t.addTime d.toNat holdover with pend := p }

/-- Cycles needed to cover `d` at `r` a cycle. -/
def cyclesFor (d r : Nat) : Nat := cdiv d r

/-- Run `n` whole cycles at once when no commit and no step is due within them: the slewing cycles first, then the rest. -/
def Timebase.cycles (t : Timebase) (ppm n : Nat) (holdover : Bool) : Timebase :=
  let m := slewMag t.eff ppm
  let k := if t.pend = 0 ∨ m = 0 then 0 else min n (t.pend.natAbs / m)
  let sgn : Int := if 0 < t.pend then 1 else -1
  let moved : Int := sgn * ((k * m : Nat) : Int)
  let rest := if k < n ∧ 0 < m then t.pend - moved else 0
  { t.addTime (((n * t.eff : Nat) : Int) + moved + rest).toNat holdover with pend := t.pend - moved - rest }

/-- The least number of whole cycles after which the counter is at or past `target`. -/
def Timebase.cyclesTo (t : Timebase) (ppm target : Nat) : Nat :=
  if target ≤ t.now then 0
  else
    let m := slewMag t.eff ppm
    let gap := target - t.now
    if t.pend = 0 ∨ m = 0 then cyclesFor gap t.eff
    else
      let rate := if 0 < t.pend then t.eff + m else t.eff - m
      let k := t.pend.natAbs / m
      if gap ≤ k * rate then cyclesFor gap rate
      else
        let left := ((gap : Int) - ((k * rate : Nat) : Int) - (t.pend - (if 0 < t.pend then 1 else -1) * ((k * m : Nat) : Int))).toNat
        k + max 1 (cyclesFor left t.eff)

/-- Let time run to the first cycle at or past `target` (R55): the cycles in which a commit or a step is still due are
taken one by one, the rest at once. -/
def Timebase.runTo (t : Timebase) (ppm target : Nat) (holdover running : Bool) : Timebase :=
  let one (t : Timebase) := if t.now < target ∧ (t.commit.isSome ∨ (t.step.isSome ∧ running = false)) then t.cycle ppm holdover running else t
  let t := one (one (one t))
  t.cycles ppm (t.cyclesTo ppm target) holdover

/-- STATE is HOLDOVER. -/
def State.holdover (s : State) : Bool := s.fld TB_STATUS_STATE = tbHoldover

/-- A boundary is to come, at which an accepted step is applied (R44): ticks run, or a start is pending. -/
def State.awaitsTick (s : State) : Bool := s.tick.running || s.tick.startAfter.isSome

/-- Let time run to the first cycle at or past `target`; a target already reached changes nothing (R55, log entry 6). -/
def State.runTo (s : State) (target : Nat) : State :=
  if target ≤ s.tb.now then s
  else { s with tb := s.tb.runTo (s.fld TB_SLEW_v) target s.holdover s.awaitsTick }

/-- Time elapsed since `t`, which is 0 when a step has moved the counter back past it. -/
def State.since (s : State) (t : Nat) : Nat := s.tb.now - t

/-! ### Output -/

/-- Append to what the device has sent. -/
def State.emit (s : State) (o : Output) : State := { s with out := s.out ++ [o] }

/-- A BAR0 read of `off`: its side effects leave `t`, and `v` is its data; while the domain of the block is off it returns 0 and sets
OFF_ACC (R11, R558). -/
def State.onRead (s : State) (off : Nat) (t : State) (v : Nat) : State :=
  match domainOf off with
  | some d => if s.domOn d then t.emit (.readData off v) else (s.raise GLB_PWR_STAT_OFF_ACC).emit (.readData off 0)
  | none => t.emit (.readData off v)

/-! ### Events -/

/-- The 16 payload bytes of an event: fields (byte, size, value) laid over zeros. -/
def evPayload (fs : List (Nat × Nat × Nat)) : List Byte :=
  fs.foldl (fun b x => patchBytes b (x.1 - 16) (leBytes x.2.1 x.2.2)) (List.replicate 16 0)

/-- An event of the present instant. -/
def State.event (s : State) (typ kind idx : Nat) (fs : List (Nat × Nat × Nat)) : Event :=
  { typ := typ, srcKind := kind, srcIndex := idx, ns := nsOf s.tb.now, sec := secOf s.tb.now % 2 ^ 32, payload := evPayload fs }

/-- What an unlisted event queue holds. -/
def queueDflt (_ : Nat) : EventQueue := {}

def State.queue (s : State) (e : Nat) : EventQueue := sget queueDflt s.evq e

def State.setQueue (s : State) (e : Nat) (q : EventQueue) : State := { s with evq := sput queueDflt s.evq e q }

/-- Entries of one event queue. -/
def queueSize : Nat := 16384

/-- A pending GAP as it enters its queue (R382). -/
def Gap.event (g : Gap) (e tick : Nat) : Event :=
  { typ := 0x7F, srcIndex := e, reporters := 0, ns := g.ns, sec := g.sec,
    payload := evPayload [(16, 4, g.dropped), (20, 4, g.overwritten), (24, 4, g.firstTick), (28, 4, tick)] }

/-- Two losses as one pending GAP: the counts add, the earlier first loss stands (R382). -/
def Gap.join (a b : Gap) : Gap :=
  let first := if b.sec < a.sec ∨ (b.sec = a.sec ∧ b.ns < a.ns) then b else a
  { dropped := satAdd 32 a.dropped b.dropped, overwritten := satAdd 32 a.overwritten b.overwritten,
    ns := first.ns, sec := first.sec, firstTick := min a.firstTick b.firstTick }

/-- The loss of one item now, added to a pending GAP. -/
def State.lossGap (s : State) (g : Option Gap) (dropped overwritten : Nat) : Gap :=
  let new : Gap := { dropped := dropped, overwritten := overwritten, ns := nsOf s.tb.now, sec := secOf s.tb.now % 2 ^ 32,
                     firstTick := s.tickNo % 2 ^ 32 }
  match g with
  | none => new
  | some g => { g with dropped := satAdd 32 g.dropped dropped, overwritten := satAdd 32 g.overwritten overwritten }

/-- The GAP that an overwritten GAP item stood for. -/
def gapOfItem (ev : Event) : Gap :=
  { dropped := leAt ev.payload 0 4, overwritten := leAt ev.payload 4 4, ns := ev.ns, sec := ev.sec, firstTick := leAt ev.payload 8 4 }

/-- The overwrite rule of R381 for a full queue: the oldest item leaves and the offered item enters. -/
def State.overwrite (s : State) (e : Nat) (q : EventQueue) (ev : Event) : State :=
  match q.items with
  | [] => s
  | old :: rest =>
    if old.typ = 0x7F then
      let g := gapOfItem old
      s.setQueue e { q with items := rest ++ [ev], gap := some (match q.gap with | none => g | some p => Gap.join p g) }
    else
      (s.setQueue e { q with items := rest ++ [ev], gap := some (s.lossGap q.gap 0 1) }).bumpReg (TLM_EQ_LOST e) 1

/-- Offer an item to queue `e` (R381). -/
def State.offer (s : State) (e : Nat) (ev : Event) : State :=
  let q := s.queue e
  if q.items.length < queueSize then s.setQueue e { q with items := q.items ++ [ev] }
  else if s.svc = 1 ∨ s.svc = 4 then
    (s.setQueue e { q with gap := some (s.lossGap q.gap 1 0) }).bumpReg (TLM_EQ_DROP e) 1
  else s.overwrite e q ev

/-- Remove the head item of queue `e`; a pending GAP enters at the slot it frees (R382). -/
def State.removeHead (s : State) (e : Nat) : State :=
  let q := s.queue e
  match q.items with
  | [] => s
  | _ :: rest =>
    match q.gap with
    | none => s.setQueue e { q with items := rest }
    | some g => s.setQueue e { q with items := rest ++ [g.event e (s.tickNo % 2 ^ 32)], gap := none }

/-- The routing nibble of a routing group: bit 3 DISC, bits 2 – 0 the queue (TLM_ROUTE0, TLM_ROUTE1). -/
def State.route (s : State) (g : Nat) : Nat :=
  if g < 8 then bitsOf (s.reg TLM_ROUTE0) (4 * g) 4 else bitsOf (s.reg TLM_ROUTE1) (4 * (g - 8)) 4

/-- Post an event that TLM_ROUTE routes (R379). -/
def State.post (s : State) (ev : Event) : State :=
  let r := s.route (ev.typ / 8)
  if r / 8 = 1 then s else s.offer (r % 8) ev

/-- Post an event of the present instant. -/
def State.postNow (s : State) (typ kind idx : Nat) (fs : List (Nat × Nat × Nat)) : State := s.post (s.event typ kind idx fs)

/-- Bytes of an event entry with its phase bit (R108, R103). -/
def Event.bytes (ev : Event) (phase : Nat) : List Byte :=
  leBytes 1 ev.typ ++ leBytes 1 (ev.srcKind * 32 + ev.srcIndex % 32) ++ leBytes 1 (b2n ev.merged) ++ leBytes 1 (phase * 128)
    ++ leBytes 4 ev.reporters ++ leBytes 4 ev.ns ++ leBytes 4 ev.sec ++ ev.payload

/-- PHASE of the entry at producer index `i` of a ring of 2^lg entries (R103). -/
def phaseBit (i lg : Nat) : Nat := 1 - i / 2 ^ lg % 2

/-! ### MSI-X (R112) -/

/-- Send an MSI-X vector. -/
def State.sendVec (s : State) (v : Nat) : State := s.emit (.msix v)

/-! ### Fences (R126 – R138) -/

def zeroNat (_ : Nat) : Nat := 0

/-- The value of a fence; fence 0 is TICK_NO (R127). -/
def State.fence (s : State) (f : Nat) : Nat := if f = 0 then s.tickNo else sget zeroNat s.hif.fences f

/-- The value of a fence as it is read: all ones for a broken one (R482). -/
def State.fenceShown (s : State) (f : Nat) : Nat := if f ∈ s.hif.broken then 2 ^ 64 - 1 else s.fence f

/-- A signal of value `v` leaves fence `f` at the larger of both (R128); fence 0 cannot be set (R127). -/
def State.signal (s : State) (f v : Nat) : State :=
  if f = 0 ∨ 4096 ≤ f ∨ f ∈ s.hif.broken then s
  else { s with hif := { s.hif with fences := sput zeroNat s.hif.fences f (max (s.fence f) (v % 2 ^ 64)) } }

/-- A fence is bound to source `k` (HIF_FBIND). -/
def State.boundAt (s : State) (k f : Nat) : Bool := s.bit (HIF_FBIND_EN k) && s.fld (HIF_FBIND_FENCE k) = f

/-- A fence is bound to some source (R135). -/
def State.bound (s : State) (f : Nat) : Bool := (List.range 22).any fun k => s.boundAt k f

/-- Source `k` of R137 reaches progress value `v`: the fence bound to it follows. -/
def State.source (s : State) (k v : Nat) : State :=
  if s.bit (HIF_FBIND_EN k) then s.signal (s.fld (HIF_FBIND_FENCE k)) v else s

/-- The bridle check of R502: port index `i` of class `k` may send a command of class `b`. -/
def State.bridleOk (s : State) (i k b : Nat) : Bool :=
  !bitB (s.reg64 BRD_PORT_DENY) i && bitB (s.reg (BRD_MASK k)) b

/-- SEC_NOTICE of cause 4 (R534): at the first refusal, and then at the first that comes a second or more after the latest
notice. -/
def State.denyEvent (s : State) (i b : Nat) : State :=
  let quiet := match s.denyNotice with | some t => decide (s.tb.now < t + unitSec) | none => false
  if quiet then s
  else
    ({ s with denyNotice := some s.tb.now }).postNow 0x7B 0 0
      [(16, 1, 4), (17, 1, i), (18, 1, b), (20, 4, s.reg BRD_DENY_CNT), (28, 4, s.tickNo % 2 ^ 32)]

/-- A refusal under R502 is counted, recorded and posted. -/
def State.bridleDeny (s : State) (i b : Nat) : State :=
  (((s.bumpReg BRD_DENY_CNT 1).setFld BRD_DENY_LAST_PORT i).setFld BRD_DENY_LAST_CLASS b).denyEvent i b

end Sys2Proof.Machine
end

