-- ==== Sys2Proof/Machine/Link.lean ====
section
/-! DEFINITION. Sending on the Tandem lanes (17_tandem_pair.md, R434 – R437, R516), and the owner slots that it needs (R504). -/

namespace Sys2Proof.Machine

/-- The states of an owner slot (R504). -/
def slotEmpty : Nat := 0
def slotActive : Nat := 1
def slotDrain : Nat := 2
def slotGrace : Nat := 3
def slotDead : Nat := 4

def slotDflt (_ : Nat) : KeySlot := {}

def State.slot (s : State) (i : Nat) : KeySlot := sget slotDflt s.tkr.slots i

def State.setSlot (s : State) (i : Nat) (x : KeySlot) : State := { s with tkr := { s.tkr with slots := sput slotDflt s.tkr.slots i x } }

/-- The slot's key may be used (R504, R524). -/
def KeySlot.live (x : KeySlot) : Bool := x.state = slotActive || x.state = slotDrain || x.state = slotGrace

/-- The slot that a register names, when it names one. -/
def State.namedSlot (s : State) (off : Nat) : Option Nat := if bitB (s.reg off) 31 then some (bitsOf (s.reg off) 0 6) else none

/-- The PAIR slot holds a key (R507, R525). -/
def State.pairLive (s : State) : Bool := match s.namedSlot TKR_PAIR_SLOT with | some i => (s.slot i).live | none => false

/-- Lane `k` is up (R436). -/
def State.laneUp (s : State) (k : Nat) : Bool := s.bit (if k = 0 then TDM_STATUS_LANE0_UP else TDM_STATUS_LANE1_UP)

/-- Bulk messages (R436). -/
def TdmMsg.bulk : TdmMsg → Bool
  | .state _ => true
  | .ingest (.repair _ _ _ _) => true
  | .ingest (.line _ _ _ _) | .ingest (.frame _ _ _) | .ingest (.request _ _ _) | .ingest (.universe _ _ _ _) | .ingest (.askUniverse _) => false
  | .hello _ | .hb _ | .jrn _ | .jack _ | .jcmt _ _ | .latch _ | .cset _ _ _ | .sig _ _ | .shd _ _ _ _ | .fault _ _ | .role _
  | .join _ => false

/-- The lane of a message (R436). -/
def State.laneOf (s : State) (m : TdmMsg) : Nat :=
  if m.bulk then (if s.laneUp 1 then 1 else 0) else if s.laneUp 0 then 0 else 1

/-- Octets of a message body whose length the spec bounds from below by what it carries: a JRN's payload, a repaired line, a state
block of 64 KiB; every other message is taken to fit one Tandem frame (log entry 17). -/
def TdmMsg.octets : TdmMsg → Nat
  | .jrn e => 75 + e.d.data.length
  | .ingest (.repair _ _ _ b) => b.length
  | .state (.part _) => 65536
  | .state (.image _ _ _ b) => b.length
  | .state (.wantImage _ _ _) | .state .noImage => 0
  | .ingest (.line _ _ _ _) | .ingest (.frame _ _ _) | .ingest (.request _ _ _) | .ingest (.universe _ _ _ _) | .ingest (.askUniverse _) => 0
  | .hello _ | .hb _ | .jack _ | .jcmt _ _ | .latch _ | .cset _ _ _ | .sig _ _ | .shd _ _ _ _ | .fault _ _ | .role _ | .join _ => 0

/-- The Tandem frames of a message (R435). -/
def TdmMsg.frames (m : TdmMsg) : Nat := max 1 (cdiv m.octets 8960)

/-- Send a message on lane `k`; SEQ counts its frames (R434). -/
def State.sendOn (s : State) (k : Nat) (m : TdmMsg) : State :=
  ({ s with tdm := { s.tdm with seq := s.tdm.seq + m.frames } }).emit (.tandem k s.tdm.seq m)

/-- Send a message: nothing leaves while TDM_CTRL.EN is 0 or without a pair key (R525, R571). -/
def State.sendTdm (s : State) (m : TdmMsg) : State :=
  if s.bit TDM_CTRL_EN = false ∨ s.pairLive = false then s else s.sendOn (s.laneOf m) m

end Sys2Proof.Machine
end

