-- ==== Sys2Proof/Machine/Rings.lean ====
section
/-! DEFINITION. Rings, doorbells, fetching, starting, waiting, completions and MSI-X (04_host_rings_and_descriptors.md,
05_fences_leases_and_ordering.md). -/

namespace Sys2Proof.Machine

/-! ### Descriptors as bytes (R113) -/

def dOpcode (b : List Byte) : Nat := byteAt b 0
def dFlags (b : List Byte) : Nat := byteAt b 1
def dWait (b : List Byte) : Bool := bitB (dFlags b) 0
def dSignal (b : List Byte) : Bool := bitB (dFlags b) 1
def dComplete (b : List Byte) : Bool := bitB (dFlags b) 2
def dTickBound (b : List Byte) : Bool := bitB (dFlags b) 3
def dMirror (b : List Byte) : Bool := bitB (dFlags b) 4
def dTag (b : List Byte) : Nat := leAt b 2 2
def dFenceId (b : List Byte) : Nat := leAt b 4 4
def dFenceValue (b : List Byte) : Nat := leAt b 8 8

/-- Completion status codes (R631). -/
def stOk : Nat := 0
def stBadOpcode : Nat := 1
def stNotPermitted : Nat := 2
def stBadField : Nat := 3
def stFenceTimeout : Nat := 4
def stRetired : Nat := 5
def stNoResource : Nat := 6
def stIntegrity : Nat := 7
def stAuthFail : Nat := 8
def stReplay : Nat := 9
def stDeferred : Nat := 10

/-- The opcodes of R116. -/
def opcodes : List Nat :=
  [0x01, 0x02, 0x10, 0x11, 0x12, 0x20, 0x21, 0x28, 0x30, 0x38, 0x40, 0x48, 0x50, 0x58, 0x60, 0x68, 0x70, 0x71, 0x78, 0x7C, 0x80, 0xF0]

/-! ### Ring state -/

def sqDflt (_ : Nat) : SubRing := {}
def outDflt (_ : Nat) : OutRing := {}

def State.sq (s : State) (i : Nat) : SubRing := sget sqDflt s.hif.sq i
def State.setSq (s : State) (i : Nat) (r : SubRing) : State := { s with hif := { s.hif with sq := sput sqDflt s.hif.sq i r } }
def State.cq (s : State) (c : Nat) : OutRing := sget outDflt s.hif.cq c
def State.setCq (s : State) (c : Nat) (r : OutRing) : State := { s with hif := { s.hif with cq := sput outDflt s.hif.cq c r } }
def State.eq (s : State) (e : Nat) : OutRing := sget outDflt s.hif.eq e
def State.setEq (s : State) (e : Nat) (r : OutRing) : State := { s with hif := { s.hif with eq := sput outDflt s.hif.eq e r } }

/-- A submission ring is enabled and has not stopped (R123, R124). -/
def State.sqOn (s : State) (i : Nat) : Bool := s.bit (HIF_SQ_CTRL_EN i) && !s.bit (HIF_SQ_STAT_CAUSE i)
def State.cqOn (s : State) (c : Nat) : Bool := s.bit (HIF_CQ_CTRL_EN c) && !s.bit (HIF_CQ_STAT_CAUSE c)
def State.eqOn (s : State) (e : Nat) : Bool := s.bit (HIF_EQ_CTRL_EN e) && !s.bit (HIF_EQ_STAT_CAUSE e)

/-- Fetched descriptors that have not started are discarded without completion (R123); one that waits has started. -/
def State.discardSq (s : State) (i : Nat) : State := s.setSq i { s.sq i with store := [] }

/-- RING_ERROR (R110, R111): the event in queue 0 and the error vector. -/
def State.ringError (s : State) (kind ring cause index : Nat) : State :=
  (s.offer 0 (s.event 0x02 0 0 [(16, 1, kind), (17, 1, ring), (18, 1, cause), (24, 4, index)])).sendVec (s.fld HIF_ERR_VEC_v)

/-- A ring stops by itself (R124). -/
def State.stopSq (s : State) (i cause index : Nat) : State :=
  ((s.setFld (HIF_SQ_STAT_CAUSE i) cause).discardSq i).ringError 0 i cause index
def State.stopCq (s : State) (c cause index : Nat) : State := (s.setFld (HIF_CQ_STAT_CAUSE c) cause).ringError 1 c cause index
def State.stopEq (s : State) (e cause index : Nat) : State := (s.setFld (HIF_EQ_STAT_CAUSE e) cause).ringError 2 e cause index

/-- A write of HIF_SQ_CTRL (R96, R123): CQ is kept while EN is 1; setting EN clears both indices and CAUSE, clearing it
discards what has not started. -/
def State.writeSqCtrl (s : State) (i v : Nat) : State :=
  let was := s.bit (HIF_SQ_CTRL_EN i)
  let cq := if was then s.fld (HIF_SQ_CTRL_CQ i) else bitsOf v 8 5
  let s := s.setReg (HIF_SQ_CTRL i) (bitsOf v 0 3 + cq * 256 + bitsOf v 16 3 * 65536)
  if was = bitB v 0 then s
  else if bitB v 0 then ((s.setReg (HIF_SQ_HEAD i) 0).setReg (HIF_SQ_TAIL i) 0).clear (HIF_SQ_STAT_CAUSE i)
  else s.discardSq i

/-- A write of HIF_CQ_CTRL or HIF_EQ_CTRL: entries held back are kept (R123). -/
def State.writeCqCtrl (s : State) (c v : Nat) : State :=
  let was := s.bit (HIF_CQ_CTRL_EN c)
  let s := s.setReg (HIF_CQ_CTRL c) (bitsOf v 0 1 + bitsOf v 8 6 * 256 + bitsOf v 16 16 * 65536)
  if was = false ∧ bitB v 0 then ((s.setReg (HIF_CQ_HEAD c) 0).setReg (HIF_CQ_TAIL c) 0).clear (HIF_CQ_STAT_CAUSE c) else s
def State.writeEqCtrl (s : State) (e v : Nat) : State :=
  let was := s.bit (HIF_EQ_CTRL_EN e)
  let s := s.setReg (HIF_EQ_CTRL e) (bitsOf v 0 1 + bitsOf v 8 6 * 256 + bitsOf v 16 16 * 65536)
  if was = false ∧ bitB v 0 then ((s.setReg (HIF_EQ_HEAD e) 0).setReg (HIF_EQ_TAIL e) 0).clear (HIF_EQ_STAT_CAUSE e) else s

/-- A write of a ring's CTRL register. -/
def State.writeRingCtrl (s : State) (r : RingId) (v : Nat) : State :=
  match r with
  | .sq i => s.writeSqCtrl i.val v
  | .cq i => s.writeCqCtrl i.val v
  | .eq i => s.writeEqCtrl i.val v

/-- Entries of a ring by its SIZE field. -/
def State.sqSize (s : State) (i : Nat) : Nat := 2 ^ s.fld (HIF_SQ_SIZE_v i)
def State.cqLg (s : State) (c : Nat) : Nat := s.fld (HIF_CQ_SIZE_v c)
def State.eqLg (s : State) (e : Nat) : Nat := s.fld (HIF_EQ_SIZE_v e)

/-- A difference of ring indices, modulo 2^32 (R96). -/
def idxDiff (a b : Nat) : Nat := (a + 2 ^ 32 - b) % 2 ^ 32

/-- A doorbell value for submission ring `i` (R97). -/
def State.ringSq (s : State) (i v : Nat) : State :=
  let t := s.reg (HIF_SQ_TAIL i)
  let h := s.reg (HIF_SQ_HEAD i)
  if s.sqOn i = false then s.raise HIF_STATUS_DB_DIS
  else if 2 ^ 31 ≤ idxDiff v t then s.bump (HIF_SQ_STAT_DB_BACK i) 1
  else if s.sqSize i < idxDiff v h then s.stopSq i 1 v
  else s.setReg (HIF_SQ_TAIL i) v

/-- A consumer index for completion ring `c` (R105). -/
def State.ringCq (s : State) (c v : Nat) : State :=
  let h := s.reg (HIF_CQ_HEAD c)
  if s.cqOn c = false then s.raise HIF_STATUS_DB_DIS
  else if 2 ^ 31 ≤ idxDiff v h then s
  else if idxDiff (s.reg (HIF_CQ_TAIL c)) h < idxDiff v h then s.stopCq c 1 v
  else s.setReg (HIF_CQ_HEAD c) v

/-- A consumer index for event ring `e` (R105, R107). -/
def State.ringEq (s : State) (e v : Nat) : State :=
  let h := s.reg (HIF_EQ_HEAD e)
  if s.eqOn e = false then s.raise HIF_STATUS_DB_DIS
  else if 2 ^ 31 ≤ idxDiff v h then s
  else if idxDiff (s.reg (HIF_EQ_TAIL e)) h < idxDiff v h then s.stopEq e 1 v
  else s.setReg (HIF_EQ_HEAD e) v

/-- Only a naturally aligned 4-byte write to offset 0 of the page is a doorbell (R93). -/
def doorbellOk (ofs size : Nat) : Bool := ofs = 0 && size = 4

/-! ### Completions -/

/-- Entries the internal buffer of a completion ring holds back (R104). -/
def heldMax : Nat := 64

/-- A completion becomes due: it joins the entries of its completion ring, and a full buffer stalls the rings mapped to
it (R104); a stopped completion ring stops the submission ring with CAUSE 3 (R124). -/
def State.due (s : State) (c : Completion) : State :=
  let n := s.fld (HIF_SQ_CTRL_CQ c.sq)
  let q := s.cq n
  let full := heldMax ≤ q.held.length + 1
  let s := if full ∧ q.stalled = false then s.bump (HIF_CQ_STAT_FULL_STALL n) 1 else s
  let s := s.setCq n { q with held := q.held ++ [c], stalled := q.stalled || full }
  if s.bit (HIF_CQ_STAT_CAUSE n) ∧ s.sqOn c.sq then s.stopSq c.sq 3 0 else s

/-- The bytes of a completion entry (R102). -/
def Completion.bytes (c : Completion) (head phase : Nat) : List Byte :=
  leBytes 2 c.tag ++ leBytes 1 c.status ++ leBytes 1 (phase * 128 + b2n c.mirrored * 32 + c.sq % 32) ++ leBytes 4 head ++ leBytes 8 c.result

/-- Count one entry written to a ring and send its vector when enough are unreported (R112). -/
def OutRing.wrote (q : OutRing) (now : Nat) : OutRing :=
  { q with unreported := q.unreported + 1, oldest := if q.unreported = 0 then now else q.oldest }

/-- COAL_CNT and COAL_US with 0 treated as 1. -/
def State.cqReport (s : State) (c : Nat) : State :=
  let q := s.cq c
  if max 1 (s.fld (HIF_CQ_CTRL_COAL_CNT c)) ≤ q.unreported then
    (s.setCq c { q with unreported := 0 }).sendVec (s.fld (HIF_CQ_CTRL_VEC c))
  else s
def State.eqReport (s : State) (e : Nat) : State :=
  let q := s.eq e
  if max 1 (s.fld (HIF_EQ_CTRL_COAL_CNT e)) ≤ q.unreported then
    (s.setEq e { q with unreported := 0 }).sendVec (s.fld (HIF_EQ_CTRL_VEC e))
  else s

/-- A completion ring has space (R104). -/
def State.cqSpace (s : State) (c : Nat) : Bool :=
  idxDiff (s.reg (HIF_CQ_TAIL c)) (s.reg (HIF_CQ_HEAD c)) < 2 ^ s.cqLg c
def State.eqSpace (s : State) (e : Nat) : Bool :=
  idxDiff (s.reg (HIF_EQ_TAIL e)) (s.reg (HIF_EQ_HEAD e)) < 2 ^ s.eqLg e

/-- Write the oldest held entry of completion ring `c` (R102 – R104): the entry, the producer index, the fence that a
failed descriptor signals as its entry is written (R132), and the ring's vector (R112). -/
def State.writeCompletion (s : State) (c : Nat) : State :=
  match (s.cq c).held with
  | [] => s
  | e :: rest =>
    let i := s.reg (HIF_CQ_TAIL c)
    let lg := s.cqLg c
    let addr := s.reg64 (HIF_CQ_BASE c) + i % 2 ^ lg * 16
    let s := s.emit (.hostWrite addr (e.bytes (s.reg (HIF_SQ_HEAD e.sq)) (phaseBit i lg)))
    let s := s.setReg (HIF_CQ_TAIL c) ((i + 1) % 2 ^ 32)
    let q := s.cq c
    let s := s.setCq c ({ q with held := rest, stalled := q.stalled && decide (heldMax ≤ rest.length) }.wrote s.tb.now)
    let s := match e.signal with
      | some (f, v) => s.signal f v
      | none => s
    s.cqReport c

/-- Post a due completion entry (R104); a write that fails stops the ring with CAUSE 2, and the entry is kept (R124). -/
def State.postCompletion (s : State) (c : Nat) (ok : Bool) : State :=
  if s.cqOn c = false ∨ s.cqSpace c = false ∨ (s.cq c).held = [] then s
  else if ok then s.writeCompletion c else s.stopCq c 2 (s.reg (HIF_CQ_TAIL c))

/-- Write one event entry to event ring `e` (R107, R108). -/
def State.writeEvent (s : State) (e : Nat) (ev : Event) : State :=
  let i := s.reg (HIF_EQ_TAIL e)
  let lg := s.eqLg e
  let addr := s.reg64 (HIF_EQ_BASE e) + i % 2 ^ lg * 32
  let s := s.emit (.hostWrite addr (ev.bytes (phaseBit i lg)))
  let s := s.setReg (HIF_EQ_TAIL e) ((i + 1) % 2 ^ 32)
  (s.setEq e ((s.eq e).wrote s.tb.now)).eqReport e

/-- Drain queue `e` into its ring while the ring has space (step 4 of R380): an item leaves its queue as its entry is
written. -/
def State.drainQueue (s : State) (e : Nat) : Nat → State
  | 0 => s
  | n + 1 =>
    match (s.queue e).items with
    | [] => s
    | ev :: _ => if s.eqOn e && s.eqSpace e then ((s.writeEvent e ev).removeHead e).drainQueue e n else s

/-- Drain every queue (R380); a queue holds at most its items and the GAP that its first removal frees. -/
def State.drainAll (s : State) : State :=
  (List.range 8).foldl (fun s e => s.drainQueue e ((s.queue e).items.length + 1)) s

/-- CMD_RESULT of a deferred descriptor (R110, R111, R122): the event, and the SIGNAL fence as it is written. -/
def State.cmdResult (s : State) (d : Running) (status result : Nat) : State :=
  let s := if d.journal then s
    else s.offer (s.fld (HIF_SQ_CTRL_EQ d.sq)) (s.event 0x01 1 d.sq [(16, 2, dTag d.bytes), (18, 1, status), (19, 1, d.sq), (24, 8, result)])
  if dSignal d.bytes then s.signal (dFenceId d.bytes) (dFenceValue d.bytes) else s

/-- The end of a descriptor with `status` (R101, R132, R133): an OK descriptor signals as its entry is due, a failed one
as its entry is written, a deferred one with its CMD_RESULT. -/
def State.finishWith (s : State) (d : Running) (sig : Bool) (status result : Nat) : State :=
  let s := if sig ∧ status = stOk then s.signal (dFenceId d.bytes) (dFenceValue d.bytes) else s
  if d.journal then
    (if sig ∧ status ≠ stOk ∧ status ≠ stDeferred then s.signal (dFenceId d.bytes) (dFenceValue d.bytes) else s)
  else if dComplete d.bytes ∨ status ≠ stOk then
    s.due { tag := dTag d.bytes, status := status, sq := d.sq, mirrored := d.mirrored, result := result,
            signal := if sig ∧ status ≠ stOk ∧ status ≠ stDeferred then some (dFenceId d.bytes, dFenceValue d.bytes) else none }
  else s

/-- The end of a descriptor whose SIGNAL, if any, names a fence that it may set. -/
def State.finish (s : State) (d : Running) (status result : Nat) : State := s.finishWith d (dSignal d.bytes) status result

/-! ### Fetching and starting -/

/-- Fetch the next available descriptor of ring `i` (R99); a read error stops the ring with CAUSE 2. -/
def State.fetch (s : State) (i : Nat) (data : Option (List Byte)) : State :=
  let h := s.reg (HIF_SQ_HEAD i)
  if s.bit HIF_STATUS_READY = false ∨ s.svc = 3 ∨ s.svc = 4 ∨ s.sqOn i = false ∨ h = s.reg (HIF_SQ_TAIL i) ∨ (s.cq (s.fld (HIF_SQ_CTRL_CQ i))).stalled then s
  else
    match data with
    | none => s.stopSq i 2 h
    | some b =>
      let r := s.sq i
      (s.setSq i { r with store := r.store ++ [b] }).setReg (HIF_SQ_HEAD i) ((h + 1) % 2 ^ 32)

/-- A fence that no descriptor can set: fence 0 and the bound ones (R127, R135). -/
def State.fixedFence (s : State) (f : Nat) : Bool := f = 0 || s.bound f

/-- The checks made when a descriptor reaches the head of its ring (R639), with RESULT (R121). -/
def State.headCheck (s : State) (b : List Byte) : Option (Nat × Nat) :=
  if dOpcode b ∉ opcodes then some (stBadOpcode, 0)
  else if 32 ≤ dFlags b ∨ (dWait b ∧ dSignal b) ∨ (dSignal b ∧ dOpcode b = 0x02) then some (stBadField, 1)
  else if (dWait b ∨ dSignal b) ∧ 4096 ≤ dFenceId b then some (stBadField, 4)
  else if dSignal b ∧ s.fixedFence (dFenceId b) then some (stBadField, 4)
  else if dOpcode b = 0x02 ∧ s.fixedFence (leAt b 16 4) then some (stBadField, 16)
  else none

/-- The wait condition of a descriptor holds (R129); a wait on a broken fence is not satisfied (R482). -/
def State.waitDone (s : State) (b : List Byte) : Bool :=
  decide (dFenceId b ∉ s.hif.broken) && decide (dFenceValue b ≤ s.fence (dFenceId b))

/-- The ring that last started a descriptor at priority `p`; none after reset, so that the search starts at ring 0. -/
def lastDflt (_ : Nat) : Nat := 31

/-- The rings in round-robin order at priority `p` (R100). -/
def State.rrOrder (s : State) (p : Nat) : List Nat :=
  (List.range 32).map fun j => (sget lastDflt s.hif.lastRing p + 1 + j) % 32

/-- The ring that starts next among those that `ready` allows: the highest priority, then round robin (R100). -/
def State.pickRing (s : State) (ready : Nat → Bool) : Option Nat :=
  let at' (p : Nat) := (s.rrOrder p).find? fun i => decide (s.fld (HIF_SQ_CTRL_PRIO i) = p) && ready i
  (at' 3).or ((at' 2).or ((at' 1).or (at' 0)))

/-- A descriptor of ring `i` starts to execute. -/
def State.startExec (s : State) (i : Nat) (b : List Byte) : State :=
  { s with hif := { s.hif with running := s.hif.running ++ [{ sq := i, bytes := b }],
                               lastRing := sput lastDflt s.hif.lastRing (s.fld (HIF_SQ_CTRL_PRIO i)) i } }

/-- The head descriptor of ring `i` is checked and then executes or waits (R129, R639). -/
def State.startHead (s : State) (i : Nat) : State :=
  let r := s.sq i
  match r.store with
  | [] => s
  | b :: rest =>
    let s := s.setSq i { r with store := rest }
    match s.headCheck b with
    | some (st, res) => s.finishWith { sq := i, bytes := b } (dSignal b && !s.fixedFence (dFenceId b)) st res
    | none =>
      if dWait b ∧ s.waitDone b = false then
        s.setSq i { store := rest, waiting := some { bytes := b, since := s.tb.now, tmo := s.reg (HIF_SQ_FTMO i) } }
      else s.startExec i b

/-- A ring whose next descriptor can be taken (R100): enabled, not held by a wait, with a fetched descriptor. -/
def State.sqReady (s : State) (i : Nat) : Bool := s.sqOn i && decide ((s.sq i).waiting = none) && decide ((s.sq i).store ≠ [])

/-- Start the next descriptor (R100). -/
def State.startNext (s : State) : State :=
  match s.pickRing s.sqReady with
  | none => s
  | some i => s.startHead i

/-- The wait of ring `i` is satisfied. -/
def State.waitSatisfied (s : State) (i : Nat) : Bool :=
  match (s.sq i).waiting with
  | none => false
  | some w => s.waitDone w.bytes

/-- Release the best of the satisfied waits. -/
def State.releaseOne (s : State) : State :=
  match s.pickRing s.waitSatisfied with
  | none => s
  | some i =>
    match (s.sq i).waiting with
    | none => s
    | some w => (s.setSq i { s.sq i with waiting := none }).startExec i w.bytes

/-- Release `n` waits in the order of R100. -/
def State.releaseMany (s : State) : Nat → State
  | 0 => s
  | n + 1 => s.releaseOne.releaseMany n

/-- Some ring waits on the tick fence with its condition met. -/
def State.tickWaitMet (s : State) : Bool :=
  (List.range 32).any fun i =>
    match (s.sq i).waiting with
    | none => false
    | some w => decide (dFenceId w.bytes = 0) && s.waitDone w.bytes

/-- Every satisfied wait is released (R129); one on fence 0 at or after B + 2 µs (R130). -/
def State.releaseWaits (s : State) : State :=
  let s := if s.tick.running ∧ s.tickWaitMet then s.runTo (s.tick.begin + 2 * unitUs) else s
  s.releaseMany 32

/-- The entry of ring `r` that no message reported has reached COAL_US (R112). -/
def State.coalesce (s : State) (r : RingId) : State :=
  match r with
  | .sq _ => s
  | .cq c =>
    let q := s.cq c.val
    if q.unreported = 0 then s
    else
      let s := s.runTo (q.oldest + max 1 (s.fld (HIF_CQ_CTRL_COAL_US c.val)) * unitUs)
      (s.setCq c.val { q with unreported := 0 }).sendVec (s.fld (HIF_CQ_CTRL_VEC c.val))
  | .eq e =>
    let q := s.eq e.val
    if q.unreported = 0 then s
    else
      let s := s.runTo (q.oldest + max 1 (s.fld (HIF_EQ_CTRL_COAL_US e.val)) * unitUs)
      (s.setEq e.val { q with unreported := 0 }).sendVec (s.fld (HIF_EQ_CTRL_VEC e.val))

/-- A HIF_FBIND write (R138): binding fence 0 or a fence already bound under another k is dropped. -/
def State.writeFbind (s : State) (k v : Nat) : State :=
  let f := bitsOf v 0 12
  let other := (List.range 22).any fun j => decide (j ≠ k) && s.boundAt j f
  if bitB v 31 ∧ (f = 0 ∨ other) then s.raise HIF_FENCE_STAT_BIND_DROP
  else s.setReg (HIF_FBIND k) (bitsOf v 31 1 * 2 ^ 31 + f)

/-! ### The commands -/

/-- SQ_DOORBELL (R97, R93). -/
def execSqDoorbell (r : Fin 32) (ofs size : Nat) (v : Word) (s : State) : Res :=
  .next (if doorbellOk ofs size then s.ringSq r.val v.toNat else s.raise HIF_STATUS_SIZE_ERR)

/-- CQ_DOORBELL (R105, R93). -/
def execCqDoorbell (r : Fin 32) (ofs size : Nat) (v : Word) (s : State) : Res :=
  .next (if doorbellOk ofs size then s.ringCq r.val v.toNat else s.raise HIF_STATUS_SIZE_ERR)

/-- EQ_DOORBELL (R105, R93). -/
def execEqDoorbell (r : Fin 8) (ofs size : Nat) (v : Word) (s : State) : Res :=
  .next (if doorbellOk ofs size then s.ringEq r.val v.toNat else s.raise HIF_STATUS_SIZE_ERR)

/-- RING_ENABLE (R96): a CTRL write with EN 1. -/
def execRingEnable (r : RingId) (ctrl : Word) (s : State) : Res :=
  .next (s.onBlock HIF_STATUS (s.writeRingCtrl r (setBits ctrl.toNat 0 1 1)))

/-- RING_DISABLE (R123): a CTRL write with EN 0. -/
def execRingDisable (r : RingId) (ctrl : Word) (s : State) : Res :=
  .next (s.onBlock HIF_STATUS (s.writeRingCtrl r (setBits ctrl.toNat 0 1 0)))

/-- The 64 bytes of a descriptor as read from host memory, byte 0 in bits 7 – 0. -/
def descBytes (d : BitVec 512) : List Byte := leBytes 64 d.toNat

/-- DESCRIPTOR_FETCH (R99). -/
def execDescriptorFetch (r : Fin 32) (data : Option (BitVec 512)) (s : State) : Res := .next (s.fetch r.val (data.map descBytes))

/-- DESCRIPTOR_START (R100). -/
def execDescriptorStart (s : State) : Res := .next s.startNext

/-- FENCE_WAIT_RELEASE (R129). -/
def execFenceWaitRelease (s : State) : Res := .next s.releaseWaits

/-- COMPLETION_POST (R104). -/
def execCompletionPost (c : Fin 32) (written : Bool) (s : State) : Res := .next (s.postCompletion c.val written)

/-- MSIX_COALESCE_TIMEOUT (R112). -/
def execMsixCoalesceTimeout (r : RingId) (s : State) : Res := .next (s.coalesce r)

/-- FENCE_BIND (R138). -/
def execFenceBind (k : Fin 22) (v : Word) (s : State) : Res := .next (s.onBlock HIF_STATUS (s.writeFbind k.val v.toNat))

end Sys2Proof.Machine
end

