-- ==== Sys2Proof/Machine/Descriptors.lean ====
section
/-! DEFINITION. The flow that every opcode shares (04_host_rings_and_descriptors.md): the table of R116, the checks of
R119 in the two steps of R120, staging (R114, R71), the journal of a pair (R445, R446), NOP, FENCE and fence timeouts. -/

namespace Sys2Proof.Machine

/-! ### Pair roles (R441) -/

def tdmDown : Nat := 0
def tdmSearch : Nat := 1
def tdmLeader : Nat := 2
def tdmSolo : Nat := 3
def tdmWheeler : Nat := 4
def tdmIsolated : Nat := 5
def tdmResync : Nat := 6
def tdmFaulty : Nat := 7

/-- TDM_STATE. -/
def State.role (s : State) : Nat := s.fld TDM_STATE_v

/-- The unit journals what it executes: LEADER or LEAD_SOLO (R445, R447). -/
def State.journals (s : State) : Bool := s.role = tdmLeader || s.role = tdmSolo

/-- The unit takes commands as a wheeler does (R115). -/
def State.follows (s : State) : Bool := s.role = tdmWheeler || s.role = tdmIsolated || s.role = tdmResync

/-- The unit's outputs transmit (R441). -/
def State.transmits (s : State) : Bool := s.role = tdmDown || s.journals

/-- The pair checks every segment before release: LEADER or WHEELER (R441, R452). -/
def State.inPair (s : State) : Bool := s.role = tdmLeader || s.role = tdmWheeler

/-! ### The opcode table (R116, R117) -/

/-- The Pair column. -/
inductive PairCol where
  | e | j | l
  deriving DecidableEq, Repr

/-- The TICK_BOUND column. -/
inductive TickCol where
  | ignored | honoured | implied
  deriving DecidableEq, Repr

/-- A row of R116 with the body bytes that R117 lists (start, length). -/
structure OpRow where
  cls : Nat
  pair : PairCol
  tick : TickCol
  used : List (Nat × Nat)
  deriving DecidableEq, Repr

/-- The row of an opcode. -/
def opRow (op : Nat) : OpRow :=
  match op with
  | 0x02 => ⟨0, .e, .ignored, [(16, 4), (24, 8)]⟩
  | 0x10 => ⟨1, .j, .honoured, [(16, 25)]⟩
  | 0x11 => ⟨1, .l, .ignored, [(16, 2), (20, 4), (32, 12), (48, 8)]⟩
  | 0x12 => ⟨1, .j, .honoured, [(16, 2), (40, 4), (48, 8)]⟩
  | 0x20 => ⟨1, .j, .honoured, [(16, 12), (32, 8)]⟩
  | 0x21 => ⟨1, .j, .honoured, [(16, 4), (24, 4), (32, 8)]⟩
  | 0x28 => ⟨1, .j, .honoured, [(16, 1), (20, 20)]⟩
  | 0x30 => ⟨1, .j, .implied, [(16, 2), (20, 8), (32, 16)]⟩
  | 0x38 => ⟨2, .j, .implied, [(16, 12), (32, 16)]⟩
  | 0x40 => ⟨2, .j, .honoured, [(16, 3), (20, 8), (32, 8)]⟩
  | 0x48 => ⟨2, .j, .honoured, [(16, 2), (20, 8), (32, 8)]⟩
  | 0x50 => ⟨2, .j, .honoured, [(16, 1), (20, 20)]⟩
  | 0x58 => ⟨3, .j, .ignored, [(16, 12), (32, 32)]⟩
  | 0x60 => ⟨4, .l, .honoured, [(16, 2), (24, 4), (32, 8)]⟩
  | 0x68 => ⟨2, .j, .honoured, [(16, 2), (20, 4), (28, 4)]⟩
  | 0x70 => ⟨5, .l, .ignored, [(24, 4), (32, 8)]⟩
  | 0x71 => ⟨5, .l, .ignored, [(24, 4), (32, 32)]⟩
  | 0x78 => ⟨6, .l, .ignored, [(16, 1), (20, 24)]⟩
  | 0x7C => ⟨6, .j, .ignored, [(16, 28), (48, 8)]⟩
  | 0x80 => ⟨7, .j, .ignored, [(16, 1), (24, 4), (32, 8)]⟩
  | 0xF0 => ⟨7, .e, .implied, [(16, 1), (24, 40)]⟩
  | _ => ⟨0, .e, .ignored, []⟩

/-- An opcode whose body names a HOST_ADDR (R117). -/
def hasHostAddr (op : Nat) : Bool :=
  op ∈ [0x10, 0x11, 0x20, 0x21, 0x28, 0x30, 0x40, 0x48, 0x50, 0x60, 0x70, 0x71, 0x78, 0x7C]

/-- The fields of R117 that several opcodes share. -/
def dByteLen (b : List Byte) : Nat := leAt b 24 4
def dHostAddr (b : List Byte) : Nat := leAt b 32 8

/-- A body byte that R117 does not list is not 0. -/
def reservedBad (used : List (Nat × Nat)) (b : List Byte) (i : Nat) : Bool :=
  byteAt b i ≠ 0 && !(used.any fun u => decide (u.1 ≤ i) && decide (i < u.1 + u.2))

/-- The least offset at which a check fails (R121). -/
def leastBad (cs : List (Nat × Bool)) : Option Nat :=
  cs.foldl (fun m c => if c.2 then some (match m with | none => c.1 | some k => min k c.1) else m) none

/-! ### The checks when execution begins (R119, R639) -/

/-- MIRROR does not fit the opcode on the leader of a pair (R115). -/
def State.mirrorBad (s : State) (row : OpRow) (b : List Byte) : Bool :=
  s.journals && (match row.pair with | .j => !dMirror b | .l => dMirror b | .e => false)

/-- The wheeler refuses it (R115). -/
def State.wheelerRefuses (s : State) (row : OpRow) (b : List Byte) : Bool :=
  s.follows && (match row.pair with | .j => true | .l => false | .e => dMirror b)

/-- The descriptor is journalled (R115, R445). -/
def State.journalled (s : State) (row : OpRow) (b : List Byte) : Bool :=
  s.journals && (match row.pair with | .j => true | .l => false | .e => dMirror b)

/-- The rules of one opcode beside the shared ones: a further NOT_PERMITTED, fields out of range by offset, RETIRED and
NO_RESOURCE before the payload is read, and the conditions of the payload (R119, R120). -/
structure OpChecks where
  deny : Bool := false
  bad : List (Nat × Bool) := []
  retired : Bool := false
  full : Bool := false
  payload : List Byte → Option (Nat × Nat) := fun _ => none

/-- Staged descriptors device-wide (R119). -/
def stagedMax : Nat := 8192

/-- Staged descriptors. -/
def State.stagedDescs (s : State) : Nat :=
  (s.staged.filter fun x => match x with | .desc .. => true | .reg .. => false).length
    + s.mtr.feeds.foldl (fun n kv => n + (kv.2.staged.filter fun c => c.2.1.isSome).length) 0

/-- Opcodes that the boundary list never holds: CUE_STEP waits in the cue store, a GAIT_CHANGE is pending in the tick unit,
and a METER_CONFIG waits for its latch boundary. -/
def ownStaging : List Nat := [0x30, 0x38, 0x60]

/-- Opcodes whose effect lies outside latched state (R446): frames to nodes and the swap schedule. -/
def outsideLatch : List Nat := [0x58, 0x7C, 0x80]

/-- The descriptor will be staged (R114): an honoured opcode with TICK_BOUND or REG_STAGE, while RUN is 1 (R72). -/
def State.willStage (s : State) (b : List Byte) : Bool :=
  s.run && decide (dOpcode b ∉ ownStaging)
    && (match (opRow (dOpcode b)).tick with | .ignored => false | .honoured => dTickBound b | .implied => true)

/-- The checks that depend only on the descriptor and the state, in the order of R119. -/
def State.firstCheck (s : State) (d : Running) (c : OpChecks) : Option (Nat × Nat) :=
  let b := d.bytes
  let op := dOpcode b
  let row := opRow op
  let bad := leastBad (c.bad ++ (1, s.mirrorBad row b) :: (32, hasHostAddr op && decide (dHostAddr b % 64 ≠ 0))
    :: (List.range 48).map fun i => (16 + i, reservedBad row.used b (16 + i)))
  if s.bridleOk 0 0 row.cls = false ∨ s.wheelerRefuses row b ∨ c.deny then some (stNotPermitted, 0)
  else match bad with
    | some o => some (stBadField, o)
    | none =>
      if c.retired then some (stRetired, 0)
      else if c.full ∨ (s.willStage b ∧ stagedMax ≤ s.stagedDescs) then some (stNoResource, 0)
      else none

/-! ### Staging (R71, R114, R143) -/

/-- The staging cut-off of the next boundary has passed (R68, R71). -/
def State.pastCutoff (s : State) : Bool := s.tick.next ≤ s.tb.now + 2 * unitUs

/-- The number of the next boundary; that of a first boundary is its grid index (R62). -/
def State.nextNo (s : State) : Nat := if s.tick.running then s.tickNo + 1 else (s.tick.next - s.tick.phase) / s.tick.period

/-- The number of the boundary for which a descriptor stages now (R143). -/
def State.stageTick (s : State) : Nat := s.nextNo + b2n s.pastCutoff

/-- Stage a descriptor whose execution completes now. -/
def State.stage (s : State) (d : Running) (payload : List Byte) (due : Option Nat) : State :=
  { s with staged := s.staged ++
      [.desc { d with staged := dTickBound d.bytes || dOpcode d.bytes = 0xF0 } payload (due.isNone && s.pastCutoff) due] }

/-! ### The journal (R445 – R447) -/

/-- The leader sends an entry to the wheeler and keeps it until its JACK (R445). -/
def State.sendJournal (s : State) (origin : Nat) (d : Running) : State :=
  let i := s.tdm.index + 1
  let e : JournalEntry := { index := i, origin := origin, d := { d with index := i }, sentAt := s.tb.now }
  { s with tdm := { s.tdm with index := i, journal := s.tdm.journal ++ [e] } }.sendTdm (.jrn e)

/-- An entry is committed or applied: TDM_JRN_LAST and the fence bound to the journal follow (R137, R447). -/
def State.journalDone (s : State) (i : Nat) : State := (s.setReg64 TDM_JRN_LAST i).source 1 i

/-- The commit boundary of an entry whose JACK has arrived (R446): the boundary that a descriptor staged 12 µs from now
would take. -/
def State.commitTick (s : State) : Nat :=
  if s.run then s.nextNo + b2n (decide (s.tick.next ≤ s.tb.now + 14 * unitUs)) else 0

/-- In LEAD_SOLO an entry commits when it is made; a wheeler that is to join before its commit boundary gets it as JRN and JCMT
(R447, R468). -/
def State.soloEntry (s : State) (origin : Nat) (d : Running) : State :=
  let i := s.tdm.index + 1
  let c := s.commitTick
  let s := ({ s with tdm := { s.tdm with index := i } }).journalDone i
  match s.tdm.joinAt with
  | some j => if j < c then (s.sendTdm (.jrn { index := i, origin := origin, d := { d with index := i }, sentAt := s.tb.now })).sendTdm (.jcmt i c) else s
  | none => s

/-- The boundary that R143 gives a descriptor whose execution completes now; a journalled one counts 12 µs later (R446). -/
def State.boundFor (s : State) (d : Running) : Nat := if d.index = 0 then s.stageTick else d.bound

/-! ### Running a descriptor -/

/-- A committed entry acts (R446): on latched state at action (4) of its commit boundary, otherwise at once. -/
def State.commitEffect (s : State) (d : Running) (data : List Byte) (effect : State → Running → List Byte → State) : State :=
  if s.run ∧ dOpcode d.bytes ∉ ownStaging ∧ dOpcode d.bytes ∉ outsideLatch ∧ (opRow (dOpcode d.bytes)).pair ≠ .e then
    s.stage d data (some d.bound)
  else if s.run ∧ dOpcode d.bytes = 0xF0 then s.stage d data (some d.bound)
  else effect s d data

/-- Take the executing descriptor of ring `r` with opcode `op` (the oldest). -/
def State.takeRunning (s : State) (r op : Nat) : Option Running :=
  s.hif.running.find? fun d => decide (d.sq = r) && decide (dOpcode d.bytes = op)

/-- The state without an executing descriptor. -/
def State.dropRunning (s : State) (d : Running) : State :=
  { s with hif := { s.hif with running := s.hif.running.erase d } }

/-- A descriptor that fails has no effect (R120); a refusal by the bridle table is counted (R502), and one of the rider's own
descriptors at the start of Shuset standalone mode is a refused configuration block (R590). -/
def State.failDesc (s : State) (d : Running) (st res : Nat) : State :=
  let cls := (opRow (dOpcode d.bytes)).cls
  let s := if s.mode = 2 ∧ s.svc = 0 then s.raise SHU_STATUS_CFG_BAD else s
  let s := if st = stNotPermitted ∧ s.bridleOk 0 0 cls = false then s.bridleDeny 0 cls else s
  s.finish d st res

/-- What a descriptor that passed every check does: it is journalled, staged, or takes effect; LEAD_SOLO commits at once
(R447). -/
def State.letIn (s : State) (d : Running) (data : List Byte) (effect : State → Running → List Byte → State) : State :=
  if s.journalled (opRow (dOpcode d.bytes)) d.bytes then
    if s.role = tdmSolo then
      (s.soloEntry 0 { d with data := data }).commitEffect { d with data := data, index := s.tdm.index + 1, bound := s.commitTick } data effect
    else s.sendJournal 0 { d with data := data }
  else if s.willStage d.bytes then s.stage d data none
  else effect s d data

/-- Execute descriptor `d`: the checks of R119 in the steps of R120, then `reserve` (what is claimed as it executes, R179,
R198) and `effect`. -/
def State.execute (s : State) (d : Running) (payload : Option (List Byte)) (c : OpChecks)
    (reserve effect : State → Running → List Byte → State) : State :=
  match s.firstCheck d c with
  | some (st, res) => s.failDesc d st res
  | none =>
    match payload with
    | none => s.failDesc d stIntegrity 0
    | some data =>
      match c.payload data with
      | some (st, res) => s.failDesc d st res
      | none => (reserve s d data).letIn d data effect

/-- The execution of ring `r`'s descriptor with opcode `op`; without one nothing happens. -/
def State.runOp (s : State) (r op : Nat) (payload : Option (List Byte)) (c : State → List Byte → OpChecks)
    (reserve effect : State → Running → List Byte → State) : State :=
  match s.takeRunning r op with
  | none => s
  | some d =>
    let s := s.dropRunning d
    s.execute d payload (c s d.bytes) reserve effect

/-- An opcode that claims nothing as it executes. -/
def noReserve (s : State) (_ : Running) (_ : List Byte) : State := s

/-- A descriptor's effect is in force: it completes OK; a staged one reports TICK_NO (R121). -/
def State.done (s : State) (d : Running) : State :=
  s.finish d stOk (if d.staged then s.tickNo else 0)

/-- The payload of an opcode without one. -/
def noPayload : Option (List Byte) := some []

/-! ### NOP and FENCE -/

/-- NOP has no effect (R116). -/
def State.nopEffect (s : State) (d : Running) (_ : List Byte) : State := s.finish d stOk 0

/-- FENCE signals the fence of its body (R134). -/
def State.fenceEffect (s : State) (d : Running) (_ : List Byte) : State :=
  let f := leAt d.bytes 16 4
  let s := if f = 0xFFFFFFFF then s else s.signal f (leAt d.bytes 24 8)
  s.finish d stOk 0

/-- SIG_ID out of range (R119). -/
def fenceChecks (_ : State) (b : List Byte) : OpChecks :=
  { bad := [(16, decide (leAt b 16 4 ≠ 0xFFFFFFFF ∧ 4096 ≤ leAt b 16 4))] }

/-- A register that is a legal target of REG_STAGE: every field RWT or reserved, and some field RWT (R118). -/
def stageTarget (off : Nat) : Bool :=
  let w := wordAt off
  off % 4 = 0 && (regAt off).isSome && decide (w.rwt ≠ 0)
    && decide (w.rw = 0 ∧ w.rws = 0 ∧ w.rwl = 0 ∧ w.w1c = 0 ∧ w.wo = 0 ∧ w.cor = 0)

end Sys2Proof.Machine
end

