-- ==== Sys2Proof/Machine/Layers.lean ====
section
/-! DEFINITION. Layers (05_fences_leases_and_ordering.md, 06_layer_ingest.md): registration and its space, generations and
leases of host-memory layers, retirement. -/

namespace Sys2Proof.Machine

/-! ### Space in a DRAM region (R179, R190, R198) -/

/-- Insert a used span in address order. -/
def insSpan (x : Nat × Nat) : List (Nat × Nat) → List (Nat × Nat)
  | [] => [x]
  | y :: ys => if x.1 ≤ y.1 then x :: y :: ys else y :: insSpan x ys

/-- The gaps of `[at', stop)` that used spans, in address order, leave. -/
def gapsFrom (stop : Nat) : Nat → List (Nat × Nat) → List (Nat × Nat)
  | at', [] => if at' < stop then [(at', stop - at')] else []
  | at', (a, n) :: us => (if at' < a then [(at', a - at')] else []) ++ gapsFrom stop (max at' (a + n)) us

/-- The free spans of a region (address, size). -/
def freeSpans (base size : Nat) (used : List (Nat × Nat)) : List (Nat × Nat) :=
  gapsFrom (base + size) base ((used.filter fun u => decide (u.2 ≠ 0)).foldr insSpan [])

/-- The largest free span, in bytes. -/
def largestFree (base size : Nat) (used : List (Nat × Nat)) : Nat :=
  (freeSpans base size used).foldl (fun m g => max m g.2) 0

/-- The bytes in free spans. -/
def totalFree (base size : Nat) (used : List (Nat × Nat)) : Nat :=
  (freeSpans base size used).foldl (fun m g => m + g.2) 0

/-- A place for `need` bytes: the low end of a free span that holds them.  The spec does not say which span is taken where
several do, so the choice is a free value (log entry 8). -/
def State.place (s : State) (base size : Nat) (used : List (Nat × Nat)) (need : Nat) : Option (State × Nat) :=
  match (freeSpans base size used).filter fun g => decide (need ≤ g.2) with
  | [] => none
  | [g] => some (s, g.1)
  | g :: gs => some (s.drew, ((g :: gs).getD (s.freeVal (gs.length + 1)) g).1)

/-- Two regions of DRAM share an address. -/
def overlap (a n b m : Nat) : Bool := decide (0 < n ∧ 0 < m ∧ a < b + m ∧ b < a + n)

def State.mapBase (s : State) : Nat := s.reg64 FE_MAP_DRAM_BASE
def State.mapSize (s : State) : Nat := s.reg64 FE_MAP_DRAM_SIZE
def State.lyrBase (s : State) : Nat := s.reg64 FE_LYR_DRAM_BASE
def State.lyrSize (s : State) : Nat := s.reg64 FE_LYR_DRAM_SIZE

/-- The size of the device region, which ends the DRAM that training found (R190). -/
def devRegion : Nat := 0x20000000

/-- The region lies below the device region and inside the trained DRAM (R190). -/
def State.inDram (s : State) (base size : Nat) : Bool := base + size ≤ s.reg64 GLB_DEVREG_BASE

/-- The layer region and the map region may be used (R190). -/
def State.lyrOk (s : State) : Bool := s.inDram s.lyrBase s.lyrSize && !overlap s.lyrBase s.lyrSize s.mapBase s.mapSize
def State.mapOk (s : State) : Bool := s.inDram s.mapBase s.mapSize && !overlap s.lyrBase s.lyrSize s.mapBase s.mapSize

/-! ### The registered layers -/

def noLayer (_ : Nat) : Option Layer := none

def State.layer (s : State) (i : Nat) : Option Layer := sget noLayer s.fe.layers i

def State.setLayer (s : State) (i : Nat) (l : Option Layer) : State := { s with fe := { s.fe with layers := sput noLayer s.fe.layers i l } }

def State.setRegistering (s : State) (i : Nat) (l : Option Layer) : State :=
  { s with fe := { s.fe with registering := sput noLayer s.fe.registering i l } }

/-- Every layer registered or accepted for registration. -/
def State.allLayers (s : State) : List (Nat × Layer) :=
  (s.fe.layers ++ s.fe.registering).filterMap fun kv => kv.2.map fun l => (kv.1, l)

/-- The spans of the layer region in use. -/
def State.lyrUsed (s : State) : List (Nat × Nat) := s.allLayers.map fun kv => (kv.2.addr, kv.2.size)

/-- Bytes that a layer takes at pipeline depth `d` (R179). -/
def layerBytes (d : Nat) (l : Layer) : Nat :=
  match l.typ with
  | 0 => if l.guard then l.width * l.height * 8 else 0
  | 1 => (d + 2) * l.width * l.height * 8
  | 2 => (d + 1) * l.srcCount * l.width * 2
  | _ => d * l.width * l.height * l.format * 2

/-- TK_CTRL.DEPTH in force. -/
def State.depth (s : State) : Nat := s.fld TK_CTRL_DEPTH

/-! ### LAYER_REGISTER (R160, R161, R162) -/

/-- The layer that a LAYER_REGISTER defines. -/
def layerOfDesc (b : List Byte) : Layer :=
  { typ := byteAt b 18, format := byteAt b 19, width := leAt b 20 2, height := leAt b 22 2, stride := leAt b 24 4,
    srcIndex := leAt b 28 2, srcCount := leAt b 30 2, guard := bitB (byteAt b 40) 0,
    bufs := if byteAt b 18 = 0 then [{ gen := 0, addr := dHostAddr b }] else [] }

/-- Bytes per pixel of a host format's layout (R162); 0 for a layout that does not exist. -/
def layoutBytes (format : Nat) : Nat :=
  match format % 16 with
  | 1 => 4 | 2 => 4 | 3 => 4 | 4 => 8 | 5 => 2 | _ => 0

/-- A size of 1 – 16,384. -/
def sizeBad (n : Nat) : Bool := n = 0 || 16384 < n

/-- Another layer than `id` holds stream `i`. -/
def State.streamHeld (s : State) (id i : Nat) : Bool :=
  s.allLayers.any fun kv => decide (kv.1 ≠ id ∧ kv.2.typ = 1 ∧ kv.2.srcIndex = i)

/-- The universes of `l` overlap those of another type 2 layer. -/
def State.universesHeld (s : State) (id : Nat) (l : Layer) : Bool :=
  s.allLayers.any fun kv => decide (kv.1 ≠ id ∧ kv.2.typ = 2) && overlap l.srcIndex l.srcCount kv.2.srcIndex kv.2.srcCount

/-- Universes registered in all. -/
def State.universeCount (s : State) : Nat :=
  s.allLayers.foldl (fun n kv => if kv.2.typ = 2 then n + kv.2.srcCount else n) 0

/-- The fields of R160 by type, with the byte offset that a failure reports. -/
def State.layerFields (s : State) (id : Nat) (l : Layer) (addr flags : Nat) : List (Nat × Bool) :=
  match l.typ with
  | 0 =>
    [(19, layoutBytes l.format = 0 || 4 < l.format / 16), (20, sizeBad l.width), (22, sizeBad l.height),
     (24, l.stride % 64 ≠ 0 || decide (l.stride < l.width * layoutBytes l.format)), (28, l.srcIndex ≠ 0), (30, l.srcCount ≠ 0),
     (40, 1 < flags)]
  | 1 =>
    let i := l.srcIndex
    [(19, l.format ≠ 0), (20, i < 16 && l.width ≠ s.fld (FE_STRM_SIZE_WIDTH i)), (22, i < 16 && l.height ≠ s.fld (FE_STRM_SIZE_HEIGHT i)),
     (24, l.stride ≠ 0), (28, 15 < i || s.streamHeld id i || !s.bit (FE_STRM_CTRL_EN i)), (30, l.srcCount ≠ 0), (32, addr ≠ 0), (40, flags ≠ 0)]
  | 2 =>
    [(19, l.format ≠ 1 && l.format ≠ 2), (20, l.width ≠ (if l.format = 2 then 256 else 512)), (22, l.height ≠ l.srcCount),
     (24, l.stride ≠ 0), (28, l.srcIndex = 0 || 63999 < l.srcIndex || s.universesHeld id l),
     (30, l.srcCount = 0 || 256 < l.srcCount || 63999 < l.srcIndex + l.srcCount - 1), (32, addr ≠ 0), (40, flags ≠ 0)]
  | 3 =>
    [(19, l.format = 0 || 6 < l.format), (20, sizeBad l.width || 5242880 < l.width * l.height), (22, sizeBad l.height), (24, l.stride ≠ 0),
     (28, l.srcIndex ≠ 0), (30, l.srcCount ≠ 0), (32, addr ≠ 0), (40, flags ≠ 0)]
  | _ => [(18, true)]

/-- A retirement of layer `i` is pending. -/
def State.retiring (s : State) (i : Nat) : Bool :=
  match s.layer i with
  | none => false
  | some l => l.retiring.isSome

/-- The layer region has no room for `l` (R179, R190). -/
def State.noRoom (s : State) (l : Layer) : Bool :=
  let n := layerBytes s.depth l
  n ≠ 0 && (!s.lyrOk || decide (largestFree s.lyrBase s.lyrSize s.lyrUsed < n))

/-- The checks of a LAYER_REGISTER. -/
def registerChecks (s : State) (b : List Byte) : OpChecks :=
  let id := leAt b 16 2
  let l := layerOfDesc b
  { bad := (16, 1023 < id || ((s.layer id).isSome && !s.retiring id) || (sget noLayer s.fe.registering id).isSome)
      :: s.layerFields id l (dHostAddr b) (byteAt b 40)
    retired := s.retiring id
    full := (l.typ = 2 && decide (4096 < s.universeCount + l.srcCount)) || s.noRoom l }

/-- A LAYER_REGISTER that executes takes its space (R179). -/
def State.registerReserve (s : State) (d : Running) (_ : List Byte) : State :=
  let l := layerOfDesc d.bytes
  let n := layerBytes s.depth l
  if n = 0 then s.setRegistering (leAt d.bytes 16 2) (some l)
  else
    match s.place s.lyrBase s.lyrSize s.lyrUsed n with
    | none => s
    | some (s, a) => s.setRegistering (leAt d.bytes 16 2) (some { l with addr := a, size := n })

/-- A registration comes into force (R160). -/
def State.registerEffect (s : State) (d : Running) (_ : List Byte) : State :=
  let id := leAt d.bytes 16 2
  match sget noLayer s.fe.registering id with
  | none => s.done d
  | some l => ((s.setLayer id (some l)).setRegistering id none).done d

/-! ### LAYER_UPDATE (R147, R148, R150) -/

/-- REL_FENCE of a descriptor is not one that a descriptor may set (R150, R135). -/
def State.relBad (s : State) (b : List Byte) : Bool :=
  let f := leAt b 40 4
  f ≠ 0xFFFFFFFF && (f = 0 || 4096 ≤ f || s.bound f)

/-- The fence of a descriptor's REL fields; 0xFFFF_FFFF sets none. -/
def relOf (b : List Byte) : Option (Nat × Nat) := if leAt b 40 4 = 0xFFFFFFFF then none else some (leAt b 40 4, leAt b 48 8)

/-- The newest generation that a host layer has latched or accepted (R147). -/
def Layer.newest (l : Layer) : Nat :=
  match l.bufs.getLast? with
  | some h => h.gen
  | none => l.gen

/-- The difference of R147 does not lie from 1 to 2^31 − 1. -/
def genBad (g n : Nat) : Bool := let k := idxDiff g n; k = 0 || 2 ^ 31 ≤ k

/-- The checks of a LAYER_UPDATE. -/
def updateChecks (s : State) (b : List Byte) : OpChecks :=
  let id := leAt b 16 2
  match s.layer id with
  | none => { bad := [(16, true)] }
  | some l =>
    { bad := [(16, l.typ ≠ 0), (20, genBad (leAt b 20 4) l.newest), (40, s.relBad b)], retired := l.retiring.isSome }

/-- A generation is accepted for the next latch (R147). -/
def State.updateEffect (s : State) (d : Running) (_ : List Byte) : State :=
  let id := leAt d.bytes 16 2
  match s.layer id with
  | none => s.finish d stOk 0
  | some l =>
    let h : HostBuf := { gen := leAt d.bytes 20 4, addr := dHostAddr d.bytes, rel := relOf d.bytes, late := s.run && s.pastCutoff }
    (s.setLayer id (some { l with bufs := l.bufs ++ [h] })).finish d stOk 0

/-- Set a REL_FENCE. -/
def State.signalRel (s : State) (r : Option (Nat × Nat)) : State :=
  match r with
  | none => s
  | some (f, v) => s.signal f v

/-- Action (5) of R70 for a host-memory layer (R147 – R149): the newest generation that beat the cut-off is latched, and
every lease that ends sets its fence. -/
def State.latchHost (s : State) (i : Nat) (l : Layer) : State :=
  let now := l.bufs.filter fun h => !h.late
  let rest := (l.bufs.filter fun h => h.late).map fun h => { h with late := false }
  let s := now.foldl (fun s h => s.signalRel h.rel) s
  match now.getLast? with
  | none => s.setLayer i (some { l with bufs := rest })
  | some h => s.setLayer i (some { l with bufs := rest, latched := .host h.gen h.addr, gen := h.gen })

/-! ### LAYER_RETIRE (R151) -/

/-- The checks of a LAYER_RETIRE. -/
def retireChecks (s : State) (b : List Byte) : OpChecks :=
  let id := leAt b 16 2
  match s.layer id with
  | none => { bad := [(16, true)] }
  | some l => { bad := [(40, s.relBad b)], retired := l.retiring.isSome }

/-- A LAYER_RETIRE that executes makes the retirement pending. -/
def State.retireReserve (s : State) (d : Running) (_ : List Byte) : State :=
  let id := leAt d.bytes 16 2
  match s.layer id with
  | none => s
  | some l => s.setLayer id (some { l with retiring := some d })

/-- CUE_DISCARDED for the steps of one layer (R235, R237). -/
def State.postDiscard (s : State) (layer cause : Nat) (cs : List CueStep) : State :=
  if cs = [] then s
  else s.postNow 0x26 0 0 [(16, 2, layer), (18, 1, cause), (20, 4, cs.length),
    (24, 4, cs.foldl (fun m c => min m c.target) (2 ^ 64) % 2 ^ 32), (28, 4, s.tickNo % 2 ^ 32)]

/-- Discard the steps of layer `i` that satisfy `p`. -/
def State.discardCues (s : State) (i cause : Nat) (p : CueStep → Bool) : State :=
  let gone := s.fe.cues.filter fun c => decide (c.layer = i) && p c
  let kept := s.fe.cues.filter fun c => !(decide (c.layer = i) && p c)
  let own (x : Nat × Nat) : Bool := (match s.shu.list with | some l => decide (l.layer = i) | none => false) && gone.any fun c => decide (c.target = x.1)
  let shu := { s.shu with shown := s.shu.shown.filter fun x => !own x }
  ({ s with fe := { s.fe with cues := kept }, shu := shu }).postDiscard i cause gone

/-- Discard steps of every layer that satisfy `p`, one event for each layer affected. -/
def State.discardAllCues (s : State) (cause : Nat) (p : CueStep → Bool) : State :=
  let layers := (s.fe.cues.filter p).map fun c => c.layer
  layers.eraseDups.foldl (fun s i => s.discardCues i cause p) s

/-- A retirement comes into force (R149, R151, R235): the layer is free, the leases that end set their fences, its space is
released and its cue steps are discarded. -/
def State.retireNow (s : State) (d : Running) (_ : List Byte) : State :=
  let id := leAt d.bytes 16 2
  match s.layer id with
  | none => s.done d
  | some l =>
    let s := l.bufs.foldl (fun s h => s.signalRel h.rel) s
    let s := (s.setLayer id none).signalRel (relOf d.bytes)
    (s.discardCues id 0 fun _ => true).done d

/-- A LAYER_RETIRE without TICK_BOUND is in force at the next boundary while RUN is 1 (R144, log entry 9). -/
def State.retireEffect (s : State) (d : Running) (data : List Byte) : State :=
  if s.run then { s with staged := s.staged ++ [.desc d data false none] } else s.retireNow d data

/-! ### The commands -/

/-- LAYER_REGISTER (R160). -/
def execLayerRegister (r : Fin 32) (s : State) : Res :=
  .next (s.runOp r.val 0x10 noPayload registerChecks State.registerReserve State.registerEffect)

/-- LAYER_UPDATE (R147). -/
def execLayerUpdate (r : Fin 32) (s : State) : Res :=
  .next (s.runOp r.val 0x11 noPayload updateChecks noReserve State.updateEffect)

/-- LAYER_RETIRE (R151). -/
def execLayerRetire (r : Fin 32) (s : State) : Res :=
  .next (s.runOp r.val 0x12 noPayload retireChecks State.retireReserve State.retireEffect)

end Sys2Proof.Machine
end

