-- ==== Sys2Proof/Machine/Errors.lean ====
section
/-! DEFINITION. Memory errors (18_integrity_and_error_handling.md): what the decoder finds, poison, ranks, the containment of
R482 and records. -/

namespace Sys2Proof.Machine

/-- KIND and REGION codes of R489. -/
def regionOf : Consumer → Nat
  | .other => 0
  | .mapBlock _ => 1
  | .layerTile _ => 2
  | .frameStore _ => 3
  | .guardCopy _ => 4
  | .rider => 5
  | .tileCache => 6
  | .mapCache => 7
  | .temp _ => 8
  | .trim _ => 8
  | .ladder _ => 8
  | .retired _ => 8
  | .retiredNode _ _ => 8
  | .presence _ => 8
  | .curbTerm _ => 8
  | .phasor _ => 8
  | .cue _ => 9
  | .eventItem _ _ => 10
  | .fence _ => 11
  | .lineBuffer => 12
  | .releaseBuffer => 13
  | .secure => 14

def noRecord (_ : Nat) : Option ErrRecord := none

/-- A record of an error of the present instant. -/
def State.errRecord (s : State) (sev memid kind region addr flags : Nat) : ErrRecord :=
  { sev := sev, memid := memid, kind := kind, region := region, first := addr, last := addr, flags := flags,
    firstAt := s.tb.now, lastAt := s.tb.now, tick := s.tickNo % 2 ^ 32 }

/-- An error joins the open record of its rank, or opens one (R486). -/
def State.record (s : State) (r : ErrRecord) : State :=
  let new := match sget noRecord s.mem.records r.sev with
    | none => r
    | some o => { o with count := satAdd 16 o.count 1, last := r.first, lastAt := r.firstAt, words := o.words ++ r.words }
  { s with mem := { s.mem with records := sput noRecord s.mem.records r.sev (some new) } }

/-- A DEVICE_FAULT: the fail-safe sequencer acts on the first (R486, R493). -/
def State.deviceFault (s : State) (memid kind region addr : Nat) : State :=
  if s.mem.fault.isSome ∨ s.svc = 4 then s
  else { s with mem := { s.mem with fault := some (s.errRecord 3 memid kind region addr 0) } }

/-- The highest rank with an open record, which is in handling (R486). -/
def State.handling (s : State) : Option (Nat × ErrRecord) :=
  match sget noRecord s.mem.records 2, sget noRecord s.mem.records 1, sget noRecord s.mem.records 0 with
  | some r, _, _ => some (2, r)
  | none, some r, _ => some (1, r)
  | none, none, some r => some (0, r)
  | none, none, none => none

/-- A fence counter is lost (R482): the fence is broken. -/
def State.breakFence (s : State) (f : Nat) : State :=
  if f = 0 ∨ 4096 ≤ f ∨ f ∈ s.hif.broken then s else { s with hif := { s.hif with broken := s.hif.broken ++ [f] } }

/-- An event queue item is lost (R482): it leaves and counts as DROPPED in the pending GAP. -/
def State.loseItem (s : State) (q n : Nat) : State :=
  let x := s.queue q
  if n < x.items.length then s.setQueue q { x with items := x.items.eraseIdx n, gap := some (s.lossGap x.gap 1 0) } else s

/-- A cue record is lost (R482): its whole step goes. -/
def State.loseCue (s : State) (n : Nat) : State :=
  match s.fe.cues[n]? with
  | none => s
  | some c => ({ s with fe := { s.fe with cues := s.fe.cues.eraseIdx n } }).postDiscard c.layer 2 [c]

/-- Rider code or data is lost (R482): a restart follows the close of the open UNIT_FAULT record (R485), or comes at once for a
poisoned read, which opens none. -/
def State.loseRider (s : State) (open' : Bool) : State :=
  match open', sget noRecord s.mem.records 2 with
  | true, some r => { s with mem := { s.mem with records := sput noRecord s.mem.records 2 (some { r with restart := true }) } }
  | _, _ => { s with mem := { s.mem with riderDue := true } }

/-- A write replaces the poison of the words it reaches (R475): `n` bytes of DRAM from `a`. -/
def State.clearPoison (s : State) (a n : Nat) : State :=
  { s with mem := { s.mem with poison := s.mem.poison.filter fun p => !(decide (p.1 ≤ 5 ∧ a ≤ p.2 ∧ p.2 < a + n)) } }

/-- The effect of R482 on what the word holds, beyond the reader's own. -/
def State.loseEntry (s : State) (c : Consumer) (open' : Bool) : State :=
  match c with
  | .cue n => s.loseCue n
  | .eventItem q n => s.loseItem q n
  | .fence f => s.breakFence f
  | .rider => s.loseRider open'
  | .secure => s.deviceFault 8 2 14 0
  | .temp _ => { s with mem := { s.mem with resets := s.mem.resets ++ [c] } }
  | .trim _ => { s with mem := { s.mem with resets := s.mem.resets ++ [c] } }
  | .ladder _ => { s with mem := { s.mem with resets := s.mem.resets ++ [c] } }
  | .retiredNode _ _ => { s with mem := { s.mem with resets := s.mem.resets ++ [c] } }
  | .retired _ => { s with mem := { s.mem with resets := s.mem.resets ++ [c] } }
  | .presence _ => { s with mem := { s.mem with resets := s.mem.resets ++ [c] } }
  | .curbTerm _ => { s with mem := { s.mem with resets := s.mem.resets ++ [c] } }
  | .phasor _ => { s with mem := { s.mem with resets := s.mem.resets ++ [c] } }
  | .other => s
  | .mapBlock _ => s
  | .layerTile _ => s
  | .frameStore _ => s
  | .guardCopy _ => s
  | .tileCache => s
  | .mapCache => s
  | .lineBuffer => s
  | .releaseBuffer => s

/-- A cache line is fetched again (R482). -/
def isCache : Consumer → Bool
  | .tileCache => true
  | .mapCache => true
  | .other | .mapBlock _ | .layerTile _ | .frameStore _ | .guardCopy _ | .rider | .temp _ | .trim _ | .ladder _ | .retired _ | .retiredNode _ _
  | .presence _ | .curbTerm _ | .phasor _ | .cue _ | .eventItem _ _ | .fence _ | .lineBuffer | .releaseBuffer | .secure => false

/-- The corrected address is in the repeat table and still inside MEM_REPEAT_WIN (R483). -/
def State.repeats (s : State) (m a : Nat) : Bool :=
  s.mem.corrected.any fun x => decide (x.1 = m ∧ x.2.1 = a) && decide (s.since x.2.2 ≤ max 1 (s.fld MEM_REPEAT_WIN_v) * 3600 * unitSec)

/-- Enter a corrected address into the repeat table of 256. -/
def State.noteCorrected (s : State) (m a : Nat) : State :=
  { s with mem := { s.mem with corrected := (s.mem.corrected ++ [(m, a, s.tb.now)]).drop (s.mem.corrected.length + 1 - 256) } }

/-- A correction (R474, R483): CORRECTED, or DEGRADED for two bits or a repeat. -/
def State.corrected (s : State) (w : BadWord) (two scrub : Bool) : State :=
  let m := w.mem.val
  let a := w.addr.toNat
  let again := s.repeats m a
  let s := s.bumpReg (if two then MEM_ECC_CE2 m else MEM_ECC_CE1 m) 1
  let sev := if two ∨ again then 1 else 0
  let kind := if again then 4 else if two then 1 else 0
  let r := s.errRecord sev m kind (regionOf w.holds) a (if scrub then 2 else 0)
  (s.noteCorrected m a).record (if sev = 1 then { r with words := [(m, a)] } else r)

/-- An uncorrectable word (R475, R482): a poisoned one only counts as read; a new one is poisoned and recorded. -/
def State.uncorrectable (s : State) (w : BadWord) (scrub : Bool) : State :=
  let m := w.mem.val
  let a := w.addr.toNat
  if (m, a) ∈ s.mem.poison then (s.bumpReg MEM_POISON_RD 1).loseEntry (if scrub then .other else w.holds) false
  else
    let s := ({ s with mem := { s.mem with poison := s.mem.poison ++ [(m, a)] } } : State).bumpReg (MEM_ECC_UE m) 1
    let fl := if scrub then 2 else 0
    if m = 8 then s.deviceFault 8 2 14 a
    else if isCache w.holds ∧ scrub = false then s.record (s.errRecord 0 m 5 (regionOf w.holds) a fl)
    else (s.record (s.errRecord 2 m 2 (regionOf w.holds) a fl)).loseEntry (if scrub then .other else w.holds) true

/-- A bus access that needed repeats (R476, R483); 16 failed in a row lose the channel. -/
def State.busError (s : State) (w : BadWord) (repeats : Nat) (ok scrub : Bool) : State :=
  let m := w.mem.val
  if ok then
    let r := s.errRecord (if 1 < repeats then 1 else 0) m 3 (regionOf w.holds) w.addr.toNat (if scrub then 2 else 0)
    ({ s with mem := { s.mem with failed := sput zeroNat s.mem.failed m 0 } }).record
      (if 1 < repeats then { r with words := [(m, w.addr.toNat)] } else r)
  else
    let n := sget zeroNat s.mem.failed m + 1
    let s := ({ s with mem := { s.mem with failed := sput zeroNat s.mem.failed m n } } : State).uncorrectable w scrub
    if 16 ≤ n then s.deviceFault m 10 (regionOf w.holds) w.addr.toNat else s

/-- A read meets a word with bits in error. -/
def State.memError (s : State) (w : BadWord) (scrub : Bool) : State :=
  match w.err with
  | .one => s.corrected w false scrub
  | .two => s.corrected w true scrub
  | .lost => s.uncorrectable w scrub
  | .bus n ok => s.busError w n ok scrub

/-- The reads of a command. -/
def State.memErrors (s : State) (ws : List BadWord) : State := ws.foldl (fun s w => s.memError w false) s

/-- The word's data are lost to the reader. -/
def wordLost (w : BadWord) : Bool :=
  match w.err with
  | .lost => true
  | .bus _ ok => !ok
  | .one => false
  | .two => false

/-- The error keeps a segment from completing (R482). -/
def holdsSegment (w : BadWord) : Bool :=
  wordLost w && (match w.holds with
    | .mapBlock _ => true
    | .layerTile _ => true
    | .guardCopy _ => true
    | .other | .frameStore _ | .rider | .tileCache | .mapCache | .temp _ | .trim _ | .ladder _ | .retired _ | .retiredNode _ _ | .presence _
    | .curbTerm _ | .phasor _ | .cue _ | .eventItem _ _ | .fence _ | .lineBuffer | .releaseBuffer | .secure => false)

end Sys2Proof.Machine
end

