-- ==== Sys2Proof/Machine/Map.lean ====
section
/-! DEFINITION. The endpoint map (07_endpoint_map_and_compositing.md): records, their checks, segment blocks and the map
region. -/

namespace Sys2Proof.Machine

/-- Endpoints of a segment and endpoint IDs in all (R187, R20). -/
def segSize : Nat := 2048
def epMax : Nat := 5242880

/-! ### Records (R191 – R195) -/

/-- The contribution word `w` with the step word `st` (R193, R194). -/
def contribOf (w st : Nat) : Contrib :=
  { layer := bitsOf w 54 10, x := bitsOf w 36 18, y := bitsOf w 18 18, mode := bitsOf w 14 4, blend := bitsOf w 11 3,
    msel := bitsOf w 9 2, weight := bitsOf w 0 9, dx := sext 16 (bitsOf st 16 16), dy := sext 16 (bitsOf st 0 16) }

/-- A contribution that fails R195. -/
def contribBad (w st : Nat) : Bool := 8 < bitsOf w 14 4 || 5 < bitsOf w 11 3 || 2 ^ 32 ≤ st

/-- The contribution words of a record (with their step words in a run) from offset 16. -/
def contribWords (bs : List Byte) (run : Bool) (n : Nat) : List (Nat × Nat) :=
  (List.range n).map fun k =>
    if run then (leAt bs (16 + 16 * k) 8, leAt bs (24 + 16 * k) 8) else (leAt bs (16 + 8 * k) 8, 0)

/-- Bytes of a record with `n` contributions. -/
def recordBytes (run : Bool) (n : Nat) : Nat := 16 + n * (if run then 16 else 8)

/-- Endpoints that the record at the head of `bs` covers. -/
def recordLen (bs : List Byte) : Nat := let h := leAt bs 0 8; if bitB h 59 then bitsOf h 32 11 + 1 else 1

/-- Bytes of the record at the head of `bs`. -/
def recordSize (bs : List Byte) : Nat := let h := leAt bs 0 8; recordBytes (bitB h 59) (bitsOf h 60 4)

/-- The record at the head of `bs`. -/
def recordOf (bs : List Byte) : Record :=
  let h := leAt bs 0 8
  let run := bitB h 59
  { run := run, comp := bitsOf h 56 3, fill := if bitB h 55 then some (bitsOf h 32 23) else none, masks := bitsOf h 0 24,
    attr := leAt bs 8 8, contribs := (contribWords bs run (bitsOf h 60 4)).map fun p => contribOf p.1 p.2 }

/-- The record at the head of `bs`, for endpoint `ep`, fails a BAD_FIELD row of R195 that concerns it alone. -/
def recordBad (bs : List Byte) (ep : Nat) : Bool :=
  let h := leAt bs 0 8
  let n := bitsOf h 60 4
  let run := bitB h 59
  8 < n || 6 < bitsOf h 56 3 || (bitsOf h 56 3 = 0 && 0 < n) || bitsOf h 24 8 ≠ 0
    || (run && (bitB h 55 || bitsOf h 43 12 ≠ 0 || ep / segSize ≠ (ep + bitsOf h 32 11) / segSize))
    || (!run && bitB h 55 && (bitsOf h 32 23 = ep || bitsOf h 32 23 / segSize ≠ ep / segSize))
    || (contribWords bs run (min n 8)).any fun p => contribBad p.1 p.2

/-- The records of a MAP_LOAD payload (R196): the spans, or the offset of the failing record. -/
def loadRecords : Nat → List Byte → Nat → Nat → Nat → Nat → List Span → Nat ⊕ List Span
  | 0, _, pos, _, _, _, _ => .inl pos
  | fuel + 1, bs, pos, len, ep, stop, acc =>
    if ep = stop ∧ pos = len then .inr acc.reverse
    else if ep = stop ∨ len < pos + 16 ∨ len < pos + recordSize bs ∨ recordBad bs ep ∨ stop < ep + recordLen bs then .inl pos
    else
      loadRecords fuel (bs.drop (recordSize bs)) (pos + recordSize bs) len (ep + recordLen bs) stop
        ({ first := ep, len := recordLen bs, entry := recordOf bs } :: acc)

/-- The records of a MAP_PATCH payload (R197). -/
def patchRecords : Nat → List Byte → Nat → Nat → Nat → Nat → List Span → Nat ⊕ List Span
  | 0, _, pos, _, _, _, _ => .inl pos
  | fuel + 1, bs, pos, len, left, low, acc =>
    if left = 0 ∧ pos = len then .inr acc.reverse
    else
      let pre := leAt bs 0 8
      let rs := bs.drop 8
      if left = 0 ∨ len < pos + 24 ∨ len < pos + 8 + recordSize rs ∨ 2 ^ 23 ≤ pre ∨ pre < low ∨ epMax < pre + recordLen rs
          ∨ recordBad rs pre then .inl pos
      else
        patchRecords fuel (rs.drop (recordSize rs)) (pos + 8 + recordSize rs) len (left - 1) (pre + recordLen rs)
          ({ first := pre, len := recordLen rs, entry := recordOf rs } :: acc)

/-- The spans that a map descriptor's payload brings. -/
def mapSpans (b : List Byte) (data : List Byte) : Nat ⊕ List Span :=
  let n := dByteLen b
  if dOpcode b = 0x20 then loadRecords (n / 16 + 1) data 0 n (leAt b 16 4) (leAt b 16 4 + leAt b 20 4) []
  else patchRecords (n / 24 + 1) data 0 n (leAt b 16 4) 0 []

/-! ### Segment blocks (R187, R197, R198) -/

/-- The part of a span from endpoint `a`; its positions go on (R197). -/
def Span.cutFrom (x : Span) (a : Nat) : Span := { x with first := a, len := x.first + x.len - a, k0 := x.k0 + (a - x.first) }

/-- What is left of span `x` beside `[a, e)`. -/
def Span.outside (x : Span) (a e : Nat) : List Span :=
  (if x.first < a then [{ x with len := min x.len (a - x.first) }] else [])
    ++ (if e < x.first + x.len then [if x.first < e then x.cutFrom e else x] else [])

/-- Put a span into a list in endpoint order. -/
def insertSpan (x : Span) : List Span → List Span
  | [] => [x]
  | y :: ys => if x.first ≤ y.first then x :: y :: ys else y :: insertSpan x ys

/-- Replace the entries of the endpoints that `x` covers. -/
def overlay (spans : List Span) (x : Span) : List Span :=
  insertSpan x (spans.flatMap fun y => y.outside x.first (x.first + x.len))

/-- A span cut to segment `g`; a record of a MAP_LOAD lies in one segment, as does a run (R195). -/
def inSegment (g : Nat) (x : Span) : Bool := x.first / segSize = g

/-- The block contents of segment `g` after the records `xs`. -/
def applySpans (g : Nat) (spans : List Span) (xs : List Span) : List Span := (xs.filter (inSegment g)).foldl overlay spans

/-- Bytes of the records that a block holds, from endpoint `ep` up: each maximal uncovered run takes a 16-byte record. -/
def spansBytes (stop : Nat) : Nat → List Span → Nat
  | ep, [] => if ep < stop then 16 else 0
  | ep, x :: xs => (if ep < x.first then 16 else 0) + recordBytes x.entry.run x.entry.contribs.length + spansBytes stop (x.first + x.len) xs

/-- Bytes of a segment block (R198). -/
def blockBytes (g : Nat) (spans : List Span) : Nat := spansBytes ((g + 1) * segSize) (g * segSize) spans

/-- Segments that records touch, each once, ascending as the records are. -/
def touched (xs : List Span) : List Nat := (xs.map fun x => x.first / segSize).eraseDups

def noBlock (_ : Nat) : Block := {}

/-- The component total of a map (R199). -/
def compSum (m : Sparse Block) : Nat := m.foldl (fun n kv => kv.2.spans.foldl (fun n x => n + x.len * x.entry.comp) n) 0

/-- The segment count S of a map (R188). -/
def segCount (m : Sparse Block) : Nat :=
  m.foldl (fun n kv => if kv.2.spans.any fun x => x.entry.comp ≠ 0 then max n (kv.1 + 1) else n) 0

/-- A map after a change, whose new blocks stand at their reserved places. -/
def MapChange.apply (c : MapChange) (m : Sparse Block) : Sparse Block :=
  c.places.foldl (fun m' p =>
    sput noBlock m' p.1 { addr := p.2.1, size := p.2.2, spans := applySpans p.1 (sget noBlock m p.1).spans c.spans }) m

/-- Spans of the map region in force or reserved. -/
def FrameEngine.mapUsed (f : FrameEngine) : List (Nat × Nat) :=
  (f.blocks.map fun kv => (kv.2.addr, kv.2.size)) ++ f.changes.flatMap fun c => c.places.map fun p => (p.2.1, p.2.2)

/-- Places for the blocks of segments `gs`; `old` are places already held, kept where the size has not changed. -/
def State.placeBlocks (s : State) (m : Sparse Block) (xs : List Span) (old : List (Nat × Nat × Nat)) (used : List (Nat × Nat)) :
    List Nat → Option (State × List (Nat × Nat × Nat) × List (Nat × Nat))
  | [] => some (s, [], used)
  | g :: gs =>
    let n := blockBytes g (applySpans g (sget noBlock m g).spans xs)
    match old.find? fun p => decide (p.1 = g ∧ p.2.2 = n) with
    | some p => (s.placeBlocks m xs old used gs).map fun r => (r.1, p :: r.2.1, r.2.2)
    | none =>
      match s.place s.fe.region.1 s.fe.region.2 used n with
      | none => none
      | some (s, a) => (s.placeBlocks m xs old ((a, n) :: used) gs).map fun r => (r.1, (g, a, n) :: r.2.1, r.2.2)

/-- Places for a sequence of changes, each on the map that the ones before it leave. -/
def State.placeChanges (s : State) (m : Sparse Block) (used : List (Nat × Nat)) : List MapChange → Option (State × List MapChange)
  | [] => some (s, [])
  | c :: cs =>
    match s.placeBlocks m c.spans c.places used (touched c.spans) with
    | none => none
    | some (s, ps, used) =>
      let c := { c with places := ps }
      (s.placeChanges (c.apply m) used cs).map fun r => (r.1, c :: r.2)

/-- The changes not yet in force once a change with records `xs` has executed: an unstaged one is in force before those
that wait (R114, R198). -/
def FrameEngine.queueChange (f : FrameEngine) (xs : List Span) (first : Bool) : List MapChange :=
  let c : MapChange := { spans := xs, places := [] }
  if first then c :: f.changes else f.changes ++ [c]

/-- The component total after every accepted change (R199). -/
def sumAfter (m : Sparse Block) (cs : List MapChange) : Nat :=
  compSum (cs.foldl (fun m c =>
    (touched c.spans).foldl (fun m' g => sput noBlock m' g { spans := applySpans g (sget noBlock m g).spans c.spans, addr := 1, size := 1 }) m) m)

/-- The component total limit: GLB_CAP5.COMP_KI × 1,024. -/
def State.compLimit (s : State) : Nat := s.fld GLB_CAP5_COMP_KI * 1024

/-- The plan of a change, or none where space or the component total does not allow it. -/
def State.planChange (s : State) (xs : List Span) (first : Bool) : Option (State × List MapChange) :=
  let cs := s.fe.queueChange xs first
  if s.mapOk = false ∨ s.fe.region.2 = 0 ∨ s.compLimit < sumAfter s.fe.blocks cs then none
  else s.placeChanges s.fe.blocks s.fe.mapUsed cs

/-- The change takes effect as it executes. -/
def State.mapNow (s : State) (b : List Byte) : Bool := !s.journalled (opRow (dOpcode b)) b && !s.willStage b

/-- The checks of MAP_LOAD and MAP_PATCH (R195 – R199, R20). -/
def mapChecks (s : State) (b : List Byte) : OpChecks :=
  { bad := if dOpcode b = 0x20 then
        [(16, epMax ≤ leAt b 16 4), (20, leAt b 20 4 = 0 || epMax < leAt b 16 4 + leAt b 20 4)]
      else [(16, leAt b 16 4 = 0)]
    full := s.fe.region.2 = 0 || !s.mapOk
    payload := fun data =>
      match mapSpans b data with
      | .inl o => some (stBadField, 32 + o * 256)
      | .inr xs => if (s.planChange xs (s.mapNow b)).isNone then some (stNoResource, 0) else none }

/-- A map change that executes reserves the places of its new blocks (R198). -/
def State.mapReserve (s : State) (d : Running) (data : List Byte) : State :=
  match mapSpans d.bytes data with
  | .inl _ => s
  | .inr xs =>
    match s.planChange xs (s.mapNow d.bytes) with
    | none => s
    | some (s, cs) =>
      let s : State := { s with fe := { s.fe with changes := cs } }
      cs.foldl (fun (s : State) c => c.places.foldl (fun (s : State) p => s.clearPoison p.2.1 p.2.2) s) s

/-- The oldest waiting map change comes into force. -/
def State.mapEffect (s : State) (d : Running) (_ : List Byte) : State :=
  match s.fe.changes with
  | [] => s.done d
  | c :: cs => ({ s with fe := { s.fe with blocks := c.apply s.fe.blocks, changes := cs } }).done d

/-! ### The map region (R640) -/

/-- A staged map descriptor. -/
def Staged.isMap : Staged → Bool
  | .desc d _ _ _ => dOpcode d.bytes = 0x20 || dOpcode d.bytes = 0x21
  | .reg .. => false

/-- A map descriptor that a change of the region overtakes completes with NO_RESOURCE. -/
def State.failStaged (s : State) (x : Staged) : State :=
  match x with
  | .desc d _ _ _ => s.finish d stNoResource 0
  | .reg .. => s

/-- The map is discarded and the new region is in force. -/
def State.discardMap (s : State) : State :=
  let gone := s.staged.filter Staged.isMap
  let s := { s with staged := s.staged.filter fun x => !x.isMap
                    fe := { s.fe with blocks := [], changes := [], discard := false, region := (s.mapBase, s.mapSize) } }
  gone.foldl State.failStaged s

/-- A write that changes FE_MAP_DRAM_BASE or FE_MAP_DRAM_SIZE to `v` (64 bits, low 21 reserved): the map is discarded at the
next latch, or at once while RUN is 0. -/
def State.writeMapRegion (s : State) (off v : Nat) : State :=
  let v := v % 2 ^ 64 / 2 ^ 21 * 2 ^ 21
  if s.reg64 off = v then s
  else
    let s := s.setReg64 off v
    if s.run then { s with fe := { s.fe with discard := true } } else s.discardMap

/-! ### The commands -/

/-- MAP_LOAD (R196). -/
def execMapLoad (r : Fin 32) (payload : Option (List Byte)) (s : State) : Res :=
  .next (s.runOp r.val 0x20 payload mapChecks State.mapReserve State.mapEffect)

/-- MAP_PATCH (R197). -/
def execMapPatch (r : Fin 32) (payload : Option (List Byte)) (s : State) : Res :=
  .next (s.runOp r.val 0x21 payload mapChecks State.mapReserve State.mapEffect)

end Sys2Proof.Machine
end

