-- ==== Sys2Proof/Machine/Colour.lean ====
section
/-! DEFINITION. The colour pipeline (08_colour_pipeline.md): tables, operations 1 to 5, temperatures, trims and cue steps. -/

namespace Sys2Proof.Machine

/-! ### Tables (R216, R229, R230) -/

/-- Entries, bytes per entry and largest index of a table (R229). -/
def tableMax (t : Nat) : Nat := match t with | 0 => 127 | 1 => 15 | 2 => 31 | 3 => 3 | _ => 3
def tableBytes (t : Nat) : Nat := match t with | 0 => 32 | 1 => 256 | 2 => 72 | 3 => 512 | _ => 16

/-- The key of an entry in the colour store. -/
def tableKey (t i : Nat) : Nat := 128 * t + i

/-- The reset content of a table entry (R216). -/
def colourDflt (k : Nat) : List Byte :=
  match k / 128 with
  | 0 => patchBytes (patchBytes (patchBytes (List.replicate 32 0) 0 (leBytes 2 16384)) 8 (leBytes 2 16384)) 16 (leBytes 2 16384)
  | 2 => (List.range 33).flatMap (fun i => leBytes 2 (min 65535 (2048 * i))) ++ List.replicate 6 0
  | t => List.replicate (tableBytes t) 0

/-- The bytes of an entry in a colour store. -/
def colourAt (m : Sparse (List Byte)) (t i : Nat) : List Byte := sget colourDflt m (tableKey t i)

/-- The points of a curve rise strictly and those at or beyond NPTS are 0. -/
def curveBad (e : List Byte) (c : Nat) : Bool :=
  let n := byteAt e (40 * c)
  let temp (i : Nat) := sext 16 (leAt e (40 * c + 8 + 4 * i) 2)
  8 < n || leAt e (40 * c + 1) 7 ≠ 0
    || (List.range 8).any fun i =>
        if i < n then decide (i + 1 < n ∧ temp (i + 1) ≤ temp i) else leAt e (40 * c + 8 + 4 * i) 4 ≠ 0

/-- A trim bound outside R223. -/
def boundBad (e : List Byte) (c : Nat) : Bool :=
  let low := sext 16 (leAt e (4 * c) 2)
  let high := sext 16 (leAt e (4 * c + 2) 2)
  decide (low < -3932 ∨ 0 < low ∨ high < 0 ∨ 3932 < high)

/-- A payload entry that fails R230. -/
def entryBad (t : Nat) (e : List Byte) : Bool :=
  match t with
  | 0 => leAt e 24 8 ≠ 0
  | 1 => (List.range 6).any (curveBad e) || leAt e 240 16 ≠ 0
  | 2 => leAt e 66 6 ≠ 0
  | 3 => false
  | _ => (List.range 4).any (boundBad e)

/-- Entry `k` of a COLOUR_LOAD payload. -/
def payloadEntry (t : Nat) (data : List Byte) (k : Nat) : List Byte := leBytes (tableBytes t) (leAt data (k * tableBytes t) (tableBytes t))

/-- The checks of a COLOUR_LOAD (R230). -/
def colourChecks (_ : State) (b : List Byte) : OpChecks :=
  let t := byteAt b 16
  let first := leAt b 20 4
  let n := leAt b 28 4
  { bad := [(16, 4 < t), (20, first = 0 || decide (tableMax t < first + n - 1)), (24, dByteLen b ≠ n * tableBytes t), (28, n = 0)]
    payload := fun data =>
      match (List.range n).find? fun k => entryBad t (payloadEntry t data k) with
      | some k => some (stBadField, 32 + k * tableBytes t * 256)
      | none => none }

/-- The tables are loaded (R229, R231). -/
def State.colourEffect (s : State) (d : Running) (data : List Byte) : State :=
  let t := byteAt d.bytes 16
  let first := leAt d.bytes 20 4
  let m := (List.range (leAt d.bytes 28 4)).foldl (fun m k => sput colourDflt m (tableKey t (first + k)) (payloadEntry t data k)) s.fe.colour
  { s with fe := { s.fe with colour := m } }.done d

/-! ### ATTR (R216) -/

def attrNode (a : Nat) : Nat := bitsOf a 24 18
def attrTsrc (a : Nat) : Nat := let t := bitsOf a 22 2; if t = 3 then 0 else t
def attrTrimg (a : Nat) : Nat := bitsOf a 20 2
def attrDith (a : Nat) : Nat := bitsOf a 18 2
def attrRes (a : Nat) : Nat := bitsOf a 16 2
def attrXfer (a : Nat) : Nat := bitsOf a 11 5
def attrTset (a : Nat) : Nat := bitsOf a 7 4
def attrMix (a : Nat) : Nat := bitsOf a 0 7

/-! ### Operations 1 to 3 (R217 – R225): a component and whether it was clamped at 65,535 -/

/-- min(65,535, x) with its clamp. -/
def clip16 (x : Nat) : Nat × Nat := (min 65535 x, if 65535 < x then 1 else 0)

/-- Operation 1 for component `c` (R217, R218). -/
def mixOp (m : Sparse (List Byte)) (attr : Nat) (d : List Nat) (c : Nat) : Nat × Nat :=
  let i := attrMix attr
  if i = 0 ∨ 4 ≤ c then (d.getD c 0, 0)
  else
    let e := colourAt m 0 i
    let k (j : Nat) := sext 16 (leAt e (6 * c + 2 * j) 2) * (d.getD j 0 : Int)
    let v := rheI (k 0 + k 1 + k 2) 16384
    if v < 0 then (0, 0) else clip16 v.toNat

/-- The factor F of R220 at temperature `t`. -/
def tempFactor (e : List Byte) (c : Nat) (t : Int) : Nat :=
  let n := byteAt e (40 * c)
  let tp (i : Nat) := sext 16 (leAt e (40 * c + 8 + 4 * i) 2)
  let fp (i : Nat) := leAt e (40 * c + 10 + 4 * i) 2
  if n = 0 then 16384
  else if t ≤ tp 0 then fp 0
  else if tp (n - 1) ≤ t then fp (n - 1)
  else
    let i := (List.range n).foldl (fun k i => if tp i ≤ t then i else k) 0
    ((fp i : Int) + rheI (((fp (i + 1) : Int) - fp i) * (t - tp i)) (tp (i + 1) - tp i).toNat).toNat

/-- Operation 2 for component `c` (R220). -/
def tempOp (m : Sparse (List Byte)) (attr : Nat) (t : Int) (v c : Nat) : Nat × Nat :=
  let f := if attrTset attr = 0 then 16384 else tempFactor (colourAt m 1 (attrTset attr)) c t
  clip16 (rhe (v * f) 16384)

def noTemp (_ : Nat) : Option Nat := none
def zeroInt (_ : Nat) : Int := 0

/-- The entry of the temperature table that an endpoint uses: local sensor s stands at 0x4_0000 + s (R221, R237). -/
def tempKey (attr : Nat) : Nat := if attrTsrc attr = 2 then 0x40000 + attrNode attr % 16 else attrNode attr

/-- The latched temperature of an endpoint (R222). -/
def Inputs.tempOf (x : Inputs) (attr : Nat) : Int :=
  if attrTsrc attr = 0 then sext 16 x.tempDef
  else
    match sget noTemp x.temps (tempKey attr) with
    | some t => sext 16 t
    | none => sext 16 x.tempDef

/-- Operation 3 for component `c` (R225). -/
def trimOp (trims : Sparse Int) (attr v c : Nat) : Nat × Nat :=
  if 4 ≤ c ∨ attrTsrc attr = 2 ∨ attrTrimg attr = 0 then (v, 0)
  else clip16 (rheI ((v : Int) * (65536 + sget zeroInt trims (4 * attrNode attr + c))) 65536).toNat

/-- Operations 1 to 3 for component `c` of an endpoint with compose vector `d`: the composed value and the clamps. -/
def Inputs.component (x : Inputs) (attr : Nat) (d : List Nat) (c : Nat) : Nat × Nat :=
  let v1 := mixOp x.colour attr d c
  let v2 := tempOp x.colour attr (x.tempOf attr) v1.1 c
  let v3 := trimOp x.trims attr v2.1 c
  (v3.1, v1.2 + v2.2 + v3.2)

/-! ### Operations 4 and 5 (R227, R228, R215) -/

/-- The transfer curve of index XFER (R227). -/
def transferOp (m : Sparse (List Byte)) (attr x : Nat) : Nat :=
  if attrXfer attr = 0 then x
  else
    let e := colourAt m 2 (attrXfer attr)
    let p (i : Nat) : Int := (leAt e (2 * i) 2 : Nat)
    let i := x / 2048
    (clampI 0 65535 (p i + rheI ((p (i + 1) - p i) * ((x % 2048 : Nat) : Int)) 2048)).toNat

/-- Bits of RES. -/
def resBits (r : Nat) : Nat := match r with | 0 => 16 | 1 => 12 | 2 => 10 | _ => 8

/-- Quantisation and dither of component `c` of endpoint `ep` in the frame presented at tick `x` (R228). -/
def ditherOp (m : Sparse (List Byte)) (attr ep c x y : Nat) : Nat :=
  let bits := resBits (attrRes attr)
  let drop := 16 - bits
  let q := if drop = 0 then y
    else if attrDith attr = 0 then min (2 ^ bits - 1) (rhe y (2 ^ drop))
    else
      let h := leAt (colourAt m 3 (attrDith attr)) (2 * ((ep + 17 * (x % 256) + 73 * c) % 256)) 2
      min (2 ^ bits - 1) ((y + h / 2 ^ bits) / 2 ^ drop)
  q * 2 ^ drop

/-! ### The temperature table (R221, R222) -/

def tempDflt (_ : Nat) : TempEntry := {}

/-- Node entries and local sensors. -/
def tempEntries : Nat := 262144 + 16

/-- Write entry `k`; an entry written again after being stale is counted at the next close. -/
def State.writeTemp (s : State) (k v : Nat) : State :=
  let e := sget tempDflt s.fe.temps k
  let e' : TempEntry := { value := v % 2 ^ 16, written := some s.tb.now, stale := false, back := e.back || e.stale }
  { s with fe := { s.fe with temps := sput tempDflt s.fe.temps k e' } }

/-- The entry is older than FE_CLR_TEMP_STALE. -/
def State.tempAged (s : State) (e : TempEntry) : Bool :=
  match e.written with
  | none => true
  | some t => let n := s.fld FE_CLR_TEMP_STALE_v; decide (n ≠ 0 ∧ n * unitSec < s.since t)

/-- A written entry at a telemetry close. -/
def State.closeTemp (s : State) (e : TempEntry) : TempEntry := { e with stale := e.written.isSome && s.tempAged e, back := false }

/-- The temperature table at a telemetry close (R221, R222, R237): the values that the next latch takes, FE_CLR_STALE, and
one TEMP_STALE when an entry has become stale or come back. -/
def State.closeTemps (s : State) : State :=
  let old := s.fe.temps
  let new := old.map fun kv => (kv.1, s.closeTemp kv.2)
  let became := (old.filter fun kv => !kv.2.stale && kv.2.written.isSome && s.tempAged kv.2).map fun kv => kv.1
  let back := (old.filter fun kv => kv.2.back && !s.tempAged kv.2).length
  let fresh := new.filterMap fun kv => if kv.2.stale ∨ kv.2.written.isNone then none else some (kv.1, some kv.2.value)
  let s := { s with fe := { s.fe with temps := new, tempsClosed := fresh } }
  let s := s.setReg FE_CLR_STALE (tempEntries - fresh.length)
  if became = [] ∧ back = 0 then s
  else s.postNow 0x25 0 0 [(16, 4, became.length), (20, 4, back), (24, 4, became.headD 0xFFFFFFFF), (28, 4, s.tickNo % 2 ^ 32)]

/-! ### Sensor trims (R223, R224) -/

/-- The lowest nonzero trim group that the endpoints of each node name, by node. -/
def trimGroups (m : Sparse Block) : Sparse Nat :=
  m.foldl (fun g kv => kv.2.spans.foldl (fun g x =>
    let a := x.entry.attr
    if attrTsrc a = 2 ∨ attrTrimg a = 0 ∨ x.entry.comp = 0 then g
    else
      let n := attrNode a
      let o := sget zeroNat g n
      sput zeroNat g n (if o = 0 then attrTrimg a else min o (attrTrimg a))) g) []

/-- One applied trim after a boundary. -/
def State.moveTrim (s : State) (g n c : Nat) (a : Int) : Int :=
  let e := colourAt s.fe.colour 4 g
  let low := sext 16 (leAt e (4 * c) 2)
  let high := sext 16 (leAt e (4 * c + 2) 2)
  let target := clampI low high (sget zeroInt s.fe.trimTarget (4 * n + c))
  let slew : Int := (max 1 (s.fld FE_CLR_TRIM_CTRL_SLEW) : Nat)
  let moved := if s.bit FE_CLR_TRIM_CTRL_FREEZE then a else a + clampI (-slew) slew (target - a)
  clampI low high moved

/-- Every applied trim moves at action (4) of a boundary (R224). -/
def State.moveTrims (s : State) : State :=
  let t := (trimGroups s.fe.blocks).foldl (fun t kv => (List.range 4).foldl (fun t c =>
    sput zeroInt t (4 * kv.1 + c) (s.moveTrim kv.2 kv.1 c (sget zeroInt t (4 * kv.1 + c)))) t) s.fe.trims
  { s with fe := { s.fe with trims := t } }

/-! ### Cue steps (R232 – R236) -/

/-- The cue record at the head of `bs` (R232). -/
def cueRecOf (bs : List Byte) : CueRec :=
  let w := leAt bs 0 4
  { cell := bitsOf w 0 23, mask := bitsOf w 23 6, vals := (List.range 6).map fun c => leAt bs (4 + 2 * c) 2 }

/-- The records of a cue payload. -/
def cueRecs (n : Nat) (data : List Byte) : List CueRec := (List.range n).map fun k => cueRecOf (data.drop (16 * k))

/-- A cue record that fails R233 for layer `l`. -/
def cueRecBad (l : Layer) (bs : List Byte) : Bool :=
  let r := cueRecOf bs
  decide (l.width * l.height ≤ r.cell) || r.mask = 0 || decide (2 ^ l.format ≤ r.mask) || bitsOf (leAt bs 0 4) 29 3 ≠ 0

/-- The cue store (R234). -/
def cueStoreMax : Nat := 262144
def State.cuePend (s : State) : Nat := s.fe.cues.foldl (fun n c => n + c.recs.length) 0

/-- The value layer `id`, when its registration is in force. -/
def State.valueLayer (s : State) (id : Nat) : Option Layer :=
  match s.layer id with
  | none => none
  | some l => if l.typ = 3 then some l else none

/-- Layer `id` is the presence layer, which no cue may name (R386). -/
def State.isPresence (s : State) (id : Nat) : Bool := s.bit TLM_PRES_CTRL_EN && decide (s.fld TLM_PRES_CTRL_LAYER = id)

/-- A step for `target` that counts for boundary `bound` comes too late (R145); while RUN is 0 it must lie beyond the
TICK_NO held (R72). -/
def State.cueLate (s : State) (target bound : Nat) : Bool :=
  if s.run then target < bound + s.depth else target ≤ s.tickNo + s.depth

/-- The checks of a cue step: `count` records for layer `id` at `target` (R233); the offset of TARGET_TICK is 40. -/
def State.cueChecks (s : State) (id count len target bound : Nat) : OpChecks :=
  let l := (s.valueLayer id).getD {}
  { bad := [(16, (s.valueLayer id).isNone || s.isPresence id), (20, count = 0), (24, len ≠ 16 * count), (40, s.tickNo + 65536 < target || s.cueLate target bound)]
    full := decide (cueStoreMax < s.cuePend + count)
    payload := fun data =>
      match (List.range count).find? fun k => cueRecBad l (data.drop (16 * k)) with
      | some k => some (stBadField, 32 + 16 * k * 256)
      | none => none }

/-- The checks of a CUE_STEP descriptor. -/
def cueStepChecks (s : State) (b : List Byte) : OpChecks :=
  s.cueChecks (leAt b 16 2) (leAt b 20 4) (dByteLen b) (leAt b 40 8) (if s.journals then s.nextNo else s.stageTick)

/-- Hold a step in the cue store. -/
def State.holdCue (s : State) (id target : Nat) (recs : List CueRec) : State :=
  { s with fe := { s.fe with cues := s.fe.cues ++ [{ layer := id, target := target, recs := recs }] } }

/-- A CUE_STEP is accepted, or its commit boundary came too late (R446); RESULT is TARGET_TICK (R121). -/
def State.cueEffect (s : State) (d : Running) (data : List Byte) : State :=
  let target := leAt d.bytes 40 8
  if s.cueLate target (s.boundFor d) then s.finish d stBadField 40
  else (s.holdCue (leAt d.bytes 16 2) target (cueRecs (leAt d.bytes 20 4) data)).finish d stOk target

/-- Write one record into the cells of a value layer. -/
def writeCell (cells : Sparse Nat) (r : CueRec) : Sparse Nat :=
  (List.range 6).foldl (fun m c => if bitB r.mask c then sput zeroNat m (8 * r.cell + c) (r.vals.getD c 0) else m) cells

/-- A step enters its value layer (R234). -/
def State.enterCue (s : State) (c : CueStep) : State :=
  match s.valueLayer c.layer with
  | none => s
  | some l => s.setLayer c.layer (some { l with cells := c.recs.foldl writeCell l.cells, changed := true })

/-- The steps of the boundary whose TICK_NO is in force enter in order of acceptance (R234). -/
def State.enterCues (s : State) : State :=
  let due := s.fe.cues.filter fun c => decide (c.target = s.tickNo + s.depth)
  let kept := s.fe.cues.filter fun c => !decide (c.target = s.tickNo + s.depth)
  due.foldl State.enterCue { s with fe := { s.fe with cues := kept } }

/-! ### The commands -/

/-- COLOUR_LOAD (R229). -/
def execColourLoad (r : Fin 32) (payload : Option (List Byte)) (s : State) : Res :=
  .next (s.runOp r.val 0x28 payload colourChecks noReserve State.colourEffect)

/-- CUE_STEP (R145, R233). -/
def execCueStep (r : Fin 32) (payload : Option (List Byte)) (s : State) : Res :=
  .next (s.runOp r.val 0x30 payload cueStepChecks noReserve State.cueEffect)

/-- LOCAL_TEMP_WRITE (R221). -/
def execLocalTempWrite (sensor : Fin 16) (v : Half) (s : State) : Res := .next (s.writeTemp (0x40000 + sensor.val) v.toNat)

/-- TRIM_TARGET_SET (R223). -/
def execTrimTargetSet (node : BitVec 18) (c : Fin 4) (t : Half) (s : State) : Res :=
  .next { s with fe := { s.fe with trimTarget := sput zeroInt s.fe.trimTarget (4 * node.toNat + c.val) t.toInt } }

end Sys2Proof.Machine
end

