-- ==== Sys2Proof/Machine/Formats.lean ====
section
/-! DEFINITION. Pixel formats and the stored form (06_layer_ingest.md R161 – R166). -/

namespace Sys2Proof.Machine

/-- One bit of the largest r with (2r − 1)^5 · q^12 ≤ 131,070^5 · p^12, that is 65,535 · (p / q)^2.4 rounded. -/
def powGo (p q : Nat) : Nat → Nat → Nat
  | 0, r => r
  | b + 1, r =>
    let t := r + 2 ^ b
    powGo p q b (if (2 * t - 1) ^ 5 * q ^ 12 ≤ 131070 ^ 5 * p ^ 12 then t else r)

/-- round(65,535 × (p / q)^2.4). -/
def pow24 (p q : Nat) : Nat := powGo p q 17 0

/-- The exactly rounded value of R163 where arithmetic on integers gives it: transfers 0x0, 0x1 and 0x2, and the lower
half of 0x4. -/
def exactCurve (xfer bits code : Nat) : Option Nat :=
  let m := 2 ^ bits - 1
  match xfer with
  | 0 => some (rhe (65535 * code) m)
  | 1 => some (if code * 100000 ≤ 4045 * m then rhe (6553500 * code) (1292 * m) else pow24 (1000 * code + 55 * m) (1055 * m))
  | 2 => some (pow24 code m)
  | 4 => if 2 * code ≤ m then some (rhe (65535 * code * code) (3 * m * m)) else none
  | _ => none

/-- The 16-bit linear value of a code of `bits` bits (R163). -/
def linearOf (xfer bits peak code : Nat) : Nat :=
  let v := Config.curve xfer bits peak code
  if xfer ≠ 3 ∧ code = 0 then 0
  else if xfer ≠ 3 ∧ code = 2 ^ bits - 1 then 65535
  else
    match exactCurve xfer bits code with
    | some e => min 65535 (clampN (e - 1) (e + 1) v)
    | none => min 65535 v

/-- The stored form (C0, C1, C2, A) of a host-memory pixel (R162, R163). -/
def hostPixel (format peak : Nat) (w : Nat) : List Nat :=
  let x := format / 16
  let lin (lo n : Nat) := linearOf x n peak (bitsOf w lo n)
  let al (lo n : Nat) := rhe (bitsOf w lo n * 65535) (2 ^ n - 1)
  match format % 16 with
  | 1 => [lin 0 8, lin 8 8, lin 16 8, al 24 8]
  | 2 => [lin 16 8, lin 8 8, lin 0 8, al 24 8]
  | 3 => [lin 0 10, lin 10 10, lin 20 10, al 30 2]
  | 4 => [lin 0 16, lin 16 16, lin 32 16, al 48 16]
  | _ => [lin 0 16, lin 0 16, lin 0 16, 65535]

/-- The stored-form pixels of a host tile from its bytes: `n` pixels of `bpp` bytes (R164, R208). -/
def tilePixels (format peak bpp : Nat) : Nat → List Byte → List Nat
  | 0, _ => []
  | n + 1, bs => hostPixel format peak (leAt bs 0 bpp) ++ tilePixels format peak bpp n (bs.drop bpp)

/-- Sample `i` of a line of packed big-endian samples of `bits` bits (ST 2110-20 pixel groups, log entry 10). -/
def packedSample (bs : List Byte) (bits i : Nat) : Nat :=
  let lo := i * bits
  let n := lo % 8 + bits
  let k := cdiv n 8
  bitsOf (beAt bs (lo / 8) k) (8 * k - n) bits

/-- FE_STRM_FMT of a stream as its fields. -/
structure VideoFormat where
  full : Bool
  tcs : Nat
  colorimetry : Nat
  bits : Nat
  sampling : Nat
  peak : Nat

/-- The transfer that a TCS code names (R165). -/
def tcsTransfer (tcs : Nat) : Nat := match tcs with | 0 => 2 | 1 => 3 | 2 => 4 | _ => 0

/-- A sample in full range (R166). -/
def VideoFormat.expand (f : VideoFormat) (chroma code : Nat) : Nat := if f.full then code else Config.expand f.bits chroma code

/-- The chroma of a 4:2:2 pixel (R166): even pixels use their own pair, odd ones the mean of their neighbours' pairs, and
the last odd pixel of a line its left neighbour's. -/
def VideoFormat.chroma422 (f : VideoFormat) (line : List Byte) (width x k : Nat) : Nat :=
  let own (p : Nat) := f.expand 1 (packedSample line f.bits (4 * p + 2 * k))
  if x % 2 = 0 ∨ width ≤ x + 1 then own (x / 2) else rhe (own (x / 2) + own (x / 2 + 1)) 2

/-- The stored form of pixel `x` of a received line (R166). -/
def VideoFormat.pixel (f : VideoFormat) (line : List Byte) (width x : Nat) : List Nat :=
  let xf := tcsTransfer f.tcs
  let video (y cb cr : Nat) := (List.range 3).map fun c => min 65535 (Config.video [f.colorimetry, xf, f.bits, f.peak, y, cb, cr, c])
  let s (i : Nat) := packedSample line f.bits i
  match f.sampling with
  | 0 => video (f.expand 0 (s (4 * (x / 2) + 1 + 2 * (x % 2)))) (f.chroma422 line width x 0) (f.chroma422 line width x 1) ++ [65535]
  | 1 => video (f.expand 0 (s (3 * x + 1))) (f.expand 1 (s (3 * x))) (f.expand 1 (s (3 * x + 2))) ++ [65535]
  | _ => ((List.range 3).map fun c => linearOf xf f.bits f.peak (f.expand 0 (s (3 * x + c)))) ++ [65535]

/-- Bytes of a line of `width` pixels (R165): 2 samples a pixel for 4:2:2, otherwise 3. -/
def VideoFormat.lineBytes (f : VideoFormat) (width : Nat) : Nat :=
  if f.sampling = 0 then cdiv (cdiv width 2 * 4 * f.bits) 8 else cdiv (width * 3 * f.bits) 8

end Sys2Proof.Machine
end

