-- ==== Sys2Proof/Machine/Compose.lean ====
section
/-! DEFINITION. Compositing (07_endpoint_map_and_compositing.md): sampling, blending, fills, the compose lanes and the
compose window of a tick (R68, R75, R76, R155). -/

namespace Sys2Proof.Machine

/-! ### The frame in compose -/

/-- The frame of tick `n`. -/
def State.frameAt (s : State) (n : Nat) : Option Frame := s.fe.frames.find? fun f => f.tick = n

/-- The frame composed in the tick in progress. -/
def State.frameNow (s : State) : Option Frame := s.frameAt s.tickNo

/-- Replace the frame of its tick. -/
def State.setFrame (s : State) (f : Frame) : State :=
  { s with fe := { s.fe with frames := s.fe.frames.map fun g => if g.tick = f.tick then f else g } }

/-! ### Pixels (R200, R201, R208) -/

def noPixels (_ : Nat) : List Nat := []
def noLat (_ : Nat) : LatLayer := { typ := 4 }

/-- Tiles across a layer, and the tile index of a pixel (R208). -/
def tilesAcross (width : Nat) : Nat := cdiv width 16
def tileOf (width i j : Nat) : Nat := j / 16 * tilesAcross width + i / 16

/-- In-layer columns and rows of a tile. -/
def tileCols (width t : Nat) : Nat := min 16 (width - t % tilesAcross width * 16)
def tileRows (width height t : Nat) : Nat := min 16 (height - t / tilesAcross width * 16)

/-- Where pixel (i, j) stands in its tile's stored-form pixels. -/
def inTile (width i j : Nat) : Nat := j % 16 * tileCols width (tileOf width i j) + i % 16

/-- The key of a tile among those of every layer. -/
def tileKey (layer t : Nat) : Nat := 2 ^ 20 * layer + t

/-- A fully transparent pixel (R156, R171). -/
def clearPixel : List Nat := [0, 0, 0, 0]

/-- The guard copy of a layer (R157). -/
def State.guardCopy (s : State) (id : Nat) : Sparse (List Nat) :=
  match s.layer id with
  | none => []
  | some l => l.copy

/-- The stored form of pixel (i, j) of a type 0 or 1 layer in frame `f` (R146, R156). -/
def State.stored (s : State) (f : Frame) (id : Nat) (l : LatLayer) (i j : Nat) : List Nat :=
  if l.clear then clearPixel
  else
    match l.content with
    | .image _ px => (List.range 4).map fun c => sget zeroNat px (4 * (j * l.width + i) + c)
    | .host _ _ =>
      let t := tileOf l.width i j
      let p := 4 * inTile l.width i j
      if id ∈ f.failed then
        (if s.bit FE_LEASE_CTRL_v then clearPixel
         else
           match sget noPixels (s.guardCopy id) t with
           | [] => clearPixel
           | px => (px.drop p).take 4)
      else ((sget noPixels f.tiles (tileKey id t)).drop p).take 4
    | _ => clearPixel

/-- A cell of a type 2 or 3 layer. -/
def LatLayer.cell (l : LatLayer) (i j c : Nat) : Nat :=
  match l.content with
  | .cells m => sget zeroNat m (8 * (j * l.width + i) + c)
  | _ => 0

/-- Reading pixel (i, j), clamped into the layer: six premultiplied channels and alpha (R200, R201); `comp` is COMP of the
endpoint. -/
def State.px (s : State) (f : Frame) (id : Nat) (l : LatLayer) (comp : Nat) (i j : Int) : List Nat :=
  let i := (clampI 0 ((l.width : Int) - 1) i).toNat
  let j := (clampI 0 ((l.height : Int) - 1) j).toNat
  match l.typ with
  | 2 => (List.range 6).map (fun c => if c < comp ∧ i + c < l.width then l.cell (i + c) j 0 else 0) ++ [65535]
  | 3 => (List.range 6).map (fun c => if c < l.format then l.cell i j c else 0) ++ [65535]
  | _ =>
    let q := s.stored f id l i j
    let a := q.getD 3 0
    [rhe (q.getD 0 0 * a) 65535, rhe (q.getD 1 0 * a) 65535, rhe (q.getD 2 0 * a) 65535, 0, 0, 0, a]

/-! ### Sampling (R203, R204) -/

/-- A weighted sum of pixels, divided with rounding, in every channel. -/
def weighed (ps : List (Nat × List Nat)) (d : Nat) : List Nat :=
  (List.range 7).map fun c => rhe (ps.foldl (fun n p => n + p.1 * p.2.getD c 0) 0) d

/-- The sample at (x16, y16) under `mode` (R204). -/
def sampleAt (px : Int → Int → List Nat) (mode x16 y16 : Nat) : List Nat :=
  match mode with
  | 0 => px (x16 / 16 : Nat) (y16 / 16 : Nat)
  | 1 =>
    let u : Int := (x16 : Int) - 8
    let v : Int := (y16 : Int) - 8
    let i := u / 16
    let j := v / 16
    let fx := (u % 16).toNat
    let fy := (v % 16).toNat
    weighed [((16 - fx) * (16 - fy), px i j), (fx * (16 - fy), px (i + 1) j), ((16 - fx) * fy, px i (j + 1)), (fx * fy, px (i + 1) (j + 1))] 256
  | n =>
    let i := ((x16 : Int) - 8 * (((n : Nat) : Int) - 1)) / 16
    let j := ((y16 : Int) - 8 * (((n : Nat) : Int) - 1)) / 16
    weighed ((List.range n).flatMap fun (a : Nat) => (List.range n).map fun (b : Nat) => (1, px (i + a) (j + b))) (n * n)

/-- The mode in which a layer is sampled (R203). -/
def modeOf (typ mode : Nat) : Nat := if typ = 2 ∨ typ = 3 then 0 else mode

/-- The cost of a contribution in layer-samples (R202, R203). -/
def costOf (typ mode : Nat) : Nat := if modeOf typ mode ≤ 4 then 1 else 4

/-- The coordinate of position `k` of a run (R194). -/
def runCoord (x : Nat) (d : Int) (k : Nat) : Nat := (clampI 0 16777215 ((x : Int) * 64 + (k : Int) * d)).toNat / 64

/-! ### Blending (R205) -/

/-- A channel of a sample under WEIGHT. -/
def weight (w v : Nat) : Nat := min 65535 (rhe (v * w) 256)

/-- One channel of the running value after a contribution. -/
def blendChannel (blend w swa sc dc : Nat) : Nat :=
  let sw := weight w sc
  match blend with
  | 0 => sw
  | 1 => min 65535 (sw + rhe (dc * (65535 - swa)) 65535)
  | 2 => min 65535 (dc + sw)
  | 3 => rhe (dc * (65535 - min 65535 (rhe ((65535 - sc) * w) 256))) 65535
  | 4 => max dc sw
  | _ => min dc sw

/-- The running alpha after a contribution. -/
def blendAlpha (blend swa da : Nat) : Nat :=
  match blend with
  | 0 => swa
  | 1 => min 65535 (swa + rhe (da * (65535 - swa)) 65535)
  | 2 => min 65535 (da + swa)
  | 3 => da
  | 4 => max da swa
  | _ => min da swa

/-- The running value (six channels and alpha) after a sample with its mask. -/
def blendOne (c : Contrib) (mask : Nat) (smp d : List Nat) : List Nat :=
  let swa := weight c.weight (smp.getD 6 0)
  (List.range 6).map (fun k => if bitB mask k then blendChannel c.blend c.weight swa (smp.getD k 0) (d.getD k 0) else d.getD k 0)
    ++ [blendAlpha c.blend swa (d.getD 6 0)]

/-- Contribution `c` of an endpoint at position `k` of a record with masks `masks`: the running value, the cost and the
contributions absent so far (R202). -/
def State.contribute (s : State) (f : Frame) (masks comp k : Nat) (acc : List Nat × Nat × Nat) (c : Contrib) : List Nat × Nat × Nat :=
  let l := sget noLat f.inputs.layers c.layer
  let cost := acc.2.1 + costOf l.typ c.mode
  if l.content = .none then (acc.1, cost, acc.2.2 + 1)
  else
    let smp := sampleAt (s.px f c.layer l comp) (modeOf l.typ c.mode) (runCoord c.x c.dx k) (runCoord c.y c.dy k)
    (blendOne c (bitsOf masks (6 * c.msel) 6) smp acc.1, cost, acc.2.2)

/-- An endpoint in compose: its ID, record and compose vector. -/
structure EpVector where
  ep : Nat
  entry : Record
  vec : List Nat

/-- The compose vector of one endpoint before fills, its cost and its absent contributions (R203, R205, R206). -/
def State.vector (s : State) (f : Frame) (x : Span) (j : Nat) : EpVector × Nat × Nat :=
  let r := x.entry
  let acc := r.contribs.foldl (s.contribute f r.masks r.comp (x.k0 + j)) (List.replicate 7 0, 0, 0)
  ({ ep := x.first + j, entry := r, vec := acc.1.take 6 }, max 1 acc.2.1, acc.2.2)

/-- Every endpoint of the spans. -/
def State.vectors (s : State) (f : Frame) (xs : List Span) : List (EpVector × Nat × Nat) :=
  xs.flatMap fun x => (List.range x.len).map (s.vector f x)

/-! ### Fills and retirement (R207) -/

/-- The fills of a segment: (partner, vector). -/
def fillsOf (retired : List Nat) (vs : List EpVector) : List (Nat × List Nat) :=
  vs.filterMap fun v =>
    match v.entry.fill with
    | none => none
    | some p => if v.ep ∈ retired ∧ p ∉ retired then some (p, v.vec) else none

/-- The channel-wise maximum. -/
def maxVec (a b : List Nat) : List Nat := (List.range 6).map fun c => max (a.getD c 0) (b.getD c 0)

/-- An endpoint's vector after fills and zeroing. -/
def filled (retired : List Nat) (fs : List (Nat × List Nat)) (v : EpVector) : EpVector :=
  if v.ep ∈ retired then { v with vec := List.replicate 6 0 }
  else { v with vec := fs.foldl (fun a p => if p.1 = v.ep then maxVec a p.2 else a) v.vec }

/-! ### A segment (R210) -/

/-- The composed values of an endpoint put into a segment's store, with its clamps (R213). -/
def Inputs.store (x : Inputs) (seg : Nat) (acc : Sparse Nat × Nat) (v : EpVector) : Sparse Nat × Nat :=
  (List.range v.entry.comp).foldl (fun acc c =>
    let r := x.component v.entry.attr v.vec c
    (sput zeroNat acc.1 (8 * (v.ep - segSize * seg) + c) r.1, acc.2 + r.2)) acc

/-- Endpoints that no span covers: each costs 1 (R203). -/
def uncovered (xs : List Span) : Nat := segSize - xs.foldl (fun n x => n + x.len) 0

/-- Component values of the spans. -/
def componentsOf (xs : List Span) : Nat := xs.foldl (fun n x => n + x.len * x.entry.comp) 0

/-- Stages 2 and 3 of segment `seg` in frame `f`: its image and what it adds to the counts. -/
def State.composeSegment (s : State) (f : Frame) (seg : Nat) : SegImage × ComposeCount :=
  let b := sget noBlock f.inputs.blocks seg
  let vs := s.vectors f b.spans
  let evs := vs.map fun v => v.1
  let fs := fillsOf f.inputs.retired evs
  let r := (evs.map (filled f.inputs.retired fs)).foldl (f.inputs.store seg) ([], 0)
  ({ spans := b.spans, vals := r.1 },
   { cost := uncovered b.spans + vs.foldl (fun n v => n + v.2.1) 0, absent := vs.foldl (fun n v => n + v.2.2) 0, fill := fs.length,
     clip := r.2, bytes := b.size + 2 * componentsOf b.spans })

/-! ### Tiles (R157, R208, R209) -/

/-- Bytes of a cell in the stored form (R208). -/
def cellBytes (l : LatLayer) : Nat := match l.typ with | 2 => 2 | 3 => 2 * l.format | _ => 8

/-- Read one host tile: it enters the cache, counts as read once, and in a tick whose header passed enters the guard
copy. -/
def State.readTile (s : State) (f : Frame) (h : HostTile) : State × Frame :=
  let id := h.layer.val
  let t := h.tile.toNat
  let l := sget noLat f.inputs.layers id
  if l.typ ≠ 0 ∨ l.height ≤ t / tilesAcross l.width * 16 ∨ id ∈ f.failed then (s, f)
  else
    let px := tilePixels l.format (max 1 (s.fld FE_XFER_CTRL_v)) (layoutBytes l.format) (tileCols l.width t * tileRows l.width l.height t) h.bytes
    let k := tileKey id t
    let new := sget noPixels f.read k = []
    let f := { f with tiles := sput noPixels f.tiles k px, read := if new then sput noPixels f.read k px else f.read,
                      counts := { f.counts with host := f.counts.host + 1, bytes := f.counts.bytes + (if l.guard then 2048 else 0) } }
    match s.layer id with
    | none => (s, f)
    | some y => if l.guard && new then (s.setLayer id (some { y with copy := sput noPixels y.copy t px }), f) else (s, f)

/-- A tile of a device-filled layer fetched from DRAM. -/
def Frame.fetchDram (f : Frame) (h : DramTile) : Frame :=
  let l := sget noLat f.inputs.layers h.layer.val
  if l.typ = 0 ∨ 3 < l.typ then f
  else { f with counts := { f.counts with dram := f.counts.dram + 1, bytes := f.counts.bytes + 256 * cellBytes l } }

/-! ### The compose window (R68, R75, R76, R155) -/

/-- The instant `pm` thousandths of the period after the tick's beginning (R68). -/
def State.phaseAt (s : State) (pm : Nat) : Nat := s.tick.begin + pm * s.tick.period / 1000

/-- The compose deadline. -/
def State.composeDeadline (s : State) : Nat := s.phaseAt (s.fld TK_PHASES_CMP_DL_PM)

/-- One engine clock at 1.6 GHz in units of 2^-32 ns. -/
def engineClock : Nat := 2684354560

/-- The cause of a guard header's failure (R154, R155, R159); none when it passes. -/
def headerFault (id gen : Nat) (b : List Byte) : Option Nat :=
  if leAt b 0 4 ≠ 0x5A4A4748 ∨ leAt b 12 4 ≠ crc32 (b.take 12) then some 0
  else if leAt b 4 2 ≠ id then some 1
  else if leAt b 8 4 ≠ gen then some 2
  else none

/-- The header that was read for layer `id`. -/
def headerOf (hs : List GuardHeader) (id : Nat) : List Byte :=
  match hs.find? fun h => h.layer.val = id with
  | some h => leBytes 16 h.bytes.toNat
  | none => []

/-- The guard header of one layer is read (R155 – R157, R159). -/
def State.checkHeader (s : State) (f : Frame) (hs : List GuardHeader) (id : Nat) (l : LatLayer) : State × Frame :=
  match l.content with
  | .host gen _ =>
    if l.guard = false then (s, f)
    else
      let b := headerOf hs id
      match headerFault id gen b with
      | none =>
        (match s.layer id with
         | none => (s, f)
         | some y => (s.setLayer id (some { y with copy := [] }), f))
      | some cause =>
        (({ s with tdm := { s.tdm with exempt := s.tdm.exempt ++ [f.tick] } }.bumpReg FE_LEASE_VIOL 1).postNow 0x20 0 0 [(16, 2, id), (18, 1, cause), (20, 4, gen), (24, 4, leAt b 8 4), (28, 4, s.tickNo % 2 ^ 32)],
         { f with failed := f.failed ++ [id] })
  | _ => (s, f)

/-- The guard headers of every layer of a frame. -/
def State.checkHeaders (s : State) (hs : List GuardHeader) (f : Frame) : State × Frame :=
  f.inputs.layers.foldl (fun p kv => p.1.checkHeader p.2 hs kv.1 kv.2) (s, f)

/-- Put the frame in compose back. -/
def State.withFrame (p : State × Frame) : State := p.1.setFrame p.2

/-- The position of segment `seg` in the frame's compose order (R76). -/
def Frame.position (f : Frame) (seg : Nat) : Nat := if f.first ≤ seg then seg - f.first else seg + f.count - f.first

/-- The segment at a position of the compose order. -/
def Frame.atPosition (f : Frame) (p : Nat) : Nat := (f.first + p) % f.count

/-- Segments of the frame that no lane completed, in compose order. -/
def Frame.unfinished (f : Frame) : List Nat :=
  ((List.range f.count).map f.atPosition).filter fun g => decide (g ∉ f.done)

/-- The held segments of a frame are settled (R75 – R78): memory-error holds count for nothing; an overrun is counted and
posted, and OVERLOAD set after TK_OVR_LIMIT of them. -/
def State.settleHolds (s : State) (f : Frame) (held : List Nat) : State :=
  let mem := f.memHeld
  let counted := held.filter fun g => decide (g ∉ mem)
  let all := held ++ mem.filter fun g => decide (g ∉ held)
  let none' (_ : Nat) : SegImage := {}
  let images := (List.range f.count).foldl (fun m g => if g ∈ all then sput none' m g (sget none' s.fe.prev g) else m) f.images
  let s := s.setFrame { f with held := counted, images := images }
  let s := { s with fe := { s.fe with prev := images, lastHeld := counted } }
  let n := counted.length
  if n = 0 then s
  else
    let t := s.tickNo % 2 ^ 32
    let s := ((s.bumpReg TK_OVR_CNT 1).bumpReg TK_OVR_SEG n).setReg64 TK_OVR_LAST s.tickNo
    let s := s.postNow 0x18 0 0 [(16, 4, n), (20, 4, counted.headD 0), (24, 4, f.count), (28, 4, t)]
    let runs := s.tick.overruns + 1
    let lim := max 1 (s.fld TK_OVR_LIMIT_v)
    let s := { s with tick := { s.tick with overruns := runs, overran := true } }
    if runs = lim then { (s.postNow 0x19 0 0 [(16, 4, lim), (20, 4, n), (28, 4, t)]) with tick := { s.tick with overload := true } } else s

/-- Compose has ended: alone, the held set is settled at once; in a pair CSET goes to the partner and the held set waits for
the partner's (R449). -/
def State.composeOver (s : State) (f : Frame) : State :=
  let s := { s with tick := { s.tick with composing := false, composed := true } }
  if s.inPair then
    ({ s with tdm := { s.tdm with csetAt := some s.tb.now } }).sendTdm (.cset f.tick f.done f.memHeld)
  else s.settleHolds f f.unfinished

/-- The compose window opens at B + 2 µs (R68): guard headers are read and the lanes start. -/
def State.startCompose (s : State) (hs : List GuardHeader) : State :=
  match s.frameNow with
  | none => s
  | some f =>
    if s.tick.running = false ∨ s.tick.composing ∨ s.tick.composed then s
    else
      let s := s.runTo (s.tick.begin + 2 * unitUs)
      let p := s.checkHeaders hs f
      let f := { p.2 with lanes := (List.range (if s.mode = 2 then 4 else 8)).map fun i => (i, s.tb.now) }
      let s := p.1.setFrame f
      if f.count = 0 then s.composeOver f else { s with tick := { s.tick with composing := true } }

/-- A wheeler composes a segment only once it holds the boundary's latch record, or from its own latch in an unverified
frame (R448, R450). -/
def State.mayCompose (s : State) : Bool := s.role ≠ tdmWheeler || s.tdm.latchGot || decide (s.tickNo ∈ s.tdm.unverified)

/-- The segment is the next of its lane (R76). -/
def Frame.laneReady (f : Frame) (seg : Nat) : Bool :=
  let p := f.position seg
  decide (seg < f.count) && decide ((f.lanes.getD (p % f.lanes.length) (0, 0)).1 = p)

/-- The lane of position `k` goes on from instant `free`. -/
def Frame.freeLane (f : Frame) (k free : Nat) : Frame := { f with lanes := f.lanes.set (k % f.lanes.length) (k + f.lanes.length, free) }

/-- A memory error keeps segment `seg` from completing (R482): the lane skips it and it becomes a memory-error hold. -/
def State.holdSegment (s : State) (f : Frame) (seg : Nat) : State :=
  let k := f.position seg
  let f := (f.freeLane k (f.lanes.getD (k % f.lanes.length) (0, 0)).2)
  (s.bumpReg MEM_HELD_SEG 1).setFrame { f with memHeld := f.memHeld ++ [seg] }

/-- Every segment of the frame has been completed or held for a memory error. -/
def Frame.finished (f : Frame) : Bool := f.done.length + f.memHeld.length = f.count

/-- A lane completes segment `seg` (R210): stages 2 and 3, its tiles, its time; one that would end past the deadline does
not complete (R75). -/
def State.completeSegment (s : State) (f : Frame) (seg stall alone : Nat) : State :=
  let r := s.composeSegment f seg
  let k := f.position seg
  let free := (f.lanes.getD (k % f.lanes.length) (0, 0)).2
  let stop := free + r.2.cost * engineClock + stall * unitNs
  if s.composeDeadline < stop then s.setFrame f
  else
    let c := f.counts
    let counts : ComposeCount :=
      { cost := c.cost + r.2.cost, time := max c.time (stop - (s.tick.begin + 2 * unitUs)), stall := c.stall + min stall alone,
        bytes := c.bytes + r.2.bytes, dram := c.dram, host := c.host, absent := c.absent + r.2.absent, fill := c.fill + r.2.fill,
        clip := c.clip + r.2.clip }
    let f := { (f.freeLane k (stop + engineClock)) with
                 done := f.done ++ [seg], counts := counts, images := sput (fun _ => {}) f.images seg r.1 }
    let s := (s.setFrame f).runTo stop
    if f.finished then s.composeOver f else s

/-- The host tiles of a segment, one after another. -/
def State.readTiles (s : State) (f : Frame) (host : List HostTile) : State × Frame :=
  host.foldl (fun p h => p.1.readTile p.2 h) (s, f)

/-- A lane takes segment `seg`: its tiles are read, and memory errors met on the way act as R482 gives. -/
def State.composeStep (s : State) (seg stall alone : Nat) (host : List HostTile) (dram : List DramTile) (errs : List BadWord) :
    State :=
  match s.frameNow with
  | none => s
  | some f =>
    if s.tick.composing = false ∨ f.laneReady seg = false ∨ s.mayCompose = false then s
    else
      let s := s.memErrors errs
      if errs.any holdsSegment then
        let s := s.holdSegment f seg
        match s.frameNow with
        | none => s
        | some f => if f.finished then s.composeOver f else s
      else
        let p := s.readTiles f host
        p.1.completeSegment (dram.foldl Frame.fetchDram p.2) seg stall alone

/-- The compose deadline (R75): the lanes stop; in a pair the held set waits for the partner's completion set (R449). -/
def State.composeEnd (s : State) : State :=
  match s.frameNow with
  | none => s
  | some f =>
    if s.tick.composing = false then s
    else
      let d := s.composeDeadline
      let s := s.runTo d
      let f := { f with counts := { f.counts with time := d - (s.tick.begin + 2 * unitUs) } }
      (s.setFrame f).composeOver f

/-! ### The commands -/

/-- COMPOSE_START (R68, R155). -/
def execComposeStart (headers : List GuardHeader) (s : State) : Res := .next (s.startCompose headers)

/-- SEGMENT_COMPOSE (R210). -/
def execSegmentCompose (seg : Fin 2560) (stallNs aloneNs : Word) (host : List HostTile) (dram : List DramTile)
    (errs : List BadWord) (s : State) : Res :=
  .next (s.composeStep seg.val stallNs.toNat aloneNs.toNat host dram errs)

/-- COMPOSE_DEADLINE (R75). -/
def execComposeDeadline (s : State) : Res := .next s.composeEnd

end Sys2Proof.Machine
end

