-- ==== Sys2Proof/Machine/Curb.lean ====
section
/-! DEFINITION. Curb, the power governor (09_curb_power_governor.md): limits and models, the sums of stage 4, the solve of
stage 5, the scaling of stage 6 and the metered correction. -/

namespace Sys2Proof.Machine

/-! ### Ports and teams (R255) -/

/-- Port `p` carries endpoint `ep`. -/
def State.portHolds (s : State) (ep p : Nat) : Bool :=
  let a := s.fld (TM_PORT_EP_FIRST_v p)
  s.bit (TM_PORT_CFG_EN p) && decide (a ≤ ep) && decide (ep < a + s.fld (TM_PORT_EP_COUNT_v p))

/-- The port that carries an endpoint, if any; ranges of enabled ports do not overlap while RUN is 1 (R256). -/
def State.portOf (s : State) (ep : Nat) : Option Nat := (List.range 8).find? (s.portHolds ep)

/-- The team of an endpoint; 16 stands for none. -/
def State.teamOf (s : State) (ep : Nat) : Nat :=
  match s.portOf ep with
  | some p => s.fld (TM_PORT_CFG_TEAM p)
  | none => 16

/-! ### The power fields of ATTR (R238) -/

def attrFeed (a : Nat) : Nat := bitsOf a 60 4
def attrPh (a : Nat) : Nat := bitsOf a 58 2
def attrClass (a : Nat) : Nat := bitsOf a 56 2
def attrUnfed (a : Nat) : Bool := bitB a 55
def attrModel (a : Nat) : Nat := bitsOf a 48 7

/-! ### Bounds (R245 – R247) -/

/-- Reset values of the bounds by 128 × KIND + INDEX. -/
def limitDflt (k : Nat) : Nat := match k / 128 with | 4 => 0 | 5 => 230000 | _ => 0xFFFFFFFF

/-- No limit. -/
def noLimit : Nat := 0xFFFFFFFF

def modelDflt (_ : Nat) : List Byte := List.replicate 24 0

/-- A SCOPE 3 record that R247 calls invalid. -/
def limitRecBad (r : List Byte) : Bool :=
  let kind := byteAt r 0
  let i := leAt r 2 2
  let v := leAt r 4 4
  byteAt r 1 ≠ 0 ||
    (match kind with
     | 0 => 63 < i || leAt r 8 16 ≠ 0
     | 1 => 15 < i || leAt r 8 16 ≠ 0
     | 2 => i ≠ 0 || leAt r 8 16 ≠ 0
     | 3 => i = 0 || 127 < i || 15 < byteAt r 6 || byteAt r 7 ≠ 0 || leAt r 20 4 ≠ 0
     | 4 => i = 0 || 3 < i || 65536 < v || leAt r 8 16 ≠ 0
     | 5 => 15 < i || v < 50000 || 500000 < v || leAt r 8 16 ≠ 0
     | _ => true)

/-- The checks of CURB_LIMITS (R246). -/
def curbChecks (_ : State) (b : List Byte) : OpChecks :=
  let scope := byteAt b 16
  let i := byteAt b 17
  let ph := byteAt b 18
  let n := dByteLen b
  { bad := (16, 3 < scope) ::
      (match scope with
       | 0 => [(17, 15 < i), (18, ph = 0 || 15 < ph), (24, n ≠ 0), (32, dHostAddr b ≠ 0)]
       | 1 => [(17, 15 < i), (18, ph ≠ 0), (24, n ≠ 0), (32, dHostAddr b ≠ 0)]
       | 2 => [(17, i ≠ 0 || ph ≠ 0), (24, n ≠ 0), (32, dHostAddr b ≠ 0)]
       | 3 => [(17, i ≠ 0), (18, ph ≠ 0), (20, leAt b 20 4 ≠ 0), (24, n = 0 || n % 24 ≠ 0)]
       | _ => [])
    payload := fun data =>
      if scope ≠ 3 then none
      else
        match (List.range (n / 24)).find? fun k => limitRecBad ((data.drop (24 * k)).take 24) with
        | some k => some (stBadField, 32 + 24 * k * 256)
        | none => none }

def State.setLimit (s : State) (kind i v : Nat) : State :=
  { s with crb := { s.crb with limits := sput limitDflt s.crb.limits (128 * kind + i) v } }

/-- One SCOPE 3 record takes effect. -/
def State.limitRecord (s : State) (r : List Byte) : State :=
  if byteAt r 0 = 3 then { s with crb := { s.crb with models := sput modelDflt s.crb.models (leAt r 2 2) (leBytes 24 (leAt r 0 24)) } }
  else s.setLimit (byteAt r 0) (leAt r 2 2) (leAt r 4 4)

/-- The bounds are set (R246, R247). -/
def State.curbEffect (s : State) (d : Running) (data : List Byte) : State :=
  let b := d.bytes
  let i := byteAt b 17
  let v := leAt b 20 4
  let s : State := match byteAt b 16 with
    | 0 => (List.range 4).foldl (fun s p => if bitB (byteAt b 18) p then s.setLimit 0 (4 * i + p) v else s) s
    | 1 => s.setLimit 1 i v
    | 2 => s.setLimit 2 0 v
    | _ => (List.range (dByteLen b / 24)).foldl (fun s k => s.limitRecord ((data.drop (24 * k)).take 24)) s
  s.done d

/-! ### Stage 4 (R239 – R241) -/

/-- The static part and the component part of a model term, each before the shift. -/
def modelTerm (m : List Byte) (comp : Nat) (v : Nat → Nat) : Nat × Nat :=
  let sh := 2 ^ byteAt m 6
  (leAt m 4 2 * 65536 * sh, (List.range comp).foldl (fun n c => n + leAt m (8 + 2 * c) 2 * v c) 0 * sh)

/-- The key of a sum: feed phase (64 for the feed-less sums), team (16 for none), class (4 for the static sum). -/
def sumKey (fp team cls : Nat) : Nat := (fp * 17 + team) * 5 + cls

def addSum (m : Sparse Nat) (k v : Nat) : Sparse Nat := sput zeroNat m k (sget zeroNat m k + v)

/-- One endpoint's model term added to the sums (R240, R241). -/
def State.addEndpoint (s : State) (x : Inputs) (img : SegImage) (seg : Nat) (sp : Span) (m : Sparse Nat) (j : Nat) : Sparse Nat :=
  let ep := sp.first + j
  let a := sp.entry.attr
  if sp.entry.comp = 0 ∨ attrModel a = 0 ∨ ep ∈ x.retired then m
  else
    let t := s.teamOf ep
    let p := modelTerm (sget modelDflt x.models (attrModel a)) sp.entry.comp fun c => sget zeroNat img.vals (8 * (ep - segSize * seg) + c)
    let add (m : Sparse Nat) (fp k : Nat) := addSum (addSum m (sumKey fp t 4) (k * p.1)) (sumKey fp t (attrClass a)) (k * p.2)
    if attrUnfed a then add m 64 3
    else if attrPh a = 3 then (List.range 3).foldl (fun m ph => add m (4 * attrFeed a + ph) 1) m
    else add m (4 * attrFeed a + attrPh a) 3

/-- The sums of a frame (R240): held segments with their previous values and attributes (R24, R241). -/
def State.frameSums (s : State) (f : Frame) : Sparse Nat :=
  (List.range f.count).foldl (fun m g =>
    let img := sget (fun _ => ({} : SegImage)) f.images g
    img.spans.foldl (fun m sp => (List.range sp.len).foldl (s.addEndpoint f.inputs img g sp) m) m) []

/-- The power of a sum in µVA (R240). -/
def powerOf (m : Sparse Nat) (k : Nat) : Nat := rhe (sget zeroNat m k) 196608

/-! ### Stage 5 (R242 – R249) -/

/-- V of a feed phase as latched. -/
def Inputs.volt (x : Inputs) (fp : Nat) : Nat := sget (fun k => sget limitDflt x.limits (128 * 5 + k / 4)) x.volts fp

/-- The current in mA of class `c` (4: static) on a feed phase, over all teams (R243). -/
def Inputs.current (x : Inputs) (m : Sparse Nat) (fp c : Nat) : Nat :=
  rhe (rhe ((List.range 17).foldl (fun n t => n + sget zeroNat m (sumKey fp t c)) 0) 196608) (x.volt fp)

/-- The cascade of R248: the factors of classes 0 – 3 and whether the load is unmet. -/
def cascade (x : Nat → Nat) (fix limit : Int) (floor : Nat → Nat) : List Nat × Bool :=
  let need : Int := fix + x 0 + x 1 + x 2 + x 3 - limit
  let one (k : Nat) (n : Int) : Nat × Int :=
    if n ≤ 0 ∨ x k = 0 then (65536, n)
    else
      let red := x k - cdiv (x k * floor k) 65536
      if (red : Int) ≤ n then (floor k, n - red) else (65536 * (x k - n.toNat) / x k, 0)
  let c3 := one 3 need
  let c2 := one 2 c3.2
  let c1 := one 1 c2.2
  ([65536, c1.1, c2.1, c3.1], 0 < c1.2)

/-- The predicted neutral current of R244 without its correction term. -/
def neutralOf (a b c : Int) : Nat := isqrtR (a * a + b * b + c * c - a * b - b * c - c * a).toNat

/-- The largest offset k < 2^n above `low` at which the capped neutral stays within `lim`, as one bit at a time. -/
def capGo (a b c low : Int) (lim : Int) : Nat → Nat → Nat
  | 0, k => k
  | n + 1, k =>
    let t := k + 2 ^ n
    let cap := low + (t : Int)
    capGo a b c low lim n (if (neutralOf (min a cap) (min b cap) (min c cap) : Int) ≤ lim then t else k)

/-- Step 1 of R249: the cap of a feed whose neutral exceeds its limit, and whether the neutral is unmet. -/
def neutralCap (a b c : Int) (cn limit : Int) : Int × Bool :=
  let low := min a (min b c)
  let high := max a (max b c)
  if limit < cn then (low, true)
  else (min high (low + (capGo a b c low (limit - cn) 64 0 : Int)), false)

/-- A scope key: feed phase fp, 64 + team, 128 for the device. -/
def scopeTeam (t : Nat) : Nat := 64 + t
def scopeGlobal : Nat := 128

def oneFactor (_ : Nat) : Nat := 65536

/-- A limit in force. -/
def Inputs.limit (x : Inputs) (kind i : Nat) : Nat := sget limitDflt x.limits (128 * kind + i)

/-- FLOOR of a class. -/
def Inputs.floor (x : Inputs) (k : Nat) : Nat := if k = 0 then 0 else x.limit 4 k

def zeroI (_ : Nat) : Int := 0

/-- Record the outcome of one cascade: its factors, and its limit as active or unmet. -/
def Solve.note (v : Solve) (key : Nat) (r : List Nat × Bool) : Solve :=
  { v with active := if (r.1.any fun f => decide (f < 65536)) ∧ key ∉ v.active then v.active ++ [key] else v.active
           unmet := if r.2 ∧ key ∉ v.unmet then v.unmet ++ [key] else v.unmet }

/-- Put four factors into a store. -/
def putFactors (m : Sparse Nat) (i : Nat) (fs : List Nat) : Sparse Nat :=
  (List.range 4).foldl (fun m k => sput oneFactor m (4 * i + k) (fs.getD k 65536)) m

/-- The predicted current of a feed phase (R243). -/
def Inputs.predicted (x : Inputs) (m : Sparse Nat) (fp : Nat) : Int :=
  ((List.range 5).foldl (fun n c => n + x.current m fp c) 0 : Nat) + sget zeroI x.corr fp

/-- Step 2 of R249 for one feed phase under effective limit `lim`, charged to `key`. -/
def Inputs.solvePhase (x : Inputs) (m : Sparse Nat) (fp lim key : Nat) (v : Solve) : Solve :=
  let r := cascade (x.current m fp) ((x.current m fp 4 : Int) + sget zeroI x.corr fp) lim x.floor
  { (v.note key r) with fp := putFactors v.fp fp r.1 }

/-- Steps 1 and 2 of R249 for one feed; a factor lowered under a cap is charged to the neutral (log entry 11). -/
def Inputs.solveFeed (x : Inputs) (m : Sparse Nat) (v : Solve) (f : Nat) : Solve :=
  let a := x.predicted m (4 * f)
  let b := x.predicted m (4 * f + 1)
  let c := x.predicted m (4 * f + 2)
  let n := 4 * f + 3
  let cn := sget zeroI x.corr n
  let neutral : Int := (neutralOf a b c : Int) + cn
  let ln := x.limit 0 n
  let v := { v with before := sput zeroI (sput zeroI (sput zeroI (sput zeroI v.before (4 * f) a) (4 * f + 1) b) (4 * f + 2) c) n neutral
                    limit := (List.range 4).foldl (fun l p => sput zeroNat l (4 * f + p) (x.limit 0 (4 * f + p))) v.limit }
  if ln = noLimit ∨ neutral ≤ (ln : Int) then
    (List.range 3).foldl (fun v p =>
      if x.limit 0 (4 * f + p) = noLimit then v else x.solvePhase m (4 * f + p) (x.limit 0 (4 * f + p)) (4 * f + p) v) v
  else
    let cap := neutralCap a b c cn ln
    let v := if cap.2 then { v with unmet := v.unmet ++ [n] } else v
    (List.range 3).foldl (fun v p =>
      let fp := 4 * f + p
      let e := (cap.1 - sget zeroI x.corr fp - (x.current m fp 4 : Int)).toNat
      if e < x.limit 0 fp then x.solvePhase m fp e n v else x.solvePhase m fp (x.limit 0 fp) fp v) v

/-- A team's class power (4: static) under the factors of step 2 (step 3 of R249). -/
def teamPower (m : Sparse Nat) (fp : Sparse Nat) (t c : Nat) : Nat :=
  (List.range 64).foldl (fun n p =>
    let q := powerOf m (sumKey p t c)
    n + (if c = 4 then q else rhe (q * sget oneFactor fp (4 * p + c)) 65536)) 0 + powerOf m (sumKey 64 t c)

/-- The device's class power under s_fp and s_tm (step 4 of R249). -/
def devicePower (m : Sparse Nat) (fp tm : Sparse Nat) (c : Nat) : Nat :=
  (List.range 17).foldl (fun n t =>
    n + (List.range 65).foldl (fun n p =>
      let q := powerOf m (sumKey p t c)
      let q := if c = 4 ∨ p = 64 then q else rhe (q * sget oneFactor fp (4 * p + c)) 65536
      n + (if c = 4 ∨ t = 16 then q else rhe (q * sget oneFactor tm (4 * t + c)) 65536)) 0) 0

/-- Step 3 of R249 for one team. -/
def Inputs.solveTeam (x : Inputs) (m : Sparse Nat) (v : Solve) (t : Nat) : Solve :=
  let p := teamPower m v.fp t
  let v := { v with before := sput zeroI v.before (scopeTeam t) ((rhe (p 0 + p 1 + p 2 + p 3 + p 4) 1000000 : Nat) : Int)
                    limit := sput zeroNat v.limit (scopeTeam t) (x.limit 1 t) }
  if x.limit 1 t = noLimit then v
  else
    let r := cascade p (p 4) ((x.limit 1 t * 1000000 : Nat) : Int) x.floor
    { (v.note (scopeTeam t) r) with tm := putFactors v.tm t r.1 }

/-- Step 4 of R249. -/
def Inputs.solveGlobal (x : Inputs) (m : Sparse Nat) (v : Solve) : Solve :=
  let p := devicePower m v.fp v.tm
  let v := { v with before := sput zeroI v.before scopeGlobal ((rhe (p 0 + p 1 + p 2 + p 3 + p 4) 1000000 : Nat) : Int)
                    limit := sput zeroNat v.limit scopeGlobal (x.limit 2 0) }
  if x.limit 2 0 = noLimit then v
  else
    let r := cascade p (p 4) ((x.limit 2 0 * 1000000 : Nat) : Int) x.floor
    { (v.note scopeGlobal r) with gl := putFactors v.gl 0 r.1 }

/-- Step 5 of R249 over a store of `n` factors: the rise limit; EN 0 keeps every factor at 65,536. -/
def Inputs.limitRise (x : Inputs) (n : Nat) (new old : Sparse Nat) : Sparse Nat :=
  if x.curbOn = false then []
  else (List.range n).foldl (fun m k => sput oneFactor m k (min (sget oneFactor new k) (sget oneFactor old k + x.rise))) []

/-- I_model of R251 for a feed phase: the static and class currents under the final factors, without c. -/
def Inputs.modelCurrent (x : Inputs) (m : Sparse Nat) (fp : Sparse Nat) (p : Nat) : Nat :=
  rhe (65536 * (x.current m p 4 + x.current m p 0)
    + (List.range 3).foldl (fun n k => n + x.current m p (k + 1) * sget oneFactor fp (4 * p + k + 1)) 0) 65536

/-- The predictions after scaling and I_model of every feed phase. -/
def Inputs.finishSolve (x : Inputs) (m : Sparse Nat) (v : Solve) : Solve :=
  let model := (List.range 16).foldl (fun l f =>
    let i (p : Nat) := x.modelCurrent m v.fp (4 * f + p)
    let l := (List.range 3).foldl (fun l p => sput zeroNat l (4 * f + p) (i p)) l
    sput zeroNat l (4 * f + 3) (neutralOf (i 0) (i 1) (i 2))) []
  let after := (List.range 16).foldl (fun l f =>
    let i (p : Nat) : Int := ((sget zeroNat model (4 * f + p) : Nat) : Int) + sget zeroI x.corr (4 * f + p)
    let l := (List.range 3).foldl (fun l p => sput zeroI l (4 * f + p) (i p)) l
    sput zeroI l (4 * f + 3) ((neutralOf (i 0) (i 1) (i 2) : Int) + sget zeroI x.corr (4 * f + 3))) []
  let after := (List.range 16).foldl (fun l t =>
    let p (c : Nat) := let q := teamPower m v.fp t c; if c = 4 then q else rhe (q * sget oneFactor v.tm (4 * t + c)) 65536
    sput zeroI l (scopeTeam t) ((rhe (p 0 + p 1 + p 2 + p 3 + p 4) 1000000 : Nat) : Int)) after
  let g (c : Nat) := let q := devicePower m v.fp v.tm c; if c = 4 then q else rhe (q * sget oneFactor v.gl c) 65536
  { v with model := model, after := sput zeroI after scopeGlobal ((rhe (g 0 + g 1 + g 2 + g 3 + g 4) 1000000 : Nat) : Int) }

/-- Stage 5 for a frame with inputs `x` and sums `m`; `last` is the previous frame's solve. -/
def Inputs.solve (x : Inputs) (m : Sparse Nat) (last : Solve) (tick : Nat) : Solve :=
  let v := (List.range 16).foldl (x.solveFeed m) {}
  let v := (List.range 16).foldl (x.solveTeam m) v
  let v := x.solveGlobal m v
  let v := { v with fp := x.limitRise 256 v.fp last.fp, tm := x.limitRise 64 v.tm last.tm, gl := x.limitRise 4 v.gl last.gl, tick := tick }
  x.finishSolve m v

/-! ### The solve of a tick (R23, R449, R450) -/

/-- The partner's completion set of the frame in compose. -/
def State.partnerSet (s : State) (f : Frame) : Option (List Nat × List Nat) :=
  match s.tdm.cset with
  | none => none
  | some (t, done, mem) => if t = f.tick then some (done, mem) else none

/-- Stage 5 may start (R22, R449). -/
def State.mayResolve (s : State) (f : Frame) : Bool :=
  s.tick.composed && !s.tick.solved && (!s.inPair || (s.partnerSet f).isSome || s.tdm.csetGivenUp)

/-- In a pair both units hold the union of what either failed to complete (R77, R449); without the partner's CSET the frame
is unverified and each holds its own set (R450), as does a unit that left the pair after it sent its own. -/
def State.settlePair (s : State) (f : Frame) : State :=
  if s.inPair = false then (if s.tdm.csetAt.isSome then s.settleHolds f f.unfinished else s)
  else
    match s.partnerSet f with
    | none =>
      let s : State := { s with tdm := { s.tdm with unverified := s.tdm.unverified ++ [f.tick], unverifiedAt := some s.tb.now } }
      s.settleHolds f f.unfinished
    | some (done, mem) =>
      let held := ((List.range f.count).map f.atPosition).filter fun g => decide (g ∉ f.done ∨ g ∉ done)
      s.settleHolds { f with memHeld := f.memHeld ++ mem.filter fun g => decide (g ∉ f.memHeld) } held

/-- Stage 5 fixes the scale factors of the frame. -/
def State.curbSolve (s : State) : State :=
  match s.frameNow with
  | none => s
  | some f =>
    if s.mayResolve f = false then s
    else
      let s := s.settlePair f
      match s.frameNow with
      | none => s
      | some f =>
        let v := f.inputs.solve (s.frameSums f) s.crb.last f.tick
        let s := s.setFrame { f with solve := v, solved := true }
        { s with tick := { s.tick with solved := true }
                 crb := { s.crb with last := v, due := some v, inFlight := s.crb.inFlight ++ [(f.tick + s.depth, v.model)] } }

/-! ### What telemetry close shows (R254) -/

/-- The event of a limit, with its scope key. -/
def State.curbEvent (s : State) (typ : Nat) (v : Solve) (key : Nat) : State :=
  let scope := if key < 64 then 0 else if key < 128 then 1 else 2
  let idx := if key < 64 then key / 4 else if key < 128 then key - 64 else 0
  let ph := if key < 64 then key % 4 else 0
  s.postNow typ 0 0 [(16, 1, scope), (17, 1, idx), (18, 1, ph), (20, 4, toField 32 (sget zeroI v.before key)),
    (24, 4, sget zeroNat v.limit key), (28, 4, v.tick % 2 ^ 32)]

/-- CURB_ACTIVE, CURB_CLEAR and CURB_UNMET of the close, by type. -/
def State.curbEvents (s : State) (v : Solve) : State :=
  let was := s.crb.active
  let wasUnmet := s.crb.unmet
  let s := (v.active.filter fun k => decide (k ∉ was)).foldl (fun s k => s.curbEvent 0x30 v k) s
  let s := (was.filter fun k => decide (k ∉ v.active)).foldl (fun s k => s.curbEvent 0x31 v k) s
  let s := (v.unmet.filter fun k => decide (k ∉ wasUnmet)).foldl (fun s k => s.curbEvent 0x32 v k) s
  { s with crb := { s.crb with active := v.active, unmet := v.unmet } }

/-- The CRB registers of the latest completed solve. -/
def State.curbRegs (s : State) (x : Inputs) (v : Solve) : State :=
  let s := (List.range 64).foldl (fun s fp =>
    let s := s.setReg (CRB_FP_PRED fp) (toField 32 (sget zeroI v.after fp))
    let s := s.setReg (CRB_FP_CORR fp) (toField 32 (sget zeroI x.corr fp))
    let s := s.setReg (CRB_FP_VOLT fp) (if fp % 4 = 3 then 0 else x.volt fp)
    (List.range 4).foldl (fun s k => s.setReg (CRB_FP_SCALE fp k) (sget oneFactor v.fp (4 * fp + k))) s) s
  let s := (List.range 16).foldl (fun s t =>
    let s := s.setReg (CRB_TEAM_PRED t) (toField 32 (sget zeroI v.after (scopeTeam t)))
    (List.range 4).foldl (fun s k => s.setReg (CRB_TEAM_SCALE t k) (sget oneFactor v.tm (4 * t + k))) s) s
  let s := (List.range 4).foldl (fun s k => s.setReg (CRB_GLB_SCALE k) (sget oneFactor v.gl k)) s
  let s := s.setReg CRB_GLB_PRED (toField 32 (sget zeroI v.after scopeGlobal))
  let s := (s.setFld CRB_STATUS_ACTIVE (min 0xFFFF v.active.length)).setFld CRB_STATUS_UNMET (min 255 v.unmet.length)
  if v.unmet = [] then s else s.bumpReg CRB_UNMET_CNT 1

/-- Curb's part of a telemetry close. -/
def State.closeCurb (s : State) : State :=
  match s.crb.due with
  | none => s
  | some v =>
    let x := match s.frameAt v.tick with | some f => f.inputs | none => {}
    let s := (s.curbRegs x v).curbEvents v
    { s with crb := { s.crb with due := none } }

/-! ### Metered correction (R251, R252) -/

/-- One correction term after tick N: `meas` is the metered RMS current, `model` I_model of the frame presented at N. -/
def State.corrStep (s : State) (c meas model : Int) : Int :=
  let e := meas - model
  let tau := max 10 (s.fld CRB_CORR_TAU_v)
  let m : Int := (s.fld CRB_CORR_MAX_v : Nat)
  clampI (-m) m (c + rheI (e - c) tau)

/-- The correction term of feed phase `fp` at a boundary: `meas` is none where the feed is not enabled or reported a fault
(R252); a term that reaches its bound posts CURB_CORR_CLAMP (R254). -/
def State.correct (s : State) (ended fp : Nat) (meas : Option Nat) : State :=
  match meas with
  | none => s
  | some i =>
    match s.crb.inFlight.find? fun p => p.1 = ended with
    | none => s
    | some (_, model) =>
      let c := sget zeroI s.crb.corr fp
      let im : Nat := sget zeroNat model fp
      let c' := s.corrStep c i im
      let m := s.fld CRB_CORR_MAX_v
      let s := { s with crb := { s.crb with corr := sput zeroI s.crb.corr fp c' } }
      if c'.natAbs = m ∧ c.natAbs < m then
        s.postNow 0x33 0 0 [(16, 1, 0), (17, 1, fp / 4), (18, 1, fp % 4), (20, 4, toField 32 ((i : Int) - im)),
          (24, 4, sget limitDflt s.crb.limits fp), (28, 4, s.tickNo % 2 ^ 32)]
      else s

/-- Every correction term at action (4) of a boundary (R251, R252): `meas` gives the metered current of tick `ended`,
`first` tells that it was the first tick of a run. -/
def State.correctAll (s : State) (ended : Nat) (first : Bool) (meas : Nat → Option Nat) : State :=
  if s.crb.clear then { s with crb := { s.crb with corr := [], clear := false } }
  else if s.bit CRB_CTRL_CORR_EN = false ∨ first ∨ ended ∈ s.crb.lateTicks then s
  else (List.range 64).foldl (fun s fp => s.correct ended fp (meas fp)) s

/-! ### Stage 6 (R250) -/

/-- The scale of an endpoint of class k: the product of its three factors. -/
def Solve.scaleOf (v : Solve) (attr team : Nat) : Nat :=
  let k := attrClass attr
  if k = 0 then 65536
  else
    let f (p : Nat) := sget oneFactor v.fp (4 * (4 * attrFeed attr + p) + k)
    let sp := if attrUnfed attr then 65536 else if attrPh attr = 3 then min (f 0) (min (f 1) (f 2)) else f (attrPh attr)
    let t := if team = 16 then 65536 else sget oneFactor v.tm (4 * team + k)
    rhe (rhe (sp * t) 65536 * sget oneFactor v.gl k) 65536

/-- A component after Curb scaling. -/
def Solve.scaled (v : Solve) (attr team x : Nat) : Nat := if attrClass attr = 0 then x else rhe (x * v.scaleOf attr team) 65536

/-- CORR_CLR is written 1 (R252). -/
def State.clearCorr (s : State) : State := { s with crb := { s.crb with clear := true } }

/-! ### The commands -/

/-- CURB_LIMITS (R246). -/
def execCurbLimits (r : Fin 32) (payload : Option (List Byte)) (s : State) : Res :=
  .next (s.runOp r.val 0x40 payload curbChecks noReserve State.curbEffect)

/-- CURB_SOLVE (R249). -/
def execCurbSolve (s : State) : Res := .next s.curbSolve

/-- CURB_CORR_CLEAR (R252): a write of 1 to CRB_CTRL.CORR_CLR zeroes every correction term at the next boundary. -/
def execCurbCorrClear (s : State) : Res := .next (s.onBlock CRB_CTRL s.clearCorr)

end Sys2Proof.Machine
end

