-- ==== Sys2Proof/Machine/Tack.lean ====
section
/-! DEFINITION. Keys on the wire (19_saddle_bridle_and_tack_room.md, R504 – R516): owner slots, working keys, and the key of
each trace port. -/

namespace Sys2Proof.Machine

/-- The 48 bytes of a slot key. -/
def Shares.bytes (x : Shares) : List Byte := beBytes 48 x.value

/-- A secret of value `v` in shares made by the random word `r`. -/
def shared (r v : Nat) : Shares := { a := r, b := Nat.xor r v }

/-- Key epoch `a` has reached `b` (R514). -/
def keReached (a b : Nat) : Bool := (a + 2 ^ 26 - b % 2 ^ 26) % 2 ^ 26 < 2 ^ 25

/-- The key epoch of a tick (R507). -/
def keOf (tick : Nat) : Nat := tick % 2 ^ 32 / 64

/-- The key that frames of key epoch `ke` use (R514, R526). -/
def KeySlot.keyAt (x : KeySlot) (ke : Nat) : List Byte :=
  match x.old with
  | some (_, k) => if keReached ke x.effKe then x.key.bytes else k.bytes
  | none => x.key.bytes

/-- The working keys of R507. -/
def traceKey (k : List Byte) (session ke : Nat) : List Byte := hkdfExpand k (ascii "ZJM trace" ++ leBytes 4 session ++ leBytes 4 ke) 32
def nodeKey (m : List Byte) (n : Nat) : List Byte := hkdfExpand m (ascii "ZJM node" ++ leBytes 4 n) 48
def nodeSessionKey (nk : List Byte) (session ke : Nat) : List Byte := hkdfExpand nk (ascii "ZJM nsess" ++ leBytes 4 session ++ leBytes 4 ke) 32
def nodeWrapKey (nk : List Byte) : List Byte := hkdfExpand nk (ascii "ZJM keywrap") 32
def linkKey (k : List Byte) : List Byte := hkdfExpand k (ascii "ZJM tandem") 32

/-- SESSION (R509). -/
def State.session (s : State) : Nat := s.reg TKR_SESSION

/-- KEY_ID of a frame (R508). -/
def keyId (node : Bool) (slot session : Nat) : Nat := b2n node * 2 ^ 31 + slot % 64 * 2 ^ 25 + session % 2 ^ 25

/-- The domain key of trace port `p` for key epoch `ke` with its KEY_ID; none while the port may send no trace frame (R507, R509,
R515, R524, R525). -/
def State.portKey (s : State) (p ke : Nat) : Option (Nat × List Byte) :=
  match s.namedSlot (TKR_PORT_DOM p) with
  | none => none
  | some i =>
    let x := s.slot i
    if x.live = false ∨ x.kind ≠ 5 ∨ x.silent ∨ s.tm.held then none
    else some (keyId false i s.session, traceKey (x.keyAt ke) s.session ke)

/-- The node key of node `n` under the node master slot, with its slot (R507, R525). -/
def State.nodeKeyOf (s : State) (n : Nat) : Option (Nat × List Byte) :=
  match s.namedSlot TKR_NODE_MASTER with
  | none => none
  | some i => if (s.slot i).live ∧ (s.slot i).kind = 6 then some (i, nodeKey (s.slot i).key.bytes n) else none

/-- The link key of the pair (R507, R525). -/
def State.pairKey (s : State) : Option (List Byte) :=
  match s.namedSlot TKR_PAIR_SLOT with
  | none => none
  | some i => if (s.slot i).live ∧ (s.slot i).kind = 7 then some (linkKey (s.slot i).key.bytes) else none

end Sys2Proof.Machine
end

