-- ==== Sys2Proof/Machine/Egress.lean ====
section
/-! DEFINITION. Encode and the frames of a trace port (10_teams_and_scanout.md, 11_trace_protocol_and_legacy_outputs.md):
parts and units, the check-before-release buffer, part digests, the freeze detector, trace messages and sACN packets. -/

namespace Sys2Proof.Machine

/-! ### Ports -/

def portDflt (_ : Nat) : TracePort := {}
def teamDflt (_ : Nat) : TeamOut := {}

def State.port (s : State) (p : Nat) : TracePort := sget portDflt s.tm.ports p
def State.setPort (s : State) (p : Nat) (x : TracePort) : State := { s with tm := { s.tm with ports := sput portDflt s.tm.ports p x } }
def State.team (s : State) (t : Nat) : TeamOut := sget teamDflt s.tm.teams t
def State.setTeam (s : State) (t : Nat) (x : TeamOut) : State := { s with tm := { s.tm with teams := sput teamDflt s.tm.teams t x } }

/-- The endpoint range of a port: its first endpoint and the one after its last (R255). -/
def State.portFirst (s : State) (p : Nat) : Nat := s.fld (TM_PORT_EP_FIRST_v p)
def State.portStop (s : State) (p : Nat) : Nat := s.portFirst p + s.fld (TM_PORT_EP_COUNT_v p)
def State.portTeam (s : State) (p : Nat) : Nat := s.fld (TM_PORT_CFG_TEAM p)
def State.portOn (s : State) (p : Nat) : Bool := p < 8 && s.bit (TM_PORT_CFG_EN p)

/-- The enabled ports, and those of team `t`. -/
def State.portsOn (s : State) : List Nat := (List.range 8).filter s.portOn
def State.teamPorts (s : State) (t : Nat) : List Nat := s.portsOn.filter fun p => decide (s.portTeam p = t)

/-- Team `t` runs in Loose gait (TK_GAIT). -/
def State.loose (s : State) (t : Nat) : Bool := bitB (s.reg TK_GAIT) t

/-- The port sends sACN (TM_TRC_PORT.FORMAT 1). -/
def State.isSacn (s : State) (p : Nat) : Bool := s.fld (TM_TRC_PORT_FORMAT p) = 1

/-- The ETH window's link is up. -/
def State.linkUp (s : State) (w : Nat) : Bool := decide (w ∈ s.tm.links)

/-- What the port may send: by role, service state and link (R29, R441, R492). -/
def State.sends (s : State) (p : Nat) : Bool := s.transmits && decide (s.svc = 1) && s.linkUp p

/-- Octets before the trace message, and the IP and UDP octets among them, by encapsulation (R283). -/
def encapOctets (encap : Nat) : Nat := match encap with | 1 => 42 | 2 => 62 | _ => 14
def ipOctets (encap : Nat) : Nat := match encap with | 1 => 28 | 2 => 48 | _ => 0
def State.headOctets (s : State) (p : Nat) : Nat := encapOctets (s.fld (TM_TRC_PORT_ENCAP p)) + 4 * s.fld (TM_TRC_PORT_VLAN p)

/-- TM_PORT_OVH (R285): HDR and TAIL in slots. -/
def State.ovhHdr (s : State) (p : Nat) : Nat := cdiv (s.headOctets p + 64) 8
def ovhTail : Nat := 3

/-- Octets of drive values that a DATA frame may carry (R284). -/
def State.dataMax (s : State) (p : Nat) : Nat := s.fld TM_TRC_MTU_v - ipOctets (s.fld (TM_TRC_PORT_ENCAP p)) - 80

/-- `n` slots as an interval: 2.56 ns at 25GBASE-R, 6.4 ns at 10GBASE-R. -/
def State.slots (s : State) (p n : Nat) : Nat := n * (if s.bit (TM_PORT_CFG_SPEED p) then 640 else 256) * unitNs / 100

/-! ### The frame in its release tick (R66) -/

/-- The frame in its release tick. -/
def State.frameOut (s : State) : Option Frame := if s.tickNo + 1 < s.depth then none else s.frameAt (s.tickNo + 1 - s.depth)

/-- Its presentation tick and the time of its presentation boundary (R287). -/
def State.presTick (s : State) : Nat := s.tickNo + 1
def State.presTime (s : State) : Nat := s.tick.next

/-- The release deadline (R67). -/
def State.deadline (s : State) : Nat := s.tick.next - s.reg TK_REL_GUARD * unitNs

/-- An endpoint of a frame with its record. -/
structure Entry where
  ep : Nat
  attr : Nat
  comp : Nat
  deriving DecidableEq, Repr

def noImage (_ : Nat) : SegImage := {}

/-- The endpoints with components of segment `g` in `[a, e)`, in ascending order. -/
def Frame.segEntries (f : Frame) (g a e : Nat) : List Entry :=
  (sget noImage f.images g).spans.flatMap fun x =>
    ((List.range x.len).map fun j => { ep := x.first + j, attr := x.entry.attr, comp := x.entry.comp : Entry }).filter
      fun y => decide (y.comp ≠ 0 ∧ a ≤ y.ep ∧ y.ep < e)

/-- Segments of the frame that meet `[a, e)`. -/
def Frame.segsIn (f : Frame) (a e : Nat) : List Nat :=
  (List.range f.count).filter fun g => decide (g * segSize < e ∧ a < (g + 1) * segSize ∧ a < e)

/-- The endpoints with components in `[a, e)`. -/
def Frame.entries (f : Frame) (a e : Nat) : List Entry := (f.segsIn a e).flatMap fun g => f.segEntries g a e

/-- Components of a list of entries. -/
def compsOf (es : List Entry) : Nat := es.foldl (fun n x => n + x.comp) 0

/-- The segments that have a part on port `p` (R257), and the endpoint range of a part. -/
def State.partSegs (s : State) (f : Frame) (p : Nat) : List Nat := f.segsIn (s.portFirst p) (s.portStop p)
def State.partFirst (s : State) (p g : Nat) : Nat := max (s.portFirst p) (g * segSize)
def State.partStop (s : State) (p g : Nat) : Nat := min (s.portStop p) ((g + 1) * segSize)

/-- The residual part of a segment (R451): the endpoints that no enabled port carries. -/
def State.residualEntries (s : State) (f : Frame) (g : Nat) : List Entry :=
  (f.segEntries g (g * segSize) ((g + 1) * segSize)).filter fun x => (s.portOf x.ep).isNone
def State.residualFirst (s : State) (g : Nat) : Option Nat :=
  ((List.range segSize).map fun j => g * segSize + j).find? fun e => (s.portOf e).isNone

/-! ### Units (R268, R274, R293, R308) -/

/-- Cut `[start, stop)` where the cost of the endpoints would pass `cap`; a cut falls only between endpoints. -/
def cutGo (cap : Nat) (cost : Nat → Nat) (stop : Nat) : List Entry → Nat → Nat → List (Nat × Nat)
  | [], start, _ => [(start, stop)]
  | x :: xs, start, used =>
    if used ≠ 0 ∧ cap < used + cost x.comp then (start, x.ep) :: cutGo cap cost stop xs x.ep (cost x.comp)
    else cutGo cap cost stop xs start (used + cost x.comp)

/-- The DATA frames of a unit (R284, R293). -/
def State.pieces (s : State) (f : Frame) (p : Nat) (u : Nat × Nat) : List (Nat × Nat) :=
  cutGo (s.dataMax p) (fun c => 2 * c) u.2 (f.entries u.1 u.2) u.1 0

/-- Slots that a component takes (R308). -/
def State.slotWidth (s : State) (p : Nat) : Nat := if s.bit (TM_SACN_CFG_MODE16 p) then 2 else 1

/-- The universes of an sACN port, in order, as endpoint ranges. -/
def State.universesOf (s : State) (f : Frame) (p : Nat) : List (Nat × Nat) :=
  let es := f.entries (s.portFirst p) (s.portStop p)
  if es = [] then [] else cutGo 512 (fun c => s.slotWidth p * c) (s.portStop p) es (s.portFirst p) 0

/-- The lines of the raster with endpoints (R268). -/
def State.linesOf (s : State) (f : Frame) (p : Nat) : List (Nat × Nat) :=
  let r := bitsOf (s.reg64 TM_TEAM_RST) (4 * s.portTeam p) 4
  let stop := min (s.portStop p) (f.count * segSize)
  let n := s.fld (TM_RST_EPL_v r)
  ((List.range (s.fld (TM_RST_V1_V_ACT r))).map fun k => (s.portFirst p + k * n, min (s.portFirst p + (k + 1) * n) stop)).filter
    fun u => decide (u.1 < u.2)

/-- The units of port `p` for frame `f`. -/
def State.unitsOf (s : State) (f : Frame) (p : Nat) : List (Nat × Nat) :=
  if s.isSacn p then s.universesOf f p
  else if s.loose (s.portTeam p) then (s.partSegs f p).flatMap fun g => s.pieces f p (s.partFirst p g, s.partStop p g)
  else s.linesOf f p

/-- Octets of an E1.31 packet before its slots, within the UDP datagram. -/
def sacnHead : Nat := 126

/-- Octets on the wire of one frame with `n` components (R284, R308). -/
def State.frameOctets (s : State) (p n : Nat) : Nat :=
  if s.isSacn p then (if s.fld (TM_TRC_PORT_ENCAP p) = 2 then 62 else 42) + sacnHead + s.slotWidth p * n + 4
  else s.headOctets p + 64 + 2 * n + 20

/-- The frames of a unit: (range, components). -/
def State.unitFrames (s : State) (f : Frame) (p : Nat) (u : Nat × Nat) : List ((Nat × Nat) × Nat) :=
  (if s.isSacn p ∨ s.loose (s.portTeam p) then [u] else s.pieces f p u).map fun r => (r, compsOf (f.entries r.1 r.2))

/-- Octets of the check-before-release buffer that a unit takes (R285). -/
def State.unitBytes (s : State) (f : Frame) (p : Nat) (u : Nat × Nat) : Nat :=
  (s.unitFrames f p u).foldl (fun n r => n + cdiv (s.frameOctets p r.2) 8 * 8) 0

/-- The buffer of R258. -/
def bufferMax : Nat := 196608

/-- The unit's last endpoint lies in the part of segment `g`, whose space it takes (log entry 14). -/
def unitIn (g : Nat) (u : Nat × Nat) : Bool := (u.2 - 1) / segSize = g

/-- Octets of the part of segment `g`. -/
def State.partBytes (s : State) (f : Frame) (p g : Nat) : Nat :=
  ((s.port p).units.filter (unitIn g)).foldl (fun n u => n + s.unitBytes f p u) 0

/-- Octets of the buffer in use. -/
def State.bufferUsed (s : State) (f : Frame) (p : Nat) : Nat :=
  let x := s.port p
  (x.units.filter fun u => decide ((u.2 - 1) / segSize ∈ x.encoded ∧ (u.2 - 1) / segSize ∉ x.dropped ∧ u ∉ x.sent)).foldl
    (fun n u => n + s.unitBytes f p u) 0

/-! ### Encode (R214, R215, R227, R228, R250, R276) -/

/-- The transfer-curve output and the drive value of component `c` of an endpoint. -/
def State.encodeComp (s : State) (f : Frame) (img : SegImage) (g : Nat) (x : Entry) (c : Nat) : Nat × Nat :=
  if x.ep ∈ f.inputs.retired then (0, 0)
  else
    let v := f.solve.scaled x.attr (s.teamOf x.ep) (sget zeroNat img.vals (8 * (x.ep - segSize * g) + c))
    let y := transferOp f.inputs.colour x.attr v
    (y, ditherOp f.inputs.colour x.attr x.ep c s.presTick y)

/-- The encoded components of a list of entries of segment `g`, in order: (key, y, q). -/
def State.encodeAll (s : State) (f : Frame) (g : Nat) (es : List Entry) : List (Nat × Nat × Nat) :=
  let img := sget noImage f.images g
  es.flatMap fun x => (List.range x.comp).map fun c => (8 * x.ep + c, s.encodeComp f img g x c)

/-- The part digest (R276). -/
def partDigest (first : Nat) (ys : List (Nat × Nat × Nat)) : Nat := crc64 (leBytes 4 first ++ ys.flatMap fun y => leBytes 2 y.2.1)

/-- The drive values of a part enter the output store. -/
def State.putVals (s : State) (ys : List (Nat × Nat × Nat)) : State :=
  { s with tm := { s.tm with vals := ys.foldl (fun m y => sput zeroNat m y.1 y.2.2) s.tm.vals } }

def State.putDigest (s : State) (g p v : Nat) : State := { s with tm := { s.tm with digests := sput zeroNat s.tm.digests (16 * g + p) v } }

/-- Sequence numbers of the universes that a part completes advance, sent or not (R310). -/
def State.countUniverses (s : State) (p g : Nat) : State :=
  if s.isSacn p = false then s
  else
    let x := s.port p
    let done := (List.range x.units.length).filter fun k => match x.units[k]? with | some u => unitIn g u | none => false
    s.setPort p { x with seqs := done.foldl (fun m k => sput zeroNat m k ((sget zeroNat m k + 1) % 256)) x.seqs }

/-- The unit's first part that is not encoded; a port encodes its parts in ascending order (R259). -/
def State.nextPart (s : State) (f : Frame) (p : Nat) : Option Nat :=
  (s.partSegs f p).find? fun g => decide (g ∉ (s.port p).encoded ∧ g ∉ (s.port p).dropped)

/-- All parts of segment `g` are encoded. -/
def State.segEncoded (s : State) (f : Frame) (g : Nat) : Bool :=
  (s.portsOn.all fun p => decide (g ∉ s.partSegs f p ∨ g ∈ (s.port p).encoded))
    && (decide (g ∈ s.tm.residual) || (s.residualFirst g).isNone)

/-! ### The freeze detector (R277 – R279) -/

/-- The frame has moved for team `t` (R278). -/
def State.teamMoved (s : State) (f : Frame) (t : Nat) : Bool :=
  (List.range 4).any fun i => s.bit (TM_FRZ_SRC_EN t i) &&
    decide (sget zeroNat f.gens (s.fld (TM_FRZ_SRC_LAYER t i)) ≠ sget zeroNat (s.team t).gens (s.fld (TM_FRZ_SRC_LAYER t i)))

/-- Bit `t` of TM_STATUS.FREEZE. -/
def State.frozen (s : State) (t : Nat) : Bool := bitB (s.fld TM_STATUS_FREEZE) t
def State.setFrozen (s : State) (t : Nat) (v : Bool) : State := s.setFld TM_STATUS_FREEZE (setBits (s.fld TM_STATUS_FREEZE) t 1 (b2n v))

/-- An event for the next telemetry close. -/
def State.atClose (s : State) (e : Event) : State := { s with tm := { s.tm with events := s.tm.events ++ [e] } }

/-- FREEZE_CLEARED with its cause; `z` is the count before (R281). -/
def State.unfreeze (s : State) (t cause z : Nat) : State :=
  (s.setFrozen t false).atClose (s.event 0x39 0 0 [(16, 1, t), (17, 1, cause), (20, 4, z), (28, 4, s.tickNo % 2 ^ 32)])

/-- The count of R279 after a frame with signature `sig`. -/
def State.freezeCount (s : State) (f : Frame) (t sig : Nat) : Nat :=
  let x := s.team t
  if x.fresh ∨ x.sig ≠ sig then 0 else if s.teamMoved f t then satAdd 16 (s.fld (TM_FRZ_CNT_v t)) 1 else s.fld (TM_FRZ_CNT_v t)

/-- The output signature of team `t` is fixed: the freeze count and its bit follow (R277, R279). -/
def State.fixTeam (s : State) (f : Frame) (t : Nat) : State :=
  if (s.team t).fixed then s
  else
    let sig := (s.teamPorts t).foldl (fun x p => (s.partSegs f p).foldl (fun x g => Nat.xor x (sget zeroNat s.tm.digests (16 * g + p))) x) 0
    let old := s.fld (TM_FRZ_CNT_v t)
    let z := s.freezeCount f t sig
    let on := s.bit (TM_FRZ_CTRL_EN t)
    let s := s.setReg64 (TM_FRZ_SIG t) sig
    let s := s.setTeam t { s.team t with fixed := true, fresh := if on then false else (s.team t).fresh, sig := sig, gens := f.gens }
    if on = false then s
    else
      let s := s.setFld (TM_FRZ_CNT_v t) z
      let lim := max 1 (s.fld (TM_FRZ_CTRL_FRZ_TICKS t))
      if s.frozen t ∧ z = 0 then s.unfreeze t 0 old
      else if s.frozen t = false ∧ lim ≤ z then
        (s.setFrozen t true).atClose
          (s.event 0x38 0 0 [(16, 1, t), (20, 4, lim), (24, 4, sig % 2 ^ 32), (28, 4, s.tickNo % 2 ^ 32)])
      else s

/-- TM_FRZ_CTRL.EN of team `t` changes (R279). -/
def State.freezeEnable (s : State) (t : Nat) (on : Bool) : State :=
  if on then s.setTeam t { s.team t with fresh := true }
  else if s.frozen t then s.unfreeze t 1 (s.fld (TM_FRZ_CNT_v t)) else s

/-! ### PART_ENCODE (R257 – R261) -/

/-- What the line buffer of a port met while the part was fetched: starvation, entries into level 3, the level now. -/
def State.noteFetch (s : State) (p starved l3 level : Nat) : State :=
  let x := s.port p
  let s := s.setPort p { x with starved := (x.starved.1 + starved, x.starved.2 + l3) }
  (((s.bumpReg (TM_PORT_STARVE p) starved).bump (TM_PORT_URG_L3_ENTRY p) l3).setFld (TM_PORT_URG_LEVEL p) level)

/-- The check permits segment `g` to leave (R28, R452). -/
def State.clearSegment (s : State) (g : Nat) : State :=
  if g ∈ s.tm.cleared then s else { s with tm := { s.tm with cleared := s.tm.cleared ++ [g] } }

/-- A segment whose parts are all encoded leaves without a check while the lanes are disabled (R28). -/
def State.partDone (s : State) (f : Frame) (g : Nat) : State :=
  if s.role = tdmDown ∧ s.segEncoded f g then s.clearSegment g else s

/-- A memory error on the frame store or a buffer loses the part (R482). -/
def losesPart (w : BadWord) : Bool :=
  wordLost w && (match w.holds with
    | .frameStore _ => true
    | .lineBuffer => true
    | .releaseBuffer => true
    | .other | .mapBlock _ | .layerTile _ | .guardCopy _ | .rider | .tileCache | .mapCache | .temp _ | .trim _ | .ladder _
    | .retired _ | .retiredNode _ _ | .presence _ | .curbTerm _ | .phasor _ | .cue _ | .eventItem _ _ | .fence _ | .secure => false)

/-- Port `p` encodes its next part. -/
def State.encodePort (s : State) (f : Frame) (p g : Nat) (lost : Bool) : State :=
  let x := s.port p
  if lost then s.setPort p { x with dropped := x.dropped ++ [g] }
  else
    let n := s.bufferUsed f p + s.partBytes f p g
    if bufferMax < n then s
    else
      let a := s.partFirst p g
      let ys := s.encodeAll f g (f.segEntries g a (s.partStop p g))
      let s := ((s.putVals ys).putDigest g p (partDigest a ys)).countUniverses p g
      let s := s.setPort p { s.port p with encoded := x.encoded ++ [g] }
      let s := s.setFld (TM_PORT_CBR_MAX_v p) (max (s.fld (TM_PORT_CBR_MAX_v p)) n)
      let t := s.portTeam p
      let s := if (s.teamPorts t).all fun q => (s.nextPart f q).isNone then s.fixTeam f t else s
      s.partDone f g

/-- The internal output path encodes the next residual part (R451). -/
def State.encodeResidual (s : State) (f : Frame) : State :=
  match (List.range f.count).find? fun g => decide (g ∉ s.tm.residual) && (s.residualFirst g).isSome with
  | none => s
  | some g =>
    let ys := s.encodeAll f g (s.residualEntries f g)
    let s := (s.putVals ys).putDigest g 8 (partDigest ((s.residualFirst g).getD 0) ys)
    ({ s with tm := { s.tm with residual := s.tm.residual ++ [g] } } : State).partDone f g

/-- The path `p` (0 – 7 a trace port, 8 the internal path) encodes its next part of the frame in its release tick. -/
def State.encodeNext (s : State) (p starved l3 level : Nat) (errs : List BadWord) : State :=
  match s.frameOut with
  | none => s
  | some f =>
    if s.tick.running = false ∨ s.tm.ended ∨ f.solved = false then s
    else
      let s := s.memErrors errs
      if p = 8 then s.encodeResidual f
      else if s.portOn p = false then s
      else
        let s := s.noteFetch p starved l3 level
        match s.nextPart f p with
        | none => s
        | some g => s.encodePort f p g (errs.any losesPart)

/-! ### Trace messages (R283, R286 – R288) -/

/-- SENDER of port `p`. -/
def State.sender (s : State) (p : Nat) : Nat := s.fld TM_TRC_UNIT_v * 8 + p

/-- A trace message of the present tick: header and body, then its tag. -/
def State.message (s : State) (p typ level : Nat) (cont : Bool) (first count kid frameNo : Nat) (key body : List Byte) : List Byte :=
  let t := s.presTime
  let epoch := leBytes 2 (s.fld TDM_EPOCH_v)
  let head := leBytes 2 0x5A54 ++ leBytes 1 (level * 16 + typ) ++ leBytes 1 (b2n cont) ++ leBytes 2 (48 + body.length) ++ epoch
    ++ leBytes 4 (s.sender p) ++ leBytes 4 s.presTick ++ leBytes 2 frameNo ++ leBytes 6 (secOf t) ++ leBytes 4 (nsOf t)
    ++ leBytes 4 first ++ leBytes 4 count ++ leBytes 4 kid ++ leBytes 8 0
  let iv := leBytes 4 (s.sender p) ++ leBytes 4 s.presTick ++ leBytes 2 frameNo ++ epoch
  head ++ body ++ gmac key iv (head ++ body)

/-- The octets before a message (R283): at ENCAP 0 the addresses, the VLAN tag and the EtherType; the port's own addresses
and what the spec does not fix of the IP headers are free (log entry 15). -/
def State.encap (s : State) (p len : Nat) : List Byte :=
  let vlan := if s.bit (TM_TRC_PORT_VLAN p) then beBytes 2 0x8100 ++ beBytes 2 (s.fld (TM_TRC_PORT_PCP p) * 8192 + s.fld (TM_TRC_PORT_VID p)) else []
  match s.fld (TM_TRC_PORT_ENCAP p) with
  | 1 => Config.ipHead [4, p, s.reg (TM_TRC_DIP p 0), s.fld TM_TRC_CFG_UDP_PORT, len] ++ vlan
  | 2 => Config.ipHead [6, p, s.reg (TM_TRC_DIP p 0), s.reg (TM_TRC_DIP p 1), s.reg (TM_TRC_DIP p 2), s.reg (TM_TRC_DIP p 3),
      s.fld TM_TRC_CFG_UDP_PORT, len] ++ vlan
  | _ => leBytes 6 (s.reg64 (TM_TRC_DMAC p)) ++ Config.ownMac p ++ vlan ++ beBytes 2 (s.fld TM_TRC_CFG_ETYPE)

/-- A frame leaves port `p` at instant `start` and holds the wire for `octets` and the gap (R269, R273). -/
def State.placeFrame (s : State) (p : Nat) (kind : FrameKind) (octets start : Nat) (bytes : List Byte) : State :=
  let x := s.port p
  (s.setPort p { x with free := start + s.slots p (cdiv octets 8 + 3) }).emit (.frame p kind bytes)

/-- A trace frame leaves with the next FRAME_NO. -/
def State.placeTrace (s : State) (p : Nat) (kind : FrameKind) (octets start : Nat) (bytes : List Byte) : State :=
  let s := s.placeFrame p kind octets start bytes
  s.setPort p { s.port p with frameNo := (s.port p).frameNo + 1 }

/-- The octets of the frame end by the release deadline (R263). -/
def State.fits (s : State) (p octets start : Nat) : Bool := start + s.slots p (cdiv octets 8) ≤ s.deadline

/-! ### DATA (R292, R295) -/

/-- Nodes whose locator meets `[a, e)`: the first and how many. -/
def nodesIn (ls : Sparse Locator) (a e : Nat) : Nat × Nat :=
  let ns := (ls.filter fun kv => decide (kv.2.first < e ∧ a < kv.2.first + kv.2.count)).map fun kv => kv.1
  match ns, ns.getLast? with
  | n :: _, some m => (n, m - n + 1)
  | _, _ => (0, 0)

def noLocs (_ : Nat) : Nat × Sparse Locator := (0, [])

/-- The body of a DATA frame. -/
def State.dataBody (s : State) (f : Frame) (p : Nat) (r : Nat × Nat) : List Byte :=
  let es := f.entries r.1 r.2
  leBytes 4 r.1 ++ leBytes 4 (compsOf (f.entries (s.portFirst p) r.1)) ++ leBytes 2 (r.2 - r.1) ++ leBytes 2 (compsOf es)
    ++ leBytes 2 (r.1 / segSize) ++ leBytes 1 (sget noLocs f.locs p).1 ++ leBytes 1 0
    ++ es.flatMap fun x => (List.range x.comp).flatMap fun c => leBytes 2 (sget zeroNat s.tm.vals (8 * x.ep + c))

/-- One DATA frame; without a key nothing is sent (R525). -/
def State.sendData (s : State) (f : Frame) (p : Nat) (r : Nat × Nat) (cont : Bool) (start : Nat) : State :=
  match s.portKey p (keOf s.presTick) with
  | none => s
  | some (kid, key) =>
    let n := nodesIn (sget noLocs f.locs p).2 r.1 r.2
    let m := s.message p 2 1 cont n.1 n.2 kid (s.port p).frameNo key (s.dataBody f p r)
    s.placeTrace p .data (s.frameOctets p (compsOf (f.entries r.1 r.2))) start (s.encap p m.length ++ m)

/-! ### sACN (R307 – R310) -/

/-- FLAGS and LENGTH of an E1.31 layer. -/
def e131Len (n : Nat) : List Byte := beBytes 2 (0x7000 + n)

/-- The CID of the device. -/
def State.cid (s : State) : List Byte := (List.range 4).flatMap fun w => leBytes 4 (s.reg (TM_SACN_CID w))

/-- The source name, padded to 64 octets. -/
def sourceName (p : Nat) : List Byte := leBytes 64 (leAt (ascii "ZJM-5120 TP" ++ [BitVec.ofNat 8 (48 + p)]) 0 12)

/-- The root layer of E1.31 around a framing layer. -/
def State.e131Root (s : State) (vector : Nat) (frame : List Byte) : List Byte :=
  beBytes 2 0x0010 ++ beBytes 2 0 ++ ascii "ASC-E1.17" ++ [0, 0, 0] ++ e131Len (22 + frame.length) ++ beBytes 4 vector ++ s.cid ++ frame

/-- A data packet of universe `u` with its slots. -/
def State.e131Data (s : State) (p u seq : Nat) (terminated : Bool) (slots : List Byte) : List Byte :=
  let dmp := e131Len (11 + slots.length) ++ leBytes 1 2 ++ leBytes 1 0xA1 ++ beBytes 2 0 ++ beBytes 2 1 ++ beBytes 2 (slots.length + 1)
    ++ leBytes 1 0 ++ slots
  let sync := if s.bit (TM_SACN_CFG_SYNC_EN p) then s.fld (TM_SACN_SYNC_v p) else 0
  s.e131Root 4 (e131Len (77 + dmp.length) ++ beBytes 4 2 ++ sourceName p ++ leBytes 1 (s.fld (TM_SACN_CFG_PRIORITY p)) ++ beBytes 2 sync
    ++ leBytes 1 seq ++ leBytes 1 (if terminated then 0x40 else 0) ++ beBytes 2 u ++ dmp)

/-- A synchronisation packet. -/
def State.e131Sync (s : State) (p seq : Nat) : List Byte :=
  s.e131Root 8 (e131Len 11 ++ beBytes 4 1 ++ leBytes 1 seq ++ beBytes 2 (s.fld (TM_SACN_SYNC_v p)) ++ beBytes 2 0)

/-- A universe discovery packet for universes `us`. -/
def State.e131Discovery (s : State) (p : Nat) (us : List Nat) : List Byte :=
  let list := e131Len (8 + 2 * us.length) ++ beBytes 4 1 ++ leBytes 1 0 ++ leBytes 1 0 ++ us.flatMap (beBytes 2)
  s.e131Root 8 (e131Len (74 + list.length) ++ beBytes 4 2 ++ sourceName p ++ beBytes 4 0 ++ list)

/-- The IP headers of an sACN datagram to universe `u`: TM_TRC_DIP when that is not 0 (R307). -/
def State.sacnHeadTo (s : State) (p u len : Nat) : List Byte :=
  Config.ipHead ([if s.fld (TM_TRC_PORT_ENCAP p) = 2 then 6 else 4, p, u, 5568, len] ++ (List.range 4).map fun w => s.reg (TM_TRC_DIP p w))

/-- The slots of a universe (R308). -/
def State.slotsOf (s : State) (f : Frame) (p : Nat) (u : Nat × Nat) : List Byte :=
  (f.entries u.1 u.2).flatMap fun x => (List.range x.comp).flatMap fun c =>
    let v := sget zeroNat s.tm.vals (8 * x.ep + c)
    if s.bit (TM_SACN_CFG_MODE16 p) then beBytes 2 v else leBytes 1 (v / 256)

/-- The index of a unit of a port. -/
def State.unitIndex (s : State) (p : Nat) (u : Nat × Nat) : Nat := (s.port p).units.findIdx fun v => decide (v = u)

/-- The universe packet of a unit. -/
def State.sendUniverse (s : State) (f : Frame) (p : Nat) (u : Nat × Nat) (start : Nat) : State :=
  let k := s.unitIndex p u
  let n := s.fld (TM_SACN_CFG_UNIV_FIRST p) + k
  let b := s.e131Data p n (sget zeroNat (s.port p).seqs k) false (s.slotsOf f p u)
  s.placeFrame p .sacn (s.frameOctets p (compsOf (f.entries u.1 u.2))) start (s.sacnHeadTo p n b.length ++ b)

/-! ### Units on the wire (R262, R263, R273, R293) -/

/-- One frame of a unit, at instant `at'` or when the port is free, when it ends in time. -/
def sendFrame (f : Frame) (p : Nat) (last at' : Nat) (acc : State × Bool) (r : (Nat × Nat) × Nat) : State × Bool :=
  let s := acc.1
  let start := max at' (s.port p).free
  if acc.2 = false ∨ s.fits p (s.frameOctets p r.2) start = false then (s, false)
  else if s.isSacn p then (s.sendUniverse f p r.1 start, true)
  else (s.sendData f p r.1 (decide (r.1.2 < last)) start, true)

/-- The port may send data frames now: otherwise what is encoded waits or is discarded elsewhere. -/
def State.mayData (s : State) (p : Nat) : Bool := s.sends p && (s.isSacn p || (s.portKey p (keOf s.presTick)).isSome)

/-- Where the line or the part of a unit ends: frames before it have CONT set (R293). -/
def State.unitStop (s : State) (p : Nat) (u : Nat × Nat) : Nat :=
  if s.loose (s.portTeam p) then s.partStop p ((u.2 - 1) / segSize) else u.2

/-- A unit goes on the wire from instant `at'`. -/
def State.sendUnit (s : State) (f : Frame) (p : Nat) (u : Nat × Nat) (at' : Nat) : State :=
  if s.mayData p = false then s
  else
    let r := (s.unitFrames f p u).foldl (sendFrame f p (s.unitStop p u) at') (s, true)
    if r.2 then r.1.setPort p { r.1.port p with sent := (r.1.port p).sent ++ [u] } else r.1

/-- The segments that a unit draws on. -/
def unitSegs (u : Nat × Nat) : List Nat := (List.range ((u.2 - 1) / segSize + 1 - u.1 / segSize)).map fun k => u.1 / segSize + k

/-- A unit is ready when every part that it draws on is (R270); one that lost a part never goes. -/
def State.unitReady (s : State) (u : Nat × Nat) : Bool := (unitSegs u).all fun g => decide (g ∈ s.tm.ready)
def State.unitLost (s : State) (p : Nat) (u : Nat × Nat) : Bool := (unitSegs u).any fun g => decide (g ∈ (s.port p).dropped)

/-! ### SYNC (R297, R298) -/

/-- The announcement of a pending change that frames released in this tick carry: E, period, gait of team `t`. -/
def State.announcement (s : State) (t : Nat) : Nat × Nat × Nat × Nat :=
  match s.tick.change with
  | none => (0, 0, 0, 0)
  | some c =>
    let named := bitB c.mask t
    if s.tickNo < c.fixTick ∨ c.effTick ≤ s.tickNo ∨ (named = false ∧ c.periodNs = 0) then (0, 0, 0, 0)
    else (c.effTick, c.periodNs, if c.periodNs = 0 then 0 else c.periodFrac, b2n (if named then bitB c.gait t else s.loose t))

/-- The period in force from the presentation boundary. -/
def State.presPeriod (s : State) : Nat :=
  match s.tick.change with
  | none => s.tick.period
  | some c => if c.effTick ≤ s.presTick ∧ c.periodNs ≠ 0 then c.periodNs * unitNs + c.periodFrac else s.tick.period

/-- The body of a SYNC frame of port `p` that leaves at `start`. -/
def State.syncBody (s : State) (p start : Nat) : List Byte :=
  let t := s.portTeam p
  let per := s.presPeriod
  let a := s.announcement t
  leBytes 4 (per / unitNs) ++ leBytes 4 (per % unitNs) ++ leBytes 1 t ++ leBytes 1 (s.depth * 16 + b2n (s.loose t)) ++ leBytes 2 0
    ++ leBytes 4 (nsOf start) ++ leBytes 6 (secOf start) ++ leBytes 2 0 ++ leBytes 8 a.1 ++ leBytes 4 a.2.1 ++ leBytes 4 a.2.2.1
    ++ leBytes 1 a.2.2.2 ++ leBytes 7 0

/-- The port's SYNC frame leaves at `start` (R268, R274). -/
def State.sendSync (s : State) (start p : Nat) : State :=
  if s.sends p = false ∨ s.isSacn p ∨ (s.port p).sync then s
  else
    match s.portKey p (keOf s.presTick) with
    | none => s
    | some (kid, key) =>
      let at' := max start (s.port p).free
      let m := s.message p 1 1 false 0 0 kid (s.port p).frameNo key (s.syncBody p at')
      let s := s.placeTrace p .sync (s.headOctets p + 48 + 48 + 20) at' (s.encap p m.length ++ m)
      s.setPort p { s.port p with sync := true }

end Sys2Proof.Machine
end

