-- ==== Sys2Proof/Machine/Scanout.lean ====
section
/-! DEFINITION. Scan-out (10_teams_and_scanout.md): readiness, Collected rasters, Loose frames, management frames, the
release deadline, links, and the sACN frames that belong to no part. -/

namespace Sys2Proof.Machine

/-! ### Rasters (R266 – R273) -/

/-- The raster set of team `t`. -/
def State.rasterOf (s : State) (t : Nat) : Nat := bitsOf (s.reg64 TM_TEAM_RST) (4 * t) 4

def State.vSync (s : State) (r : Nat) : Nat := s.fld (TM_RST_V0_V_SYNC r)
def State.vBack (s : State) (r : Nat) : Nat := s.fld (TM_RST_V0_V_BP r)
def State.vAct (s : State) (r : Nat) : Nat := s.fld (TM_RST_V1_V_ACT r)
def State.vFront (s : State) (r : Nat) : Nat := s.fld (TM_RST_V1_V_FP r)
def State.vTotal (s : State) (r : Nat) : Nat := s.vSync r + s.vBack r + s.vAct r + s.vFront r
def State.hSync (s : State) (r : Nat) : Nat := s.fld (TM_RST_H0_H_SYNC r)
def State.hTotal (s : State) (r : Nat) : Nat :=
  s.hSync r + s.fld (TM_RST_H0_H_BP r) + s.fld (TM_RST_H1_H_ACT r) + s.fld (TM_RST_H1_H_FP r)

/-- The raster start S, the line reference of line `n`, and the raster end (R267). -/
def State.rasterStart (s : State) : Nat := s.tick.begin + s.fld TK_COLL_OFS_v * unitNs
def State.lineRef (s : State) (p n : Nat) : Nat :=
  let r := s.rasterOf (s.portTeam p)
  s.rasterStart + s.slots p (n * s.hTotal r + s.hSync r)
def State.rasterEnd (s : State) (p : Nat) : Nat :=
  let r := s.rasterOf (s.portTeam p)
  s.rasterStart + s.slots p (s.vTotal r * s.hTotal r)

/-- The unit of raster line `n` of port `p`, when it is an active line with endpoints (R268). -/
def State.lineUnit (s : State) (f : Frame) (p n : Nat) : Option (Nat × Nat) :=
  let r := s.rasterOf (s.portTeam p)
  let base := s.vSync r + s.vBack r
  let stop := min (s.portStop p) (f.count * segSize)
  let w := s.fld (TM_RST_EPL_v r)
  let a := s.portFirst p + (n - base) * w
  if base ≤ n ∧ n < base + s.vAct r ∧ a < min (a + w) stop then some (a, min (a + w) stop) else none

/-- Line `n` is one of the last V_FP lines. -/
def State.isFront (s : State) (p n : Nat) : Bool :=
  let r := s.rasterOf (s.portTeam p)
  decide (s.vTotal r - s.vFront r ≤ n ∧ n < s.vTotal r)

/-- The release instant of a port at target `t`: it is placed finer than the comparator's cycle, the first at or past `t` (R55,
R267). -/
def State.releaseAt (s : State) (t : Nat) : Nat := if s.tb.now < t + 6 * unitNs then t else s.tb.now

/-- RASTER_START: the SYNC frames of a Collected team at the line reference of line 0 (R81, R268). -/
def State.rasterBegin (s : State) (t : Nat) : State :=
  match s.frameOut, (s.teamPorts t).head? with
  | some _, some p =>
    if s.tick.running = false ∨ s.loose t ∨ (s.team t).started ∨ s.tm.ended then s
    else
      let at' := s.releaseAt (s.lineRef p 0)
      let s := s.runTo (s.lineRef p 0)
      let s := s.setTeam t { s.team t with started := true }
      let one (s : State) (p : Nat) : State := (s.sendSync at' p).setPort p { (s.sendSync at' p).port p with line := 1 }
      (s.teamPorts t).foldl one s
  | _, _ => s

/-- The wire is busy at the line reference `at'`: the line slips (R273). -/
def State.noteSlip (s : State) (p at' : Nat) : State := if at' < (s.port p).free then s.bump (TM_PORT_STAT_LINE_SLIP p) 1 else s

/-- A deferred unit leaves the list and goes on the wire. -/
def State.sendDeferred (s : State) (f : Frame) (p : Nat) (u : Nat × Nat) (at' : Nat) : State :=
  (s.setPort p { s.port p with deferred := (s.port p).deferred.erase u }).sendUnit f p u at'

/-- Deferred units that lost a part are gone (R482). -/
def State.pruneDeferred (s : State) (p : Nat) : State :=
  s.setPort p { s.port p with deferred := (s.port p).deferred.filter fun u => !s.unitLost p u }

/-- Raster line `n` of port `p` at its line reference `at'` (R268, R270, R272, R273). -/
def State.runLine (s : State) (f : Frame) (p n at' : Nat) : State :=
  match s.lineUnit f p n with
  | some u =>
    if s.unitReady u then (s.noteSlip p at').sendUnit f p u at'
    else (s.bump (TM_PORT_STAT_DEFER p) 1).setPort p { s.port p with deferred := (s.port p).deferred ++ [u] }
  | none =>
    if s.isFront p n then
      let s := s.pruneDeferred p
      match (s.port p).deferred with
      | u :: _ => if s.unitReady u then (s.noteSlip p at').sendDeferred f p u at' else s
      | [] => s
    else s

/-- RASTER_LINE: the next line of port `p`. -/
def State.nextLine (s : State) (p : Nat) : State :=
  match s.frameOut with
  | none => s
  | some f =>
    let t := s.portTeam p
    let n := (s.port p).line
    if s.portOn p = false ∨ s.loose t ∨ (s.team t).started = false ∨ (s.port p).rasterDone ∨ s.tm.ended
        ∨ s.vTotal (s.rasterOf t) ≤ n then s
    else
      let at' := s.releaseAt (s.lineRef p n)
      let s := s.runTo (s.lineRef p n)
      (s.setPort p { s.port p with line := n + 1 }).runLine f p n at'

/-- After the raster the deferred units that are ready go back to back (R272). -/
def State.drainDeferred (s : State) (f : Frame) (p at' : Nat) : State :=
  ((s.port p).deferred.filter s.unitReady).foldl (fun s u => s.sendDeferred f p u at') s

/-- RASTER_END: the raster of team `t` ends on its ports (R267, R272). -/
def State.rasterFinish (s : State) (t : Nat) : State :=
  match s.frameOut, (s.teamPorts t).head? with
  | some f, some p =>
    if s.loose t ∨ (s.team t).started = false ∨ (s.port p).rasterDone ∨ s.tm.ended then s
    else
      let at' := s.releaseAt (s.rasterEnd p)
      let s := s.runTo (s.rasterEnd p)
      let one (s : State) (p : Nat) : State :=
        let s := s.pruneDeferred p
        (s.setPort p { s.port p with rasterDone := true }).drainDeferred f p at'
      (s.teamPorts t).foldl one s
  | _, _ => s

/-! ### Loose frames (R83, R274) -/

/-- The bounds of a Loose team's frame start (R83). -/
def State.looseLow (s : State) (t : Nat) : Nat := s.tick.begin + s.fld (TM_RST_VBLK_VBLANK_MIN (s.rasterOf t)) * unitUs
def State.looseHigh (s : State) (t : Nat) : Nat :=
  let r := s.rasterOf t
  min (s.tick.begin + max (s.fld (TM_RST_VBLK_VBLANK_MIN r)) (s.fld (TM_RST_VBLK_VBLANK_MAX r)) * unitUs) s.deadline

/-- A segment of the frame that has a part on a port of team `t`. -/
def State.teamSegs (s : State) (f : Frame) (t : Nat) : List Nat := ((s.teamPorts t).flatMap fun p => s.partSegs f p).eraseDups

/-- Some segment of team `t` is ready. -/
def State.teamReady (s : State) (f : Frame) (t : Nat) : Bool := (s.teamSegs f t).any fun g => decide (g ∈ s.tm.ready)

/-- A Loose team's frame starts now: each of its ports sends its SYNC frame (R274). -/
def State.looseBegin (s : State) (t : Nat) : State :=
  let s := s.setTeam t { s.team t with started := true }
  (s.teamPorts t).foldl (fun s p => s.sendSync s.tb.now p) s

/-- The next unit of a Loose port: in the order in which its parts became ready, then in endpoint order (R274). -/
def State.nextUnit (s : State) (p : Nat) : Option (Nat × Nat) :=
  let x := s.port p
  let at' (k : Nat) := x.units.find? fun u =>
    decide (u ∉ x.sent) && !s.unitLost p u && (unitSegs u).all fun g => decide (g ∈ s.tm.ready.take (k + 1))
  (List.range s.tm.ready.length).findSome? at'

/-- LOOSE_UPPER_BOUND: the frame of team `t` starts without a ready segment (R83). -/
def State.stretchLimit (s : State) (t : Nat) : State :=
  match s.frameOut with
  | none => s
  | some f =>
    if s.tick.running = false ∨ s.loose t = false ∨ (s.team t).started ∨ s.tm.ended ∨ s.teamPorts t = [] then s
    else if s.teamReady f t then s
    else
      let s := s.runTo (s.looseHigh t)
      let s := if s.teamSegs f t = [] then s else s.bump (TK_TEAM_STAT_STRETCH_LIM t) 1
      s.looseBegin t

/-! ### Data frames (R262 – R265, R274) -/

/-- A memory error on a data frame of unit `u` loses its parts (R482). -/
def State.loseUnit (s : State) (p : Nat) (u : Nat × Nat) : State :=
  s.setPort p { s.port p with dropped := (s.port p).dropped ++ (unitSegs u).filter fun g => decide (g ∉ (s.port p).dropped) }

/-- A unit goes, unless a memory error was met in its buffer. -/
def State.tryUnit (s : State) (f : Frame) (p : Nat) (u : Nat × Nat) (lost : Bool) : State :=
  if lost then s.loseUnit p u else s.sendUnit f p u s.tb.now

/-- A Loose team whose first segment is ready starts at its lower bound (R83). -/
def State.looseStart (s : State) (f : Frame) (t : Nat) : State :=
  if (s.team t).started ∨ s.teamReady f t = false then s else (s.runTo (s.looseLow t)).looseBegin t

/-- DATA_FRAME_TRANSMIT: the next data frame that the gait places on port `p`. -/
def State.transmitData (s : State) (p : Nat) (errs : List BadWord) : State :=
  match s.frameOut with
  | none => s
  | some f =>
    let t := s.portTeam p
    if s.portOn p = false ∨ s.tick.running = false ∨ s.tm.ended then s
    else if s.loose t then
      let s := s.looseStart f t
      if (s.team t).started then
        match s.nextUnit p with
        | none => s
        | some u => (s.memErrors errs).tryUnit f p u (errs.any losesPart)
      else s
    else if (s.port p).rasterDone then
      match (s.port p).deferred.find? s.unitReady with
      | none => s
      | some u =>
        let s := s.memErrors errs
        (s.setPort p { s.port p with deferred := (s.port p).deferred.erase u }).tryUnit f p u (errs.any losesPart)
    else s

/-! ### PART_READY (R257, R265, R28, R452) -/

/-- `g` enters a list among its last `n`, in ascending order. -/
def insertTail (g : Nat) : Nat → List Nat → List Nat
  | n, xs =>
    let head := xs.take (xs.length - n)
    let tail := xs.drop (xs.length - n)
    head ++ tail.filter (fun x => decide (x < g)) ++ [g] ++ tail.filter fun x => decide (g < x)

/-- Segment `g` joins the ready list. -/
def State.markReady (s : State) (g : Nat) : State :=
  let n := if s.tm.readyAt = s.tb.now then s.tm.readyRun else 0
  { s with tm := { s.tm with ready := insertTail g n s.tm.ready, readyAt := s.tb.now, readyRun := n + 1 } }

/-- The part of `g` on port `p` is discarded as it becomes ready: its link is down (counted), or the port is safe (R265, R29,
R492). -/
def State.discardPart (s : State) (g p : Nat) : State :=
  if s.sends p then s
  else
    let x := s.port p
    let s := if s.linkUp p then s else s.bumpReg (TM_PORT_DOWN_DISC p) 1
    if g ∈ x.dropped then s else s.setPort p { s.port p with dropped := x.dropped ++ [g] }

/-- Every part of segment `g` becomes ready; a Loose team past its lower bound starts with it. -/
def State.partReady (s : State) (g : Nat) : State :=
  match s.frameOut with
  | none => s
  | some f =>
    if s.tm.ended ∨ g ∉ s.tm.cleared ∨ g ∈ s.tm.ready then s
    else
      let s := s.markReady g
      let ports := s.portsOn.filter fun p => decide (g ∈ s.partSegs f p)
      let s := ports.foldl (fun s p => s.discardPart g p) s
      let teams := (ports.map s.portTeam).eraseDups.filter s.loose
      teams.foldl (fun s t => if s.looseLow t ≤ s.tb.now then s.looseStart f t else s) s

/-! ### The release deadline (R67, R79, R263, R309) -/

/-- The part of `g` has left port `p`, or was discarded as it became ready. -/
def State.partLeft (s : State) (f : Frame) (p g : Nat) : Bool :=
  decide (g ∉ s.partSegs f p) ||
    (decide (g ∈ s.tm.ready) && ((s.port p).units.filter fun u => decide (g ∈ unitSegs u)).all fun u =>
      decide (u ∈ (s.port p).sent) || (s.unitLost p u && (unitSegs u).all fun h => decide (h ∉ (s.port p).dropped ∨ h ∈ s.tm.ready)))

/-- Segments of team `t` that have not left. -/
def State.lateSegs (s : State) (f : Frame) (t : Nat) : Nat :=
  ((s.teamSegs f t).filter fun g => (s.teamPorts t).any fun p => !s.partLeft f p g).length

/-- The late segments of team `t` are counted and TICK_LATE is posted (R79). -/
def State.countLate (s : State) (f : Frame) (t : Nat) : State :=
  let n := s.lateSegs f t
  if n = 0 then s
  else
    let s := (s.bump (TK_TEAM_STAT_LATE_SEG t) n).postNow 0x1A 0 0 [(16, 1, t), (20, 4, n), (24, 4, s.presTick % 2 ^ 32), (28, 4, s.tickNo % 2 ^ 32)]
    { s with crb := { s.crb with lateTicks := s.crb.lateTicks ++ [s.presTick] } }

/-- The synchronisation packet of an sACN port (R309): it ends at the release deadline. -/
def State.sendSacnSync (s : State) (p : Nat) : State :=
  if s.portOn p && s.isSacn p && s.bit (TM_SACN_CFG_SYNC_EN p) && s.sends p then
    let q := sget zeroNat (s.port p).seqs 1000000
    let s := s.setPort p { s.port p with seqs := sput zeroNat (s.port p).seqs 1000000 ((q + 1) % 256) }
    let b := s.e131Sync p q
    let octets := (if s.fld (TM_TRC_PORT_ENCAP p) = 2 then 62 else 42) + b.length + 4
    s.placeFrame p .sacnSync octets (s.deadline - s.slots p (cdiv octets 8)) (s.sacnHeadTo p (s.fld (TM_SACN_SYNC_v p)) b.length ++ b)
  else s

/-- The release deadline of the frame in its release tick. -/
def State.releaseEnd (s : State) : State :=
  match s.frameOut with
  | none => s
  | some f =>
    if s.tick.running = false ∨ s.tm.ended then s
    else
      let s := s.runTo s.deadline
      let s := (List.range 16).foldl (fun s t => if s.teamPorts t = [] then s else (s.fixTeam f t).countLate f t) s
      let s := (List.range 8).foldl State.sendSacnSync s
      { s with tm := { s.tm with ended := true } }

/-! ### Management frames (R275, R291) -/

/-- The frame that goes next: the queues in order KEY, CMD, PLAN, IMG. -/
def noFrames (_ : Nat) : List MgmtFrame := []
def State.nextMgmt (s : State) (p : Nat) : Option (Nat × MgmtFrame) :=
  (List.range 4).findSome? fun q => (sget noFrames (s.port p).queues q).head?.map fun m => (q, m)

/-- Queue a management frame on port `p` (R291); a port of ENCAP 2 sends none to level-1 nodes (R300). -/
def State.queueMgmt (s : State) (p q : Nat) (m : MgmtFrame) : State :=
  if s.transmits = false ∨ (s.fld (TM_TRC_PORT_ENCAP p) = 2 ∧ m.level = 1) then s
  else
    let x := s.port p
    s.setPort p { x with queues := sput noFrames x.queues q (sget noFrames x.queues q ++ [m]) }

/-- The next instant at which a data frame is due on a Collected port whose raster runs, from line `n` on. -/
def State.dueFrom (s : State) (f : Frame) (p n : Nat) : Nat :=
  let r := s.rasterOf (s.portTeam p)
  let due (m : Nat) : Bool := (s.lineUnit f p m).isSome || (s.isFront p m && decide ((s.port p).deferred ≠ []))
  match (List.range (s.vTotal r - n)).find? fun k => due (n + k) with
  | some k => s.lineRef p (n + k)
  | none => s.tick.next + (s.lineRef p 0 - s.tick.begin)

/-- Whether a management frame of `octets` may start at `start` on a Collected port. -/
def State.mgmtCollected (s : State) (f : Frame) (p octets start : Nat) : Bool :=
  let r := s.rasterOf (s.portTeam p)
  let stop := start + s.slots p (cdiv octets 8 + 3)
  if (s.team (s.portTeam p)).started = false then stop ≤ s.lineRef p 0
  else if (s.port p).rasterDone then
    (s.port p).deferred.all (fun u => !s.unitReady u) && decide (stop ≤ s.tick.next + (s.lineRef p 0 - s.tick.begin))
  else
    let n := (s.port p).line - 1
    let porch := s.lineRef p n + s.slots p (s.fld (TM_RST_H0_H_BP r) + s.fld (TM_RST_H1_H_ACT r))
    let blank := n < s.vSync r + s.vBack r ∨ (s.isFront p n = true ∧ (s.port p).deferred = [])
    decide (blank ∨ porch ≤ start) && decide (stop ≤ s.dueFrom f p (n + 1))

/-- Whether a management frame may start at `start` on port `p`. -/
def State.mgmtMay (s : State) (p octets start : Nat) : Bool :=
  match s.frameOut with
  | none => true
  | some f =>
    let t := s.portTeam p
    if s.tick.running = false ∨ s.portOn p = false then true
    else if s.loose t then
      !(s.team t).started || s.tm.ended || (s.port p).units.all fun u => decide (u ∈ (s.port p).sent) || s.unitLost p u
    else s.mgmtCollected f p octets start

/-- The key and KEY_ID of a management frame: the node's session key for a KEY frame, the domain's otherwise (R507). -/
def State.mgmtKey (s : State) (p : Nat) (m : MgmtFrame) : Option (Nat × List Byte) :=
  let ke := keOf s.presTick
  if m.typ = 7 then (s.nodeKeyOf m.first).map fun k => (keyId true k.1 s.session, nodeSessionKey k.2 s.session ke)
  else s.portKey p ke

def mgmtKind (typ : Nat) : FrameKind := match typ with | 3 => .plan | 4 => .command | 6 => .image | _ => .key

/-- MANAGEMENT_FRAME_TRANSMIT: port `p` sends the next management frame where it delays no data frame; a port that may not
send discards it. -/
def State.transmitMgmt (s : State) (p : Nat) : State :=
  match s.nextMgmt p with
  | none => s
  | some (q, m) =>
    let drop (s : State) : State := s.setPort p { s.port p with queues := sput noFrames (s.port p).queues q (sget noFrames (s.port p).queues q).tail }
    match s.mgmtKey p m with
    | none => drop s
    | some (kid, key) =>
      let octets := s.headOctets p + 48 + m.body.length + 16 + 4
      let start := max s.tb.now (s.port p).free
      if s.sends p = false ∨ s.isSacn p then drop s
      else if s.mgmtMay p octets start then
        let b := s.message p m.typ m.level false m.first m.count kid ((s.port p).frameNo % 65536) key m.body
        (drop s).placeTrace p (mgmtKind m.typ) octets start (s.encap p b.length ++ b)
      else s

/-! ### Links and sACN frames outside a frame (R265, R307) -/

/-- An Ethernet link comes up or goes down. -/
def State.setLink (s : State) (w : Nat) (up : Bool) : State :=
  let rest := s.tm.links.filter fun x => decide (x ≠ w)
  { s with tm := { s.tm with links := if up then (rest.filter fun x => decide (x < w)) ++ [w] ++ rest.filter fun x => decide (w < x) else rest } }

/-- The universes of a port by number. -/
def State.universeNos (s : State) (p : Nat) : List Nat :=
  (List.range (s.port p).units.length).map fun k => s.fld (TM_SACN_CFG_UNIV_FIRST p) + k

/-- SACN_DISCOVERY_SEND: the universe discovery packet of port `p`. -/
def State.sendDiscovery (s : State) (p : Nat) : State :=
  if s.portOn p && s.isSacn p && s.sends p then
    let b := s.e131Discovery p (s.universeNos p)
    let octets := (if s.fld (TM_TRC_PORT_ENCAP p) = 2 then 62 else 42) + b.length + 4
    s.placeFrame p .sacnDiscovery octets (max s.tb.now (s.port p).free) (s.sacnHeadTo p 64214 b.length ++ b)
  else s

/-- Stream termination (R307): three packets for each universe of the port. -/
def State.terminate (s : State) (p : Nat) : State :=
  if s.portOn p && s.isSacn p && s.sends p then
    let one (s : State) (k : Nat) : State :=
      let n := s.fld (TM_SACN_CFG_UNIV_FIRST p) + k % (s.port p).units.length
      let j := k % (s.port p).units.length
      let q := (sget zeroNat (s.port p).seqs j + 1) % 256
      let s := s.setPort p { s.port p with seqs := sput zeroNat (s.port p).seqs j q }
      let b := s.e131Data p n q true []
      let octets := (if s.fld (TM_TRC_PORT_ENCAP p) = 2 then 62 else 42) + b.length + 4
      s.placeFrame p .sacn octets (max s.tb.now (s.port p).free) (s.sacnHeadTo p n b.length ++ b)
    (List.range (3 * (s.port p).units.length)).foldl one s
  else s

/-! ### The commands -/

/-- PART_ENCODE (R259). -/
def execPartEncode (path : Fin 9) (starvedNs l3 : Word) (level : Fin 4) (errs : List BadWord) (s : State) : Res :=
  .next (s.encodeNext path.val starvedNs.toNat l3.toNat level.val errs)

/-- PART_READY (R257). -/
def execPartReady (seg : Fin 2560) (s : State) : Res := .next (s.partReady seg.val)

/-- RASTER_START (R81). -/
def execRasterStart (team : Fin 16) (s : State) : Res := .next (s.rasterBegin team.val)

/-- RASTER_LINE (R268). -/
def execRasterLine (port : Fin 8) (s : State) : Res := .next (s.nextLine port.val)

/-- RASTER_END (R272). -/
def execRasterEnd (team : Fin 16) (s : State) : Res := .next (s.rasterFinish team.val)

/-- LOOSE_UPPER_BOUND (R83). -/
def execLooseUpperBound (team : Fin 16) (s : State) : Res := .next (s.stretchLimit team.val)

/-- DATA_FRAME_TRANSMIT (R262). -/
def execDataFrameTransmit (port : Fin 8) (errs : List BadWord) (s : State) : Res := .next (s.transmitData port.val errs)

/-- MANAGEMENT_FRAME_TRANSMIT (R275). -/
def execManagementFrameTransmit (port : Fin 8) (s : State) : Res := .next (s.transmitMgmt port.val)

/-- RELEASE_DEADLINE (R263). -/
def execReleaseDeadline (s : State) : Res := .next s.releaseEnd

/-- ETH_LINK_CHANGE (R265). -/
def execEthLinkChange (w : Fin 15) (up : Bool) (s : State) : Res := .next (s.setLink w.val (up && s.linkMay w.val))

/-- SACN_DISCOVERY_SEND (R307). -/
def execSacnDiscoverySend (port : Fin 8) (s : State) : Res := .next (s.sendDiscovery port.val)

end Sys2Proof.Machine
end

