-- ==== Sys2Proof/Machine/Nodes.lean ====
section
/-! DEFINITION. Nodes and legacy outputs (11_trace_protocol_and_legacy_outputs.md): the node table, PLAN and KEY frames,
NODE_COMMAND, DMX packets and RDM. -/

namespace Sys2Proof.Machine

/-! ### The node table (R300) -/

def nodeDflt (_ : Nat) : Node := {}

def State.node (s : State) (n : Nat) : Node := sget nodeDflt s.tm.nodes n
def State.setNode (s : State) (n : Nat) (x : Node) : State := { s with tm := { s.tm with nodes := sput nodeDflt s.tm.nodes n x } }

/-- Nodes of the device. -/
def nodeMax : Nat := 262144

/-- The nodes seen in `[a, a + n)`. -/
def State.nodesSeen (s : State) (a n : Nat) : List Nat :=
  ((s.tm.nodes.filter fun kv => kv.2.seen && decide (a ≤ kv.1 ∧ kv.1 < a + n)).map fun kv => kv.1)

/-- The body of the KEY frame that gives node `n` the current generation of DOMAIN slot `i` (R513). -/
def State.keyBody (s : State) (i n : Nat) : List Byte :=
  match s.nodeKeyOf n with
  | none => []
  | some (_, nk) =>
    let x := s.slot i
    let head := leBytes 1 i ++ leBytes 3 0 ++ leBytes 4 x.gen ++ leBytes 4 (x.effKe % 2 ^ 26)
    let iv := leBytes 4 n ++ leBytes 1 i ++ leBytes 3 0 ++ leBytes 4 x.gen
    let r := gcmSeal (nodeWrapKey nk) iv head x.key.bytes
    head ++ r.1 ++ r.2

/-- Queue a KEY frame to node `n` (R514); nothing without a domain on its port or a node master. -/
def State.queueKey (s : State) (n : Nat) : State :=
  let x := s.node n
  match s.namedSlot (TKR_PORT_DOM x.port) with
  | none => s
  | some i =>
    if (s.slot i).live ∧ (s.nodeKeyOf n).isSome then
      s.queueMgmt x.port 0 { typ := 7, level := x.level, first := n, count := 1, body := s.keyBody i n }
    else s

/-- The level at which the device takes a node (R300). -/
def State.cappedLevel (s : State) (l : Nat) : Nat := min l (s.fld GLB_CAP4_PROTO_MAX)

/-- NODE_STATE (R316). -/
def State.postNode (s : State) (n level port cause : Nat) : State :=
  s.postNow 0x3E 0 0 [(16, 4, n), (20, 1, level), (21, 1, port), (22, 1, cause), (28, 4, s.tickNo % 2 ^ 32)]

/-- A valid TLM frame of node `n` at `level` arrived on port `p` (R300): a change takes effect from the next tick, and at once
while no tick runs. -/
def State.hearNode (s : State) (n level p seq image : Nat) : State :=
  let x := s.node n
  let l := s.cappedLevel level
  let y := { x with seen := true, newLevel := l, newPort := p, seq := some seq, image := image, heard := s.tb.now }
  let y := if s.tick.running then y else { y with level := l, port := p }
  let s := s.setNode n y
  let s := if x.seen = false then (s.postNode n l p 0).queueKey n
    else
      let s := if l = x.newLevel then s else s.postNode n l p 1
      if p = x.newPort then s else s.postNode n l p 2
  s

/-- The levels and ports that wait take effect (R300). -/
def State.settleNodes (s : State) : State :=
  { s with tm := { s.tm with nodes := (s.tm.nodes.map fun kv => (kv.1, { kv.2 with level := kv.2.newLevel, port := kv.2.newPort })) } }

/-! ### PLAN records (R301) -/

/-- A record with its envelope. -/
def planRecord (kind effTick : Nat) (body : List Byte) : List Byte :=
  leBytes 1 kind ++ leBytes 1 0 ++ leBytes 2 (8 + body.length) ++ leBytes 4 effTick ++ body

/-- A locator record and a hold rule record. -/
def locatorRecord (n gen : Nat) (l : Locator) : List Byte :=
  planRecord 0 0 (leBytes 4 n ++ leBytes 1 gen ++ leBytes 3 0 ++ leBytes 4 l.first ++ leBytes 2 l.count ++ leBytes 2 l.comps ++ leBytes 4 l.ofs)
def State.holdRecord (s : State) (n : Nat) : List Byte :=
  planRecord 1 0 (leBytes 4 n ++ leBytes 2 (max 1 (s.fld TM_TRC_HOLD_HOLD_TICKS)) ++ leBytes 1 (min 2 (s.fld TM_TRC_HOLD_RULE)) ++ leBytes 1 0)

/-- Queue a PLAN frame to node `n` on port `p`. -/
def State.queuePlan (s : State) (p n : Nat) (body : List Byte) : State :=
  s.queueMgmt p 2 { typ := 3, level := (s.node n).level, first := n, count := 1, body := body }

/-! ### NODE_COMMAND (R302, R303) -/

def dNodeFirst (b : List Byte) : Nat := leAt b 16 4
def dNodeCount (b : List Byte) : Nat := leAt b 20 4
def dCmd (b : List Byte) : Nat := leAt b 24 2
def dArgLen (b : List Byte) : Nat := leAt b 26 2
def dArgs (b : List Byte) : List Byte := ((b.drop 32).take 32).take (min 32 (dArgLen b))

def dmxDflt (_ : Nat) : DmxPort := {}

def State.dmxPort (s : State) (n : Nat) : DmxPort := sget dmxDflt s.tm.dmx n
def State.setDmx (s : State) (n : Nat) (x : DmxPort) : State := { s with tm := { s.tm with dmx := sput dmxDflt s.tm.dmx n x } }

/-- Commands outstanding. -/
def State.cmdsOpen (s : State) : Nat :=
  s.tm.cmds.length + s.tm.dmx.foldl (fun n kv => n + kv.2.queue.length) 0

/-- The checks of a NODE_COMMAND (R302, R315). -/
def nodeChecks (s : State) (b : List Byte) : OpChecks :=
  let cmd := dCmd b
  let n := byteAt b 32
  { bad := (26, decide (32 < dArgLen b)) ::
      (if cmd < 0xF000 then [(16, decide (dNodeCount b = 0 ∨ nodeMax < dNodeFirst b + dNodeCount b))]
       else
        [(16, decide (dNodeFirst b ≠ 0 ∨ dNodeCount b ≠ 0)), (24, decide (0xF001 < cmd)),
         (32, decide (cmd ≤ 0xF001) && (decide (15 < n) || !s.bit (DMX_CFG_RDM_EN n))),
         (33, decide (cmd = 0xF001 ∧ 1 < byteAt b 33)),
         (39, decide (cmd = 0xF000 ∧ byteAt b 39 ≠ 0x20 ∧ byteAt b 39 ≠ 0x30)),
         (42, decide (cmd = 0xF000 ∧ 21 < byteAt b 42))])
    full := max 1 (s.fld TM_TRC_CMD_MAX) ≤ s.cmdsOpen }

/-! ### Node image chunks (R549 – R552) -/

def dChunk (b : List Byte) : Nat := leAt b 20 4
def dTotal (b : List Byte) : Nat := leAt b 40 4

def noRelay (_ : Nat) : Option RelayRec := none
def State.relayRec (s : State) (i : Nat) : Option RelayRec := sget noRelay s.nor.relay i

/-- Load record `i` and the registers that show it. -/
def State.setRelay (s : State) (i : Nat) (x : RelayRec) : State :=
  let s : State := { s with nor := { s.nor with relay := sput noRelay s.nor.relay i (some x) } }
  (s.setReg (IMG_RELAY_ID i) x.image).setReg (IMG_RELAY_INFO i) (2 ^ 31 + x.total * 65536 + (x.total - x.have'.length))

/-- The record of an image, or the one that a new image takes: a free one, else the oldest that is complete. -/
def State.relaySlot (s : State) (image : Nat) : Option Nat :=
  let is := List.range 8
  match is.find? fun i => match s.relayRec i with | some x => decide (x.image = image) | none => false with
  | some i => some i
  | none =>
    match is.find? fun i => (s.relayRec i).isNone with
    | some i => some i
    | none =>
      is.foldl (fun (m : Option Nat) i =>
        match s.relayRec i with
        | some x =>
          if x.have'.length < x.total then m
          else match m with
            | none => some i
            | some j => if x.order < ((s.relayRec j).map fun y => y.order).getD 0 then some i else some j
        | none => m) none

/-- IMG_RELAY. -/
def State.postRelay (s : State) (image total cause : Nat) : State :=
  s.postNow 0x7E 0 0 [(16, 4, image), (20, 4, total), (24, 1, cause), (28, 4, s.tickNo % 2 ^ 32)]

/-- An accepted chunk claims its record; another TOTAL clears it (R552). -/
def State.claimRelay (s : State) (image total : Nat) : State :=
  match s.relaySlot image with
  | none => s
  | some i =>
    let next := 1 + (List.range 8).foldl (fun a j => match s.relayRec j with | some y => max a y.order | none => a) 0
    match s.relayRec i with
    | some x =>
      if x.image ≠ image then s.setRelay i { image := image, total := total, order := next }
      else if x.total = total then s
      else (s.setRelay i { x with total := total, have' := [] }).postRelay image total 1
    | none => s.setRelay i { image := image, total := total, order := next }

/-- A chunk whose CMD_RESULT is OK sets its bit; the chunks still missing, and IMG_RELAY when none is. -/
def State.relayDone (s : State) (b : List Byte) : State × Nat :=
  let image := leAt b 16 4
  match (List.range 8).find? fun i => match s.relayRec i with | some x => decide (x.image = image) | none => false with
  | none => (s, 0)
  | some i =>
    match s.relayRec i with
    | none => (s, 0)
    | some x =>
      let had := decide (x.have'.length = x.total)
      let x := { x with have' := if dChunk b ∈ x.have' then x.have' else dChunk b :: x.have' }
      let s := s.setRelay i x
      (if x.have'.length = x.total ∧ had = false then s.postRelay image x.total 0 else s, x.total - x.have'.length)

/-- The chunks missing from an image. -/
def State.relayMissing (s : State) (image : Nat) : Nat :=
  (List.range 8).foldl (fun a i => match s.relayRec i with | some x => if x.image = image then x.total - x.have'.length else a | none => a) 0

/-- The checks of a NODE_IMAGE_CHUNK (R549). -/
def imageChunkChecks (s : State) (b : List Byte) : OpChecks :=
  { bad := [(20, decide (dTotal b ≤ dChunk b)), (24, decide (dByteLen b = 0 ∨ 4096 < dByteLen b)), (40, decide (dTotal b = 0 ∨ 4096 < dTotal b)),
      (48, decide (leAt b 52 4 = 0 ∨ nodeMax < leAt b 48 4 + leAt b 52 4))]
    full := (s.relaySlot (leAt b 16 4)).isNone || decide (max 1 (s.fld TM_TRC_CMD_MAX) ≤ s.cmdsOpen)
    payload := fun data => if crc32 (data.take (dByteLen b)) ≠ leAt b 28 4 then some (stIntegrity, 0) else none }

/-! ### Outstanding commands -/

/-- The body of a CMD frame, or of an IMG frame (R550). -/
def NodeCmd.body (c : NodeCmd) : List Byte :=
  if c.image then
    let b := c.d.bytes
    leBytes 4 (leAt b 16 4) ++ leBytes 4 (dChunk b) ++ leBytes 4 (dTotal b) ++ leBytes 4 c.id ++ leBytes 2 c.chunk.length ++ leBytes 2 0
      ++ leBytes 4 (leAt b 28 4) ++ c.chunk
  else leBytes 4 c.id ++ leBytes 2 c.cmd ++ leBytes 1 c.args.length ++ leBytes 1 0 ++ c.args

/-- Cut a list of nodes into runs of consecutive nodes that share port and level: (port, level, first, count). -/
def State.nodeRuns (s : State) (ns : List Nat) : List (Nat × Nat × Nat × Nat) :=
  let one (acc : List (Nat × Nat × Nat × Nat)) (n : Nat) :=
    let x := s.node n
    match acc with
    | (p, l, a, k) :: rest => if p = x.port ∧ l = x.level ∧ a + k = n then (p, l, a, k + 1) :: rest else (x.port, x.level, n, 1) :: acc
    | [] => [(x.port, x.level, n, 1)]
  (ns.foldl one []).reverse

/-- A node cannot take the command: its level lacks the arguments, or its port sends it nothing (R299, R300). -/
def State.nodeLacks (s : State) (c : NodeCmd) (n : Nat) : Bool :=
  let x := s.node n
  (decide (x.level = 1) && decide (16 < c.args.length)) || (decide (x.level = 1) && decide (s.fld (TM_TRC_PORT_ENCAP x.port) = 2))

/-- CMD frames to the nodes that have not replied, sent by a unit that transmits (R302, R446). -/
def State.sendCmd (s : State) (c : NodeCmd) : State :=
  if s.transmits = false then s
  else (s.nodeRuns c.waiting).foldl (fun s r => s.queueMgmt r.1 (if c.image then 3 else 1) { typ := if c.image then 6 else 4, level := r.2.1, first := r.2.2.1, count := r.2.2.2, body := c.body }) s

/-- Replace or remove an outstanding command. -/
def State.putCmd (s : State) (c : NodeCmd) : State :=
  { s with tm := { s.tm with cmds := s.tm.cmds.map (fun x => if x.id = c.id then c else x) } }
def State.dropCmd (s : State) (c : NodeCmd) : State :=
  { s with tm := { s.tm with cmds := s.tm.cmds.filter (fun x => !decide (x.id = c.id)) } }

/-- A command ends: NODE_CMD_DONE, then the CMD_RESULT (R302). -/
def State.endCmd (s : State) (c : NodeCmd) : State :=
  let st := if c.waiting ≠ [] then stNoResource else if c.refused ≠ 0 then stNotPermitted else stOk
  let s := s.dropCmd c
  let s := if c.d.journal ∧ s.transmits = false then s
    else s.postNow 0x3B 0 0 [(16, 2, dTag c.d.bytes), (18, 1, c.d.sq), (20, 4, c.accepted), (24, 4, c.refused), (28, 4, c.waiting.length)]
  if c.image then
    (if st = stOk then (let r := s.relayDone c.d.bytes; r.1.cmdResult c.d st r.2) else s.cmdResult c.d st (s.relayMissing (leAt c.d.bytes 16 4)))
  else s.cmdResult c.d st 0

/-- The leader's own journal items (R445): sent to the wheeler, or committed at once in LEAD_SOLO. -/
def State.journalItem (s : State) (origin : Nat) (d : Running) (data : List Byte) : State :=
  if s.role = tdmLeader then s.sendJournal origin { d with data := data }
  else if s.role = tdmSolo then s.soloEntry origin { d with data := data }
  else s

/-- The CMD_ID of the next command. -/
def State.nextCmdId (s : State) : Nat := (s.tm.cmdId + 1) % 2 ^ 32

/-- The nodes of a range that a command waits for, and how many cannot take it (R302). -/
def State.aimCmd (s : State) (c : NodeCmd) (first count : Nat) : NodeCmd :=
  let ns := s.nodesSeen first count
  { c with waiting := ns.filter fun n => !s.nodeLacks c n, refused := (ns.filter fun n => s.nodeLacks c n).length }

/-- The command that a NODE_COMMAND begins. -/
def State.newCmd (s : State) (d : Running) : NodeCmd :=
  s.aimCmd { d := d, id := s.nextCmdId, cmd := dCmd d.bytes, args := dArgs d.bytes, sentTick := s.tickNo } (dNodeFirst d.bytes) (dNodeCount d.bytes)

/-- The command that a NODE_IMAGE_CHUNK begins. -/
def State.newChunk (s : State) (d : Running) (data : List Byte) : NodeCmd :=
  s.aimCmd { d := d, id := s.nextCmdId, cmd := 0, image := true, chunk := data.take (dByteLen d.bytes), sentTick := s.tickNo } (leAt d.bytes 48 4) (leAt d.bytes 52 4)

/-- A command is open and journalled, and goes out or ends. -/
def State.openCmd (s : State) (d : Running) (c : NodeCmd) : State :=
  let s := ({ s with tm := { s.tm with cmdId := c.id, cmds := s.tm.cmds ++ [c] } } : State).journalItem 2 d (leBytes 4 c.id)
  if c.waiting = [] then s.endCmd c else s.sendCmd c

/-- A command to nodes begins (R302): it completes DEFERRED, gets its CMD_ID and goes to the nodes of its range. -/
def State.beginCmd (s : State) (d : Running) : State := (s.finish d stDeferred 0).openCmd d (s.newCmd d)

/-- A node image chunk begins (R550): as a command to the nodes of its range; RESULT counts the chunks missing from the image's
relay record (R121, R552). -/
def State.beginChunk (s : State) (d : Running) (data : List Byte) : State :=
  let t := s.claimRelay (leAt d.bytes 16 4) (dTotal d.bytes)
  (t.finish d stDeferred (t.relayMissing (leAt d.bytes 16 4))).openCmd d (s.newChunk d data)

/-- A node's reply to a CMD_ID (R302, R550). -/
def State.cmdReply (s : State) (n id result : Nat) : State :=
  match s.tm.cmds.find? fun c => decide (c.id = id ∧ n ∈ c.waiting) with
  | none => s
  | some c =>
    let c := { c with waiting := c.waiting.erase n, accepted := c.accepted + (if result = 0 then 1 else 0),
                      refused := c.refused + (if result = 0 then 0 else 1) }
    if c.waiting = [] then s.endCmd c else s.putCmd c

/-- The TMO ticks of a command have passed: the silent nodes are sent it again, or it ends (R302). -/
def State.cmdTimeout (s : State) (id : Nat) : State :=
  match s.tm.cmds.find? fun c => decide (c.id = id) with
  | none => s
  | some c =>
    if s.tickNo < c.sentTick + max 1 (s.fld TM_TRC_CMD_TMO) then s
    else if c.repeats < s.fld TM_TRC_CMD_RETRY then
      let c := { c with repeats := c.repeats + 1, sentTick := s.tickNo }
      (s.putCmd c).sendCmd c
    else s.endCmd c

/-- Every outstanding command again from the start with its CMD_ID, by a new leader (R303). -/
def State.resendCmds (s : State) : State :=
  let s : State := { s with tm := { s.tm with cmds := s.tm.cmds.map (fun c => { c with repeats := 0, sentTick := s.tickNo }) } }
  s.tm.cmds.foldl (fun s c => s.sendCmd c) s

/-! ### DMX packets (R311 – R313) -/

/-- A DMX port may transmit: enabled, by role and service state, while ticks run (R313, R441, R492). -/
def State.dmxMay (s : State) (n : Nat) : Bool := s.bit (DMX_CFG_EN n) && s.tick.running && s.transmits && decide (s.svc = 1)

def noSpans (_ : Nat) : List Span := []

/-- The endpoints of a DMX port with their components, from the records presented. -/
def State.dmxEntries (s : State) (n : Nat) : List Entry :=
  let a := s.fld (DMX_EP_FIRST_v n)
  let e := a + min 512 (s.fld (DMX_EP_COUNT_v n))
  (List.range (if a < e then (e - 1) / segSize + 1 - a / segSize else 0)).flatMap fun k =>
    let img : SegImage := { spans := sget noSpans s.tm.shownSpans (a / segSize + k) }
    ({ images := [(a / segSize + k, img)] } : Frame).segEntries (a / segSize + k) a e

/-- The slots of a packet, and whether components lie beyond slot 512. -/
def State.dmxSlots (s : State) (n : Nat) : List Byte × Bool :=
  let wide := s.bit (DMX_CFG_MODE16 n)
  let one (acc : List Byte × Bool) (x : Entry) : List Byte × Bool :=
    let b := (List.range x.comp).flatMap fun c =>
      let v := sget zeroNat s.tm.shown (8 * x.ep + c)
      if wide then beBytes 2 v else leBytes 1 (v / 256)
    if acc.2 ∨ 512 < acc.1.length + b.length then (acc.1, true) else (acc.1 ++ b, false)
  (s.dmxEntries n).foldl one ([], false)

/-- Length of a packet with `k` slots: break, mark and 44 µs a slot with the start code, at least 1,204 µs (R311). -/
def State.dmxLength (s : State) (n k : Nat) : Nat :=
  max 1204 (s.fld (DMX_TIMING_BREAK_US n) + s.fld (DMX_TIMING_MAB_US n) + 44 * (k + 1)) * unitUs

/-- DMX_PACKET_START (R312): at a presentation boundary at or after the end of the port's latest packet or transaction. -/
def State.dmxStart (s : State) (n : Nat) : State :=
  let x := s.dmxPort n
  if s.dmxMay n = false ∨ x.busy ∨ x.onLine ∨ s.tick.begin < x.ends then s
  else
    let r := s.dmxSlots n
    let s := (s.setFld (DMX_STAT_OVER n) (b2n r.2)).raise (DMX_STAT_ACTIVE n)
    (s.setDmx n { x with busy := true, ends := s.tick.begin + s.dmxLength n r.1.length, placed := false }).emit (.dmx n 0 r.1)

/-! ### RDM (R314, R315) -/

/-- The broadcast UID. -/
def rdmAll : Nat := 2 ^ 48 - 1

/-- A UID that addresses every device, or every one of a manufacturer. -/
def rdmBroadcast (uid : Nat) : Bool := uid % 2 ^ 32 = 2 ^ 32 - 1

/-- Destination, command class, PID and parameter data of a transaction (ANSI E1.20). -/
def RdmJob.parts (j : RdmJob) : Nat × Nat × Nat × List Byte :=
  match j with
  | .request uid cls pid data => (uid, cls, pid, data)
  | .branch low high => (rdmAll, 0x10, 1, beBytes 6 low ++ beBytes 6 high)
  | .mute uid => (uid, 0x10, 2, [])
  | .unmute => (rdmAll, 0x10, 3, [])

/-- The slots of an RDM packet after its start code (ANSI E1.20), with its checksum. -/
def State.rdmSlots (s : State) (n : Nat) (j : RdmJob) : List Byte :=
  let q := j.parts
  let body := leBytes 1 0x01 ++ leBytes 1 (24 + q.2.2.2.length) ++ beBytes 6 q.1 ++ beBytes 6 (s.reg64 DMX_UID % 2 ^ 48)
    ++ leBytes 1 (s.dmxPort n).tn ++ leBytes 1 1 ++ leBytes 1 0 ++ beBytes 2 0 ++ leBytes 1 q.2.1 ++ beBytes 2 q.2.2.1
    ++ leBytes 1 q.2.2.2.length ++ q.2.2.2
  body ++ beBytes 2 ((body.foldl (fun k b => k + b.toNat) 0xCC) % 65536)

/-- The transaction expects an answer: all but un-muting and a request to a broadcast UID. -/
def RdmJob.answered (j : RdmJob) : Bool :=
  match j with
  | .request uid _ _ _ => !rdmBroadcast uid
  | .branch _ _ => true
  | .mute _ => true
  | .unmute => false

/-- The transactions with which a command starts. -/
def rdmJobs (b : List Byte) : List RdmJob :=
  let a := dArgs b
  if dCmd b = 0xF000 then [.request (beAt a 1 6) (byteAt a 7) (beAt a 8 2) ((a.drop 11).take (byteAt a 10))]
  else (if byteAt a 1 = 0 then [.unmute] else []) ++ [.branch 0 (rdmAll - 1)]

/-- The commands of port `n`: the oldest brings its transactions. -/
def State.rdmLoad (s : State) (n : Nat) : State :=
  let x := s.dmxPort n
  match x.jobs, x.queue with
  | [], d :: _ => s.setDmx n { x with jobs := rdmJobs d.bytes, left := none }
  | _, _ => s

/-- The command in progress ends. -/
def State.rdmEnd (s : State) (n st : Nat) : State :=
  let x := s.dmxPort n
  match x.queue with
  | [] => s
  | d :: rest => ((s.setDmx n { x with queue := rest, jobs := [], left := none }).cmdResult d st 0).rdmLoad n

/-- The first transaction of port `n` is over; `more` go before those that wait, and without any the command ends OK. -/
def State.rdmNext (s : State) (n : Nat) (more : List RdmJob) : State :=
  let x := s.dmxPort n
  let jobs := more ++ x.jobs.drop 1
  let s := s.setDmx n { x with jobs := jobs, left := none, onLine := false }
  if jobs = [] then s.rdmEnd n stOk else s

/-- Time on the line of a transaction's request: break, mark and slots. -/
def rdmTime (k : Nat) : Nat := (176 + 12 + 44 * (k + 1)) * unitUs

/-- Place the first transaction between two packets (R314). -/
def State.rdmPlace (s : State) (n : Nat) : State :=
  let x := s.dmxPort n
  match x.jobs with
  | [] => s
  | j :: _ =>
    if s.dmxMay n = false ∨ s.bit (DMX_CFG_RDM_EN n) = false ∨ x.busy ∨ x.onLine ∨ x.placed then s
    else
      let b := s.rdmSlots n j
      let e := s.tb.now + rdmTime b.length
      let left := match x.left with | some k => k | none => s.fld (DMX_RDM_v n)
      let s := (s.setDmx n { x with onLine := true, sentAt := e, ends := e, left := some left, placed := true, tn := (x.tn + 1) % 256 }).emit (.dmx n 0xCC b)
      if j.answered then s else s.rdmNext n []

/-- A command of R315 begins. -/
def State.beginRdm (s : State) (d : Running) : State :=
  let n := byteAt d.bytes 32
  let s := s.finish d stDeferred 0
  if d.journal then s
  else ((s.setDmx n { s.dmxPort n with queue := (s.dmxPort n).queue ++ [d] }).rdmLoad n).rdmPlace n

/-- The effect of a NODE_COMMAND. -/
def State.nodeEffect (s : State) (d : Running) (_ : List Byte) : State := if dCmd d.bytes < 0xF000 then s.beginCmd d else s.beginRdm d

/-- RDM_RESPONSE events for a response, 8 octets each (R315, R316). -/
def State.postRdm (s : State) (n : Nat) (d : Running) (typ : Nat) (data : List Byte) : State :=
  let k := max 1 (cdiv data.length 8)
  (List.range k).foldl (fun s i =>
    s.postNow 0x3C 0 n [(16, 2, dTag d.bytes), (18, 1, typ * 32 + i % 32), (19, 1, k), (20, 8, leAt ((data.drop (8 * i)).take 8) 0 8),
      (28, 4, s.tickNo % 2 ^ 32)]) s

/-- What a discovery does with a branch whose answer is `uid` (R315). -/
def State.rdmBranch (s : State) (n low high : Nat) (uid : Option Nat) : State :=
  match uid with
  | some u => (s.postNow 0x3D 0 n [(16, 6, u), (22, 1, n), (28, 4, s.tickNo % 2 ^ 32)]).rdmNext n [.mute u, .branch low high]
  | none =>
    let m := (low + high) / 2
    if low < high then s.rdmNext n [.branch low m, .branch (m + 1) high] else s.rdmNext n []

/-- A valid response reaches port `n` within its time (R314). -/
def State.rdmReceive (s : State) (n : Nat) (reply : RdmReply) : State :=
  let x := s.dmxPort n
  match x.onLine, x.jobs, x.queue with
  | true, j :: _, d :: _ =>
    if x.sentAt + 2800 * unitUs < s.tb.now then s
    else
      let s := s.setDmx n { x with ends := max x.ends s.tb.now }
      match j, reply with
      | .request _ _ _ _, .response t data => (s.postRdm n d t.val data).rdmNext n []
      | .branch low high, .branch u => s.rdmBranch n low high (u.map fun v => v.toNat)
      | .mute _, .response _ _ => s.rdmNext n []
      | .request _ _ _ _, .branch _ => s
      | .branch _ _, .response _ _ => s
      | .mute _, .branch _ => s
      | .unmute, _ => s
  | _, _, _ => s

/-- The retries of a transaction are spent (R314, R315): an empty branch ends, and a device that does not mute is not searched
for again. -/
def State.rdmSpent (s : State) (n : Nat) (j : RdmJob) : State :=
  let s := s.bump (DMX_STAT_RDM_NORESP n) 1
  match j with
  | .request _ _ _ _ => (s.setDmx n { s.dmxPort n with onLine := false }).rdmEnd n stNoResource
  | .branch _ _ => s.rdmNext n []
  | .mute _ => (s.setDmx n { s.dmxPort n with jobs := (s.dmxPort n).jobs.drop 1 }).rdmNext n []
  | .unmute => s.rdmNext n []

/-- No valid response came within 2.8 ms (R314). -/
def State.rdmTimeout (s : State) (n : Nat) : State :=
  let x := s.dmxPort n
  match x.onLine, x.jobs with
  | true, j :: _ =>
    let s := s.runTo (x.sentAt + 2800 * unitUs)
    match x.left with
    | some (k + 1) => s.setDmx n { x with onLine := false, left := some k, ends := s.tb.now }
    | _ => (s.setDmx n { x with ends := s.tb.now }).rdmSpent n j
  | _, _ => s

/-- The end of a DMX packet (R314): a waiting transaction is placed. -/
def State.dmxEnd (s : State) (n : Nat) : State :=
  let x := s.dmxPort n
  if x.busy = false then s
  else
    let s := s.runTo x.ends
    (s.setDmx n { s.dmxPort n with busy := false }).rdmPlace n

/-! ### The commands -/

/-- The executing NODE_COMMAND of ring `r` whose code satisfies `p`. -/
def State.runNode (s : State) (r : Nat) (p : Nat → Bool) : State :=
  match s.hif.running.find? fun d => decide (d.sq = r) && decide (dOpcode d.bytes = 0x58) && p (dCmd d.bytes) with
  | none => s
  | some d => (s.dropRunning d).execute d noPayload (nodeChecks (s.dropRunning d) d.bytes) noReserve State.nodeEffect

/-- NODE_COMMAND (R302): codes that go to nodes. -/
def execNodeCommand (r : Fin 32) (s : State) : Res := .next (s.runNode r.val fun c => decide (c < 0xF000))

/-- RDM_REQUEST (R315): code 0xF000, and the codes that the device does not know. -/
def execRdmRequest (r : Fin 32) (s : State) : Res := .next (s.runNode r.val fun c => decide (c = 0xF000 ∨ 0xF001 < c))

/-- RDM_DISCOVERY (R315): code 0xF001. -/
def execRdmDiscovery (r : Fin 32) (s : State) : Res := .next (s.runNode r.val fun c => decide (c = 0xF001))

/-- NODE_IMAGE_CHUNK (R549, R550). -/
def execNodeImageChunk (r : Fin 32) (payload : Option (List Byte)) (s : State) : Res :=
  .next (s.runOp r.val 0x7C payload imageChunkChecks noReserve State.beginChunk)

/-- NODE_COMMAND_RETRY_TIMEOUT (R302). -/
def execNodeCommandRetryTimeout (id : Word) (s : State) : Res := .next (s.cmdTimeout id.toNat)

/-- DMX_PACKET_START (R312). -/
def execDmxPacketStart (port : Fin 16) (s : State) : Res := .next (s.dmxStart port.val)

/-- RDM_RESPONSE_RECEIVE (R314). -/
def execRdmResponseReceive (port : Fin 16) (reply : RdmReply) (s : State) : Res := .next (s.rdmReceive port.val reply)

/-- RDM_RESPONSE_TIMEOUT (R314). -/
def execRdmResponseTimeout (port : Fin 16) (s : State) : Res := .next (s.rdmTimeout port.val)

end Sys2Proof.Machine
end

