-- ==== Sys2Proof/Machine/Drive.lean ====
section
/-! DEFINITION. The drive engine (12_drive_engine.md): locators and node channels, the PWM grid, pulses and probes, the fault
ladder, retirement, DRIVE_CONFIG and REINSTATE. -/

namespace Sys2Proof.Machine

/-! ### Locators (R294, R318) -/

/-- The endpoints with components of the map in `[a, e)`. -/
def blockEntries (m : Sparse Block) (a e : Nat) : List Entry :=
  (m.filter fun kv => decide (kv.1 * segSize < e ∧ a < (kv.1 + 1) * segSize)).flatMap fun kv =>
    kv.2.spans.flatMap fun x => ((List.range x.len).map fun j => { ep := x.first + j, attr := x.entry.attr, comp := x.entry.comp : Entry }).filter
      fun y => decide (y.comp ≠ 0 ∧ a ≤ y.ep ∧ y.ep < e)

/-- The record of one endpoint; none when it has no components. -/
def entryAt (m : Sparse Block) (ep : Nat) : Option Entry := (blockEntries m ep (ep + 1)).head?

def noLocator (_ : Nat) : Option Locator := none

/-- A locator grows by an endpoint whose first component stands at stream position `ofs`. -/
def growLocator (l : Option Locator) (x : Entry) (ofs : Nat) : Locator :=
  match l with
  | none => { first := x.ep, count := 1, ofs := ofs, comps := x.comp }
  | some l => { l with count := x.ep + 1 - l.first, comps := ofs + x.comp - l.ofs }

/-- The locators of a port whose entries, in order, are `es`. -/
def locatorsOf (es : List Entry) : Sparse Locator :=
  let one (acc : Sparse (Option Locator) × Nat) (x : Entry) : Sparse (Option Locator) × Nat :=
    (sput noLocator acc.1 (attrNode x.attr) (some (growLocator (sget noLocator acc.1 (attrNode x.attr)) x acc.2)), acc.2 + x.comp)
  (es.foldl one ([], 0)).1.filterMap fun kv => kv.2.map fun l => (kv.1, l)

/-- The locators of every enabled port for a map. -/
def State.locatorsAll (s : State) (m : Sparse Block) : Sparse (Sparse Locator) :=
  s.portsOn.map fun p => (p, locatorsOf (blockEntries m (s.portFirst p) (s.portStop p)))

/-- The channels of a node: (endpoint, component) from its locator's first component, up to 256 (R318). -/
def nodeChannels (m : Sparse Block) (l : Locator) : List (Entry × Nat) :=
  (((blockEntries m l.first (l.first + l.count)).flatMap fun x => (List.range x.comp).map fun c => (x, c)).take 256)

/-- The locator of node `n` among those of the ports. -/
def locatorOf (ls : Sparse (Sparse Locator)) (n : Nat) : Option Locator :=
  ls.findSome? fun kv => (kv.2.find? fun x => decide (x.1 = n)).map fun x => x.2

/-! ### Channels -/

def chanDflt (_ : Nat) : DrvChan := {}
def feedDflt (_ : Nat) : DrvFeed := {}

def State.chan (s : State) (ch : Nat) : DrvChan := sget chanDflt s.drv.chans ch
def State.setChan (s : State) (ch : Nat) (x : DrvChan) : State := { s with drv := { s.drv with chans := sput chanDflt s.drv.chans ch x } }
def State.pwm (s : State) (f : Nat) : DrvFeed := sget feedDflt s.drv.feeds f
def State.setPwm (s : State) (f : Nat) (x : DrvFeed) : State := { s with drv := { s.drv with feeds := sput feedDflt s.drv.feeds f x } }

/-- Local channels. -/
def chans : List Nat := List.range 48

/-- Ladder states (R335). -/
def ldNormal : Nat := 0
def ldHold : Nat := 1
def ldTry : Nat := 2
def ldPersist : Nat := 3
def ldConfirm : Nat := 4
def ldRetired : Nat := 5

def State.ladder (s : State) (ch : Nat) : Nat := s.fld (DRV_CH_STAT_STATE ch)

/-- The test path of R584 drives the channel. -/
def State.drvTest (s : State) (ch : Nat) : Bool := decide (s.svc = 2) && s.bit LBK_DRV_CTRL_EN && bitB (s.reg64 LBK_DRV_MASK) ch

/-- The bank drives its gates (R320). -/
def State.bankOn (s : State) : Bool := s.tick.running && s.bit DRV_CTRL_v && decide (s.svc = 1) && s.transmits && s.pllOk 4

/-- The gate of channel `ch` follows its pulse (R320, R329, R335, R584). -/
def State.gateOn (s : State) (ch : Nat) : Bool :=
  let st := s.ladder ch
  s.drvTest ch || (s.bankOn && (s.chan ch).live && !(s.chan ch).low && decide (st = ldNormal ∨ st = ldTry ∨ st = ldConfirm))

/-! ### The PWM grid (R321, R323) -/

/-- One count of 1.25 ns. -/
def drvCount : Nat := 5368709120

/-- The period of feed registers, clamped (R321), in units of 2^-16 ns. -/
def State.drvPeriod (s : State) (f : Nat) : Nat :=
  clampN (35715 * 65536) (833333 * 65536) (s.fld (DRV_FEED_PER_NS_v f) * 65536 + s.fld (DRV_FEED_PER_FRAC_v f))

/-- The period of a feed as an interval. -/
def DrvFeed.span (x : DrvFeed) : Nat := x.period * 65536

/-- The pulse of channel `ch` in period `k` of `n` counts (R324, R331 – R333): the channel, and the debt forgiven. -/
def State.pulse (s : State) (ch k n : Nat) : DrvChan × Nat :=
  let x := s.chan ch
  let test := s.drvTest ch
  let d := if test then s.fld LBK_DRV_DUTY_v else x.value
  let ph := if test then 0 else s.fld (DRV_CH_STAT_PHASE ch)
  let num := d * n
  let acc := x.acc + num % 65535
  let on := num / 65535 + acc / 65535
  let forgiven := if d = 0 ∧ 0 < x.debt then 1 else 0
  let debt := if d = 0 then 0 else x.debt
  let pay := min on debt
  let on := on - pay
  let st := s.ladder ch
  let kk := max 1 (s.fld (DRV_CH_DIAG_K ch))
  let sense := s.bit (DRV_CH_CFG_SENSE_EN ch)
  let due := sense && decide (on < 1200 ∧ k % kk = 0)
  let borrowed := due && decide (pay = 0 ∧ 1600 * 65535 ≤ d * n * kk)
  let forced := sense && !test && decide ((st = ldTry ∨ st = ldConfirm) ∧ on < 1200)
  let only := !borrowed && (forced || (due && (decide (0 < d) || s.bit (DRV_CH_DIAG2_PROBE_ZERO ch))))
  let start := ph * n / 256
  let len := if borrowed then 1600 else on
  let probe := if only then some (if start + len + 1600 ≤ n then start + len else start - 1600) else none
  ({ x with acc := acc % 65535, debt := if borrowed then 1600 - on else debt - pay, start := start, on := len, probe := probe, low := false }, forgiven)

/-- The end of the qualify window of a pulse (R327): the probe interval, or the part of the pulse that begins at its start. -/
def DrvChan.windowEnd (x : DrvChan) (begin n : Nat) : Option Nat :=
  match x.probe with
  | some p => some (begin + (p + 1200) * drvCount)
  | none => if 1200 ≤ min x.on (n - x.start) then some (begin + (x.start + 1200) * drvCount) else none

/-- Channel `ch` starts a period of its feed. -/
def State.startPulse (s : State) (k n : Nat) (ch : Nat) : State :=
  let r := s.pulse ch k n
  let w := if s.bit (DRV_CH_CFG_SENSE_EN ch) then r.1.windowEnd s.tb.now n else none
  (s.setChan ch { r.1 with window := w }).bumpReg DRV_DEBT_FORGIVE r.2

/-- The channels of feed `f`. -/
def State.chansOf (s : State) (f : Nat) : List Nat := chans.filter fun ch => decide (s.fld (DRV_CH_CFG_FEED ch) = f)

/-- The grid index that starts next: the one after the period in progress, or the latest that a forward step passed (R56). -/
def DrvFeed.next (x : DrvFeed) (now : Nat) : Nat :=
  match x.index with
  | none => gridNext x.span now
  | some k => max (k + 1) (now / x.span)

/-- PWM_PERIOD_START: the next period of feed `f` starts; `cycles` is its length in PWM clocks, which lies within 6.25 ns of the
period (R321). -/
def State.pwmStart (s : State) (f cycles : Nat) : State :=
  let x := s.pwm f
  let k := x.next s.tb.now
  let s := s.runTo (k * x.span)
  let slack := 25 * unitNs / 4
  let n := clampN ((x.span - slack) / drvCount) ((x.span + slack) / drvCount) cycles
  let s := s.setPwm f { x with index := some k, begin := s.tb.now, counts := n, short := false }
  (s.chansOf f).foldl (fun s ch => s.startPulse k n ch) s

/-- The short period of channel `ch`: the duty in force at offset 0, without a probe (R323). -/
def State.shortPulse (s : State) (n : Nat) (ch : Nat) : State :=
  let x := s.chan ch
  s.setChan ch { x with start := 0, on := x.value * n / 65535, probe := none, low := false, window := none }

/-- The period changes due at boundary `b` take effect: the period in progress ends and a short period runs (R323). -/
def State.changePeriods (s : State) (b : Nat) : State :=
  let due := s.drv.periods.filter fun c => decide (c.1 ≤ b)
  let s := { s with drv := { s.drv with periods := s.drv.periods.filter fun c => !decide (c.1 ≤ b) } }
  let one (s : State) (c : Nat × Nat × Nat) : State :=
    let x : DrvFeed := { s.pwm c.2.1 with period := c.2.2 }
    let k := s.tb.now / x.span
    let n := ((k + 1) * x.span - s.tb.now) / drvCount
    let s := s.setPwm c.2.1 { x with index := some k, begin := s.tb.now, counts := n, short := true }
    (s.chansOf c.2.1).foldl (fun s ch => s.shortPulse n ch) s
  due.foldl one s

/-- A DRV_FEED_PER write is in force (R323): the change waits for its presentation boundary while ticks run. -/
def State.drvPeriodSet (s : State) (f : Nat) : State :=
  let p := s.drvPeriod f
  if s.tick.running then
    let rest := s.drv.periods.filter fun c => !decide (c.1 = s.tickNo + s.depth ∧ c.2.1 = f)
    { s with drv := { s.drv with periods := rest ++ [(s.tickNo + s.depth, f, p)] } }
  else s.setPwm f { s.pwm f with period := p, index := none }

/-! ### Results (R327 – R330) -/

/-- Channels of a measurable interval in their present period. -/
def State.measurable (s : State) (ch : Nat) : Bool :=
  let x := s.chan ch
  let n := (s.pwm (s.fld (DRV_CH_CFG_FEED ch))).counts
  s.bit (DRV_CH_CFG_SENSE_EN ch) && s.gateOn ch && (x.windowEnd 0 n).isSome

/-- The ADC converts the sense voltage of the channel next in round-robin order (R330); `test` bounds the code of R584. -/
def State.adcConvert (s : State) (code : Nat) : State :=
  match (List.range 48).find? fun j => s.measurable ((s.drv.adc + 1 + j) % 48) with
  | none => s
  | some j =>
    let ch := (s.drv.adc + 1 + j) % 48
    let mode := s.fld LBK_DRV_CTRL_SENSE
    let v := if s.drvTest ch = false then code
      else if mode = 1 then 0 else if mode = 2 then 3868
      else if (s.chan ch).probe.isNone then clampN 2040 2056 code else code
    (({ s with drv := { s.drv with adc := ch } } : State).setFld (DRV_CH_ADC_CODE ch) v).raise (DRV_CH_ADC_VALID ch)

/-- The result of an interval whose sense voltage lay between `low` and `high` µV in the window (R327, R328): 1 OK, 2 OPEN,
3 SHORT. -/
def State.senseResult (s : State) (ch low high : Nat) : Nat :=
  if high * 1024 < s.fld (DRV_CH_DIAG_TH_OPEN ch) * 1800000 then 2
  else if s.fld (DRV_CH_DIAG_TH_SHORT ch) * 1800000 < low * 1024 then 3 else 1

/-- A result counts in the observation of the tick, or in LBK_DRV_RES in a test; a fault drops the gate (R329, R334, R584). -/
def State.noteResult (s : State) (ch r : Nat) : State :=
  if s.drvTest ch then s.bump (match r with | 2 => LBK_DRV_RES_OPEN ch | 3 => LBK_DRV_RES_SHORT ch | _ => LBK_DRV_RES_OK ch) 1
  else
    let x := s.chan ch
    s.setChan ch { x with sawOk := x.sawOk || decide (r = 1), sawOpen := x.sawOpen || decide (r = 2), sawShort := x.sawShort || decide (r = 3),
                          low := x.low || decide (r ≠ 1) }

/-- QUALIFY_WINDOW_END of channel `ch`. -/
def State.qualify (s : State) (ch low high code : Nat) : State :=
  match (s.chan ch).window with
  | none => s
  | some e =>
    let s := s.runTo e
    let s := s.setChan ch { s.chan ch with window := none }
    if s.gateOn ch = false then s
    else
      let mode := s.fld LBK_DRV_CTRL_SENSE
      let v := if mode = 1 then 0 else if mode = 2 then 1700000 else 900000
      let r := if s.drvTest ch then s.senseResult ch v v else s.senseResult ch low high
      (s.adcConvert code).noteResult ch r

/-! ### The ladder (R334 – R337, R343) -/

/-- A drive event (R348). -/
def State.drvEvent (s : State) (typ kind cause ch node ep : Nat) : State :=
  s.postNow typ 0 0 [(16, 1, kind), (17, 1, cause), (18, 2, ch), (20, 4, node), (24, 4, ep), (28, 4, s.tickNo % 2 ^ 32)]

def State.localEvent (s : State) (typ cause ch : Nat) : State := s.drvEvent typ 0 cause ch 0xFFFFFFFF (s.fld (DRV_CH_CFG_EP ch))

/-- Enter a ladder state with r. -/
def State.toLadder (s : State) (ch st r : Nat) : State := (s.setFld (DRV_CH_STAT_STATE ch) st).setFld (DRV_CH_STAT_R ch) r

/-- Bit `ch` of DRV_RETIRED. -/
def State.setRetired (s : State) (ch : Nat) (v : Bool) : State := s.setReg64 DRV_RETIRED (setBits (s.reg64 DRV_RETIRED) ch 1 (b2n v))

/-- Into PERSIST at boundary `b`, or CONFIRM when its time has passed. -/
def State.toPersist (s : State) (ch r b : Nat) : State :=
  s.toLadder ch (if (s.chan ch).t0 + s.fld (DRV_CH_DIAG2_PERSIST_TICKS ch) ≤ b then ldConfirm else ldPersist) r

/-- The first fault of a channel in NORMAL, at boundary `b`. -/
def State.firstFault (s : State) (ch cause b : Nat) : State :=
  let s := s.setChan ch { s.chan ch with w := 1, t0 := b - 1 }
  let s := ((s.setFld (DRV_CH_STAT_CAUSE ch) cause).bump (DRV_CH_CNT_FAULTS ch) 1).localEvent 0x40 cause ch
  if s.fld (DRV_CH_DIAG_RETRY_MAX ch) = 0 then s.toPersist ch 0 b else s.toLadder ch ldHold 0

/-- A channel back to NORMAL. -/
def State.ladderRecover (s : State) (ch : Nat) : State :=
  ((s.setFld (DRV_CH_STAT_STATE ch) ldNormal).bump (DRV_CH_CNT_RECOVER ch) 1).localEvent 0x41 (s.fld (DRV_CH_STAT_CAUSE ch)) ch

/-- The ladder of channel `ch` advances at boundary `b` on observation `o` (0 NONE, 1 OK, 2 OPEN, 3 SHORT). -/
def State.advance (s : State) (ch o b : Nat) : State :=
  let x := s.chan ch
  let st := s.ladder ch
  let cause := o - 1
  if st = ldNormal then (if 2 ≤ o then s.firstFault ch cause b else s)
  else if st = ldHold then (if 1 < x.w then s.setChan ch { x with w := x.w - 1 } else s.toLadder ch ldTry (s.fld (DRV_CH_STAT_R ch)))
  else if st = ldTry then
    (if o = 1 then s.ladderRecover ch
     else if o = 0 then s
     else
       let r := s.fld (DRV_CH_STAT_R ch) + 1
       if s.fld (DRV_CH_DIAG_RETRY_MAX ch) ≤ r then s.toPersist ch (s.fld (DRV_CH_DIAG_RETRY_MAX ch)) b
       else (s.setChan ch { x with w := 2 ^ r }).toLadder ch ldHold r)
  else if st = ldPersist then
    (if b < x.t0 + s.fld (DRV_CH_DIAG2_PERSIST_TICKS ch) then s else s.toLadder ch ldConfirm (s.fld (DRV_CH_STAT_R ch)))
  else if st = ldConfirm then
    (if o = 1 then s.ladderRecover ch
     else if o = 0 then s
     else (((s.setFld (DRV_CH_STAT_STATE ch) ldRetired).setFld (DRV_CH_STAT_CAUSE ch) cause).setRetired ch true).localEvent 0x42 cause ch)
  else s

/-- DRV_CH_WAIT at boundary `b`. -/
def State.loadWait (s : State) (ch b : Nat) : State :=
  let x := s.chan ch
  s.setReg (DRV_CH_WAIT ch) (if s.ladder ch = ldHold then x.w % 65536
    else if s.ladder ch = ldPersist then (x.t0 + s.fld (DRV_CH_DIAG2_PERSIST_TICKS ch) - b) % 65536 else 0)

/-- The observation of the tick just ended (R334). -/
def DrvChan.observation (x : DrvChan) : Nat := if x.sawShort then 3 else if x.sawOpen then 2 else if x.sawOk then 1 else 0

/-- Every local ladder at boundary `b`, after action (4) (R335, R336, R343). -/
def State.advanceAll (s : State) (b : Nat) : State :=
  let one (s : State) (ch : Nat) : State :=
    let x := s.chan ch
    let o := x.observation
    let s := (s.setChan ch { x with sawOk := false, sawOpen := false, sawShort := false }).setFld (DRV_CH_STAT_LAST_OBS ch) o
    let s := if s.bit (DRV_CH_CFG_SENSE_EN ch) && s.bit (DRV_CH_CFG_EN ch) && !s.follows then s.advance ch o b else s
    s.loadWait ch b
  chans.foldl one s

/-! ### Values (R319, R346) -/

/-- EN is in force as `on`: acc starts at 0 whenever it changes to 1 (R324). -/
def DrvChan.enabled (x : DrvChan) (on : Bool) : DrvChan := { x with live := on, acc := if on && !x.live then 0 else x.acc }

/-- The frame presented at a boundary gives the channels of its ready segments their values. -/
def State.presentDrive (s : State) (f : Frame) : State :=
  let one (s : State) (ch : Nat) : State :=
    let cfg := sget zeroNat f.inputs.drive ch
    let ep := bitsOf cfg 0 23
    let c := bitsOf cfg 23 3
    let live := bitB cfg 31
    let x := (s.chan ch).enabled live
    let g := ep / segSize
    if f.count ≤ g then s.setChan ch { x with value := 0 }
    else if g ∈ s.tm.ready then
      match (f.segEntries g ep (ep + 1)).head? with
      | none => s.setChan ch { x with value := 0 }
      | some y => s.setChan ch { x with value := if c < y.comp then sget zeroNat s.tm.vals (8 * ep + c) else 0 }
    else s.setChan ch x
  chans.foldl one s

/-- The bank after a stop: every gate is low (R320), no frame gives it a value, and the configuration is in force as it stands. -/
def State.stopDrive (s : State) : State :=
  chans.foldl (fun s ch =>
    s.setChan ch { (s.chan ch).enabled (s.bit (DRV_CH_CFG_EN ch)) with value := 0, window := none, start := 0, on := 0, probe := none }) s

/-! ### Retirement (R338 – R342) -/

/-- The endpoint that channel `c` of node `n` drives. -/
def nodeEndpoint (m : Sparse Block) (ls : Sparse (Sparse Locator)) (n c : Nat) : Option Nat :=
  match locatorOf ls n with
  | none => none
  | some l => ((nodeChannels m l)[c]?).map fun x => x.1.ep

/-- The retirement set of a map (R338). -/
def State.retirementSet (s : State) (m : Sparse Block) (ls : Sparse (Sparse Locator)) : List Nat :=
  let own := (chans.filter fun ch => bitB (s.reg64 DRV_RETIRED) ch).filterMap fun ch =>
    match entryAt m (s.fld (DRV_CH_CFG_EP ch)) with
    | none => none
    | some x => if s.fld (DRV_CH_CFG_COMP ch) < x.comp then some x.ep else none
  (own ++ s.drv.nodes.filterMap fun x => nodeEndpoint m ls x.1 x.2).eraseDups

/-- A retirement report of a node (R338, R341): one whose TICK precedes the EFF_TICK of a reinstatement is ignored; a wheeler
records none (R343). -/
def State.reportRetired (s : State) (n c tick : Nat) : State :=
  let stale : Bool := match sget (fun _ => (none : Option Nat)) s.drv.reinstated (256 * n + c) with
    | none => false
    | some e => decide (2 ^ 31 ≤ (tick + 2 ^ 32 - e % 2 ^ 32) % 2 ^ 32)
  if stale || s.follows then s else { s with drv := { s.drv with reports := s.drv.reports ++ [(n, c, tick)] } }

/-- The reports of the tick enter the record at its close, with DRV_RETIRED (R338, R348). -/
def State.closeReports (s : State) : State :=
  let rs := s.drv.reports
  let ls := s.locatorsAll s.fe.blocks
  let one (s : State) (r : Nat × Nat × Nat) : State :=
    if (r.1, r.2.1) ∈ s.drv.nodes then s
    else
      let s := { s with drv := { s.drv with nodes := s.drv.nodes ++ [(r.1, r.2.1)] } }
      (s.setReg DRV_RET_NODE s.drv.nodes.length).drvEvent 0x42 1 0 r.2.1 r.1 ((nodeEndpoint s.fe.blocks ls r.1 r.2.1).getD 0)
  rs.foldl one { s with drv := { s.drv with reports := [] } }

/-- The presentation tick of the first frame latched from now on (R341, R144). -/
def State.nextShown (s : State) : Nat := s.tickNo + s.depth + (if s.tick.acting then 0 else 1)

/-! ### Parameters of node engines (R346, R347) -/

/-- The feed of a node (R318). -/
def State.nodeFeed (s : State) (n : Nat) : Nat :=
  match locatorOf (s.locatorsAll s.fe.blocks) n with
  | none => 0
  | some l => match entryAt s.fe.blocks l.first with | none => 0 | some x => attrFeed x.attr

/-- A drive-parameter record (R347). -/
def State.driveRecord (s : State) (n eff flags : Nat) (r : List Byte) : List Byte :=
  let f := s.nodeFeed n
  planRecord 2 eff (leBytes 4 n ++ leBytes 1 (leAt r 0 1) ++ leBytes 1 flags ++ leBytes 2 (bitsOf (leAt r 0 4) 8 9)
    ++ (if bitB flags 1 then
          leBytes 4 (s.drvPeriod f / 65536) ++ leBytes 2 (s.drvPeriod f % 65536) ++ leBytes 2 (leAt r 6 2) ++ leBytes 2 (leAt r 8 2)
            ++ leBytes 1 (byteAt r 10) ++ leBytes 1 (byteAt r 11) ++ leBytes 2 (leAt r 12 2) ++ leBytes 1 (byteAt r 14) ++ leBytes 1 (byteAt r 5)
        else List.replicate 16 0))

/-- Queue a drive-parameter record to a node of level 2 or above that has been seen (R299). -/
def State.planDrive (s : State) (n eff flags : Nat) (r : List Byte) : State :=
  if (s.node n).seen ∧ 2 ≤ (s.node n).level ∧ s.transmits then s.queuePlan (s.node n).port n (s.driveRecord n eff flags r) else s

/-- Every stored record of a node, for a period change (R323) or a refresh (R346). -/
def State.planStored (s : State) (eff : Nat) (p : Nat → Bool) : State :=
  (s.drv.params.filter fun x => p x.1).foldl (fun s x => s.planDrive x.1 eff 2 x.2) s

/-! ### DRIVE_CONFIG (R344 – R346) -/

/-- A record is out of range (R345). -/
def driveRecBad (scope : Nat) (r : List Byte) : Bool :=
  let t := leAt r 0 4
  let head := if scope = 0 then decide (epMax ≤ bitsOf t 0 23 ∨ 5 < bitsOf t 23 3 ∨ bitsOf t 26 6 ≠ 0) || decide (15 < byteAt r 4)
    else decide (bitsOf t 17 15 ≠ 0 ∨ 256 < bitsOf t 0 8 + bitsOf t 8 9) || decide (byteAt r 4 ≠ 0)
  head || decide (7 < byteAt r 5 ∨ 1023 < leAt r 6 2 ∨ leAt r 8 2 ≤ leAt r 6 2 ∨ 1023 < leAt r 8 2 ∨ byteAt r 10 = 0 ∨ 15 < byteAt r 11
    ∨ leAt r 12 2 = 0 ∨ byteAt r 14 = 0) || (List.range 17).any fun i => decide (byteAt r (15 + i) ≠ 0)

/-- Record `k` of a payload: one record serves every channel or node. -/
def driveRec (data : List Byte) (len k : Nat) : List Byte := (data.drop (if len = 32 then 0 else 32 * k)).take 32

/-- The checks of a DRIVE_CONFIG. -/
def driveChecks (_ : State) (b : List Byte) : OpChecks :=
  let scope := byteAt b 16
  let first := leAt b 20 4
  let count := leAt b 28 4
  let len := dByteLen b
  { bad := [(16, decide (1 < scope)), (20, decide (scope = 0 ∧ 48 < first + count) || decide (scope = 1 ∧ nodeMax < first + count)),
            (24, decide (len ≠ 32 ∧ len ≠ 32 * count)), (28, decide (count = 0))]
    payload := fun data =>
      match (List.range (len / 32)).find? fun k => driveRecBad scope ((data.drop (32 * k)).take 32) with
      | some k => some (stBadField, 32 + 32 * k * 256)
      | none => none }

/-- A record configures local channel `ch`; one moved to a feed whose policy is off takes offset 0 (R362). While no tick runs EN is in
force at once (R114, R320); otherwise it comes with the frames (R346). -/
def State.configChan (s : State) (ch : Nat) (r : List Byte) : State :=
  let t := leAt r 0 4
  let fl := byteAt r 5
  let moved : Bool := decide (s.fld (DRV_CH_CFG_FEED ch) ≠ byteAt r 4 % 16 ∧ s.fld (PHP_FEED_STAT_MODE (byteAt r 4 % 16)) = 2)
  let s := if moved then s.setFld (DRV_CH_STAT_PHASE ch) 0 else s
  let s := s.setReg (DRV_CH_CFG ch) (b2n (bitB fl 0) * 2 ^ 31 + b2n (bitB fl 1) * 2 ^ 30 + byteAt r 4 % 16 * 2 ^ 26 + bitsOf t 0 26)
  let s := if s.tick.running then s else s.setChan ch ((s.chan ch).enabled (bitB fl 0))
  let s := s.setReg (DRV_CH_DIAG ch) (leAt r 8 2 % 1024 * 2 ^ 22 + leAt r 6 2 % 1024 * 2 ^ 12 + byteAt r 10 * 16 + byteAt r 11 % 16)
  s.setReg (DRV_CH_DIAG2 ch) (leAt r 12 2 * 65536 + byteAt r 14 * 256 + b2n (bitB fl 2))

/-- A record configures node `n`: it replaces the one for the same channels and goes out with EFF_TICK 0. -/
def State.configNode (s : State) (n : Nat) (r : List Byte) : State :=
  let rest := s.drv.params.filter fun x => !decide (x.1 = n ∧ leAt x.2 0 4 = leAt r 0 4)
  ({ s with drv := { s.drv with params := rest ++ [(n, r)] } } : State).planDrive n 0 2 r

/-- A DRIVE_CONFIG takes effect (R346). -/
def State.driveEffect (s : State) (d : Running) (data : List Byte) : State :=
  let b := d.bytes
  let first := leAt b 20 4
  let one (s : State) (k : Nat) : State :=
    let r := driveRec data (dByteLen b) k
    if byteAt b 16 = 0 then s.configChan (first + k) r else s.configNode (first + k) r
  ((List.range (leAt b 28 4)).foldl one s).done d

/-! ### REINSTATE (R340, R341) -/

/-- The checks of a REINSTATE. -/
def reinstateChecks (_ : State) (b : List Byte) : OpChecks :=
  let kind := byteAt b 16
  let id := leAt b 20 4
  let n := leAt b 28 4
  { bad := [(16, decide (2 < kind)), (20, decide (kind = 2 ∧ epMax < id + n)),
            (28, decide (n = 0) || decide (kind = 0 ∧ 48 < id + n) || decide (kind = 1 ∧ nodeMax < id + n))] }

/-- Local channel `ch` is reinstated. -/
def State.reinstateLocal (s : State) (ch : Nat) : State :=
  let was := s.ladder ch
  let s := (s.toLadder ch ldNormal 0).setRetired ch false
  if was = ldRetired then s.localEvent 0x43 0 ch else s

/-- Channel `c` of node `n` is reinstated: a PLAN record tells the node from when (R341). -/
def State.reinstateNode (s : State) (n c : Nat) : State :=
  let eff := s.nextShown % 2 ^ 32
  let had := decide ((n, c) ∈ s.drv.nodes)
  let ep := (nodeEndpoint s.fe.blocks (s.locatorsAll s.fe.blocks) n c).getD 0
  let s := { s with drv := { s.drv with
    nodes := s.drv.nodes.filter (fun x => !decide (x = (n, c)))
    reports := s.drv.reports.filter (fun x => !decide (x.1 = n ∧ x.2.1 = c))
    reinstated := sput (fun _ => (none : Option Nat)) s.drv.reinstated (256 * n + c) (some eff) } }
  let s := (s.setReg DRV_RET_NODE s.drv.nodes.length).planDrive n eff 1 (leBytes 1 c ++ leBytes 1 1)
  if had then s.drvEvent 0x43 1 0 c n ep else s

/-- The node channels that drive a component of an endpoint in `[a, a + n)`. -/
def State.nodeChansIn (s : State) (a n : Nat) : List (Nat × Nat) :=
  (s.locatorsAll s.fe.blocks).flatMap fun kv => kv.2.flatMap fun x =>
    let cs := nodeChannels s.fe.blocks x.2
    ((List.range cs.length).filter fun c => match cs[c]? with | some y => decide (a ≤ y.1.ep ∧ y.1.ep < a + n) | none => false).map fun c => (x.1, c)

/-- A REINSTATE takes effect. -/
def State.reinstateEffect (s : State) (d : Running) (_ : List Byte) : State :=
  let b := d.bytes
  let id := leAt b 20 4
  let n := leAt b 28 4
  let s : State := match byteAt b 16 with
    | 0 => (List.range n).foldl (fun (s : State) k => s.reinstateLocal (id + k)) s
    | 1 => (List.range n).foldl (fun (s : State) k => s.reinstateNode (id + k) (byteAt b 17)) s
    | _ =>
      let drives (ch : Nat) : Bool := match entryAt s.fe.blocks (s.fld (DRV_CH_CFG_EP ch)) with
        | none => false
        | some x => decide (id ≤ x.ep ∧ x.ep < id + n ∧ s.fld (DRV_CH_CFG_COMP ch) < x.comp)
      let own := chans.filter drives
      let nodes := s.nodeChansIn id n
      nodes.foldl (fun (s : State) x => s.reinstateNode x.1 x.2) (own.foldl (fun (s : State) ch => s.reinstateLocal ch) s)
  s.done d

/-! ### The commands -/

/-- DRIVE_CONFIG (R344). -/
def execDriveConfig (r : Fin 32) (payload : Option (List Byte)) (s : State) : Res :=
  .next (s.runOp r.val 0x50 payload driveChecks noReserve State.driveEffect)

/-- REINSTATE (R340). -/
def execReinstate (r : Fin 32) (s : State) : Res := .next (s.runOp r.val 0x68 noPayload reinstateChecks noReserve State.reinstateEffect)

/-- PWM_PERIOD_START (R324). -/
def execPwmPeriodStart (feed : Fin 16) (cycles : Word) (s : State) : Res := .next (s.pwmStart feed.val cycles.toNat)

/-- QUALIFY_WINDOW_END (R327). -/
def execQualifyWindowEnd (ch : Fin 48) (lowUv highUv : Word) (adc : BitVec 12) (s : State) : Res :=
  .next (s.qualify ch.val lowUv.toNat highUv.toNat adc.toNat)

end Sys2Proof.Machine
end

