-- ==== Sys2Proof/Machine/Farrier.lean ====
section
/-! DEFINITION. Farrier (16_farrier_calibration.md): factory trims, captures, calibration counts and the ledger. -/

namespace Sys2Proof.Machine

/-! ### Events (R433) -/

/-- CAL_SET of set `k`. -/
def State.calSet (s : State) (k cause : Nat) : State :=
  s.postNow 0x67 0 0 [(16, 1, k), (17, 1, cause), (20, 4, s.reg (FAR_SET_CNT k)), (24, 4, s.reg (FAR_SET_TIME k)),
    (28, 4, s.tickNo % 2 ^ 32)]

/-! ### The NOR areas of R535 -/

/-- A range of NOR addresses overlaps the image slots. -/
def overSlots (base bytes : Nat) : Bool := decide (bytes ≠ 0 ∧ base < 0x2010000 ∧ 0x10000 < base + bytes)

/-- The save ring: its base and bytes (R414). -/
def State.saveBase (s : State) : Nat := s.fld MTR_SAVE_BASE_v * 4096
def State.saveSects (s : State) : Nat := s.fld MTR_SAVE_SECT_v

/-- The ledger ring: its base and sectors (R431). -/
def State.ledBase (s : State) : Nat := s.fld FAR_LEDGER_BASE_v * 4096
def State.ledSects (s : State) : Nat := s.fld FAR_LEDGER_SECT_v

/-- The ledger ring cannot be used (R431). -/
def State.ledgerBad (s : State) : Bool :=
  let a := s.ledBase
  let n := s.ledSects * 4096
  let b := s.saveBase
  let m := s.saveSects * 4096
  decide (s.ledSects = 1) || overSlots a n || decide (n ≠ 0 ∧ m ≠ 0 ∧ a < b + m ∧ b < a + n)

/-! ### The ledger (R429, R431, R432) -/

def noDigest (_ : Nat) : Option Nat := none

/-- Bytes of an entry of set `k` with sequence number `seq`. -/
def State.ledgerEntry (s : State) (k seq : Nat) : List Byte :=
  let b := leBytes 4 0x5A4A464C ++ leBytes 1 k ++ leBytes 3 0 ++ leBytes 8 seq ++ leBytes 4 (s.reg (FAR_SET_CNT k))
    ++ leBytes 6 (s.reg64 (FAR_SET_TIME k)) ++ leBytes 4 (s.reg (FAR_SET_NS k)) ++ leBytes 2 0 ++ leBytes 8 (s.reg64 (FAR_SET_REF k))
    ++ leBytes 8 ((sget noDigest s.far.digests (k - 4)).getD 0) ++ leBytes 12 0
  b ++ leBytes 4 (crc32 b)

def noSave (_ : Nat) : List Byte := []

/-- Entry `i` of ledger sector `j` as a key of the NOR. -/
def State.ledKey (s : State) (j i : Nat) : Nat := (s.ledBase + j * 4096) / 64 + i

/-- Write an entry of set `k` at the next place of the sector in use. -/
def State.putEntry (s : State) (k : Nat) : State :=
  let f := s.far
  let seq := f.seq + 1
  { s with nor := { s.nor with ledger := sput noSave s.nor.ledger (s.ledKey f.sector f.index) (s.ledgerEntry k seq) }
           far := { f with seq := seq, index := f.index + 1, newest := sput noDigest f.newest k (some f.sector),
                           unwritten := f.unwritten.filter (fun x => x ≠ k) } }

/-- Sets whose newest entry lies in sector `j`. -/
def State.newestIn (s : State) (j : Nat) : List Nat := (List.range 16).filterMap fun i =>
  if sget noDigest s.far.newest (4 + i) = some j then some (4 + i) else none

/-- Go on to the next sector when this one has room only for what must be copied: the newest entries are copied first, then the
oldest sector is erased (R431). -/
def State.turnLedger (s : State) : State :=
  let nxt := (s.far.sector + 1) % s.ledSects
  let keep := s.newestIn nxt
  if 64 - s.far.index ≤ keep.length then
    let s := keep.foldl (fun (s : State) k => s.putEntry k) s
    let a := s.ledKey nxt 0
    { s with nor := { s.nor with ledger := s.nor.ledger.filter (fun kv => !decide (a ≤ kv.1 ∧ kv.1 < a + 64)) }
             far := { s.far with sector := nxt, index := 0 } }
  else s

/-- Append the entry of set `k`; `ok` tells whether the write succeeds. -/
def State.appendLedger (s : State) (k : Nat) (ok : Bool) : State :=
  if s.ledSects = 0 then s
  else if s.ledgerBad then s.raise FAR_STAT_LEDGER_BAD
  else if ok then s.turnLedger.putEntry k
  else
    let s : State := { s with far := { s.far with unwritten := s.far.unwritten.filter (fun x => x ≠ k) ++ [k] } }
    (s.bump FAR_STAT_LFAILS 1).calSet k 2

/-- Entries that failed are written again at a metering save instant (R431). -/
def State.retryLedger (s : State) (ok : Bool) : State := s.far.unwritten.foldl (fun (s : State) k => s.appendLedger k ok) s

/-- A stored entry is valid. -/
def entryOk (e : List Byte) : Bool :=
  decide (leAt e 0 4 = 0x5A4A464C ∧ 4 ≤ byteAt e 4 ∧ byteAt e 4 ≤ 19 ∧ e.length = 64 ∧ leAt e 60 4 = crc32 (e.take 60))

/-- The valid entries of the ring: (sector, index, entry). -/
def State.ledgerEntries (s : State) : List (Nat × Nat × List Byte) :=
  let a := s.ledKey 0 0
  (s.nor.ledger.filter fun kv => decide (a ≤ kv.1 ∧ kv.1 < a + 64 * s.ledSects) && entryOk kv.2).map fun kv =>
    ((kv.1 - a) / 64, (kv.1 - a) % 64, kv.2)

/-- The newer of two entries. -/
def newerEntry (m : Option (Nat × Nat × List Byte)) (e : Nat × Nat × List Byte) : Option (Nat × Nat × List Byte) :=
  match m with
  | none => some e
  | some x => if leAt x.2.2 8 8 < leAt e.2.2 8 8 then some e else some x

/-- LEDGER_READ for set `k` (R432). -/
def State.loadSet (s : State) (es : List (Nat × Nat × List Byte)) (k : Nat) : State :=
  match (es.filter fun x => byteAt x.2.2 4 = k).foldl newerEntry none with
  | none =>
    let s := ((s.setReg (FAR_SET_CNT k) 0).setReg64 (FAR_SET_TIME k) 0).setReg (FAR_SET_NS k) 0
    let s := s.setReg64 (FAR_SET_REF k) 0
    { s with far := { s.far with digests := sput noDigest s.far.digests (k - 4) none, newest := sput noDigest s.far.newest k none } }
  | some (j, _, e) =>
    let s := ((s.setReg (FAR_SET_CNT k) (leAt e 16 4)).setReg64 (FAR_SET_TIME k) (leAt e 20 6)).setReg (FAR_SET_NS k) (leAt e 26 4)
    let s := s.setReg64 (FAR_SET_REF k) (leAt e 32 8)
    { s with far := { s.far with digests := sput noDigest s.far.digests (k - 4) (some (leAt e 40 8)),
                                 newest := sput noDigest s.far.newest k (some j) } }

/-- LEDGER_READ (R431, R432): only in START, before any feed starts. -/
def State.readLedger (s : State) : State :=
  if s.svc ≠ 0 ∨ (List.range 16).any fun f => s.bit (MTR_FEED_STAT_RUN f) then s
  else
    let s : State := { s with mem := { s.mem with ledger := true } }
    let s := if s.ledSects ≠ 0 ∧ s.ledgerBad then s.raise FAR_STAT_LEDGER_BAD else s
    let es := if s.ledgerBad then [] else s.ledgerEntries
    let s := (List.range 16).foldl (fun (s : State) i => s.loadSet es (4 + i)) s
    match es.foldl newerEntry none with
    | none => { s with far := { s.far with sector := 0, index := 0, seq := 0 } }
    | some (j, i, e) => { s with far := { s.far with sector := j, index := i + 1, seq := leAt e 8 8 } }

/-! ### Factory trims (R421 – R424) -/

/-- The interpolation of R423 at temperature `t`, without extrapolation. -/
def trimAt (temps ys : List Int) (t : Int) : Int :=
  let tm := temps.getD 1 0
  let a := if t ≤ tm then 0 else 1
  let ta := temps.getD a 0
  let tb := temps.getD (a + 1) 0
  let t := clampI ta tb t
  let ya := ys.getD a 0
  ya + rheI ((ys.getD (a + 1) 0 - ya) * (t - ta)) (tb - ta).toNat

/-- The temperature of a raw sensor code by the TSENS points (R422), in s7.8; the field of FAR_TJ bounds it as well. -/
def tempOf (temps ys : List Int) (r : Int) : Int :=
  let rising := ys.getD 0 0 < ys.getD 2 0
  let upper := if rising then ys.getD 1 0 < r else r < ys.getD 1 0
  let a := if upper then 1 else 0
  let ya := ys.getD a 0
  let d := ys.getD (a + 1) 0 - ya
  let ta := temps.getD a 0
  let num := (temps.getD (a + 1) 0 - ta) * (r - ya)
  clampI (-16384) 32767 (ta + (if d < 0 then rheI (-num) d.natAbs else rheI num d.natAbs))

def noPoints (_ : Nat) : List Int := []

/-- The value of trim `i` of set `k` in force (R421, R423): the neutral value without a factory record. -/
def State.trimNow (s : State) (k i : Nat) : Int :=
  match s.far.factory with
  | none => if k = 2 then 0x200 else 0
  | some r => trimAt r.temps (sget noPoints r.points i) (sget zeroI s.far.inForce k)

/-- The sensor of set `k` (R420). -/
def setSensor (k : Nat) : Nat := if k = 2 then 1 else 0

/-- New trims of the sets that wait take effect (R424). -/
def State.applyTrims (s : State) : State :=
  let one (s : State) (k : Nat) : State :=
    { s with far := { s.far with inForce := sput zeroI s.far.inForce k (sext 16 (s.fld (FAR_SET_TEMP_v k))) } }
  { s.far.waiting.foldl one s with far := { (s.far.waiting.foldl one s).far with waiting := [] } }

/-- FAR_TJ of sensor `i`; without a factory record no rule gives it a value. -/
def State.loadTj (s : State) (raw : List Int) (i : Nat) : State :=
  match s.far.factory with
  | none => (s.setFld (FAR_TJ_v i) (toField 16 (clampI (-16384) 32767 (sext 16 (s.freeVal 65536))))).drew
  | some r => s.setFld (FAR_TJ_v i) (toField 16 (tempOf r.temps (sget noPoints r.points (240 + i)) (raw.getD i 0)))

/-- The set temperature of set `k` follows its sensor with hysteresis (R423). -/
def State.moveSet (s : State) (k : Nat) : State :=
  let t := sext 16 (s.fld (FAR_TJ_v (setSensor k)))
  let old := sext 16 (s.fld (FAR_SET_TEMP_v k))
  if (t - old).natAbs < max 1 (s.fld FAR_FT_HYST_v) then s
  else
    let s := s.setFld (FAR_SET_TEMP_v k) (toField 16 t)
    { s with far := { s.far with waiting := s.far.waiting.filter (fun x => x ≠ k) ++ [k] } }

/-- FACTORY_TRIM_UPDATE at the next FAR_FT_PERIOD. -/
def State.trimUpdate (s : State) (raw : List Int) : State :=
  let s := s.runTo (s.far.updated + clampN 10 4000 (s.fld FAR_FT_PERIOD_v) * unitMs)
  let s : State := { s with far := { s.far with updated := s.tb.now } }
  let s := (List.range 8).foldl (fun (s : State) i => s.loadTj raw i) s
  let s := [0, 2, 3].foldl (fun (s : State) k => s.moveSet k) s
  if s.run then s else s.applyTrims

/-- The factory record at the start of a boot (R421, R430). -/
def State.loadFactory (s : State) : State :=
  let time := match s.far.factory with | none => 0 | some r => r.time
  let n := b2n s.far.factory.isSome
  let one (s : State) (k : Nat) : State := (s.setReg (FAR_SET_CNT k) n).setReg64 (FAR_SET_TIME k) time
  ((List.range 4).foldl one s).setFld FAR_STAT_FT_BAD (1 - n)

/-! ### Captures (R425 – R428) -/

/-- Load the status of the capture. -/
def State.capStat (s : State) (c : Capture) (status : Nat) : State :=
  ((s.setFld FAR_CAP_STAT_DONE c.done).setFld FAR_CAP_STAT_STATUS status).setFld FAR_CAP_STAT_BUSY (b2n (decide (status = 1)))

/-- FAR_CAP_RMS: 10 µV or 10 µA. -/
def capRms (c : Capture) (ch : Nat) : Nat :=
  let n := c.points.foldl (fun a x => a + ((x.2.getD ch 0) * (x.2.getD ch 0)).natAbs) 0
  min 0xFFFFFFFF (rootOf (n * 10000) (c.points.length * 2 ^ 46))

/-- FAR_CAP_ANG: wrapped to half a turn, and 0 for channel 0. -/
def capAng (c : Capture) (ch : Nat) : Int :=
  if ch = 0 then 0
  else sext 32 (toField 32 (Config.angle (c.points.map fun x => (x.1, x.2.getD 0 0)) (c.points.map fun x => (x.1, x.2.getD ch 0))))

/-- The results of a completed capture (R426). -/
def State.capResults (s : State) (c : Capture) (instant : Nat) : State :=
  let en := s.fld (MTR_FEED_CFG_CH_EN c.feed)
  let one (s : State) (ch : Nat) : State :=
    if bitB en ch then (s.setReg (FAR_CAP_RMS ch) (capRms c ch)).setReg (FAR_CAP_ANG ch) (toField 32 (capAng c ch))
    else (s.setReg (FAR_CAP_RMS ch) 0).setReg (FAR_CAP_ANG ch) 0
  let s := (List.range 7).foldl one s
  let s := s.setReg FAR_CAP_FREQ (rhe (c.cycles * 1000 * unitSec) (instant - c.begun.getD 0))
  { s with far := { s.far with refs := sput zeroNat s.far.refs c.feed (s.reg64 FAR_CAP_REF) } }

/-- FAR_CAP_END: a capture that has ended loads its results and posts CAL_CAPTURE (R426, R427). -/
def State.capEnd (s : State) : State :=
  match s.far.capture with
  | none => s
  | some c =>
    match c.ended with
    | none => s
    | some (status, instant) =>
      let s := if status = 0 then s.capResults c instant else s
      let s := s.capStat c status
      let s : State := { s with far := { s.far with capture := none } }
      s.postNow 0x66 0 0 [(16, 1, c.feed), (17, 1, status), (20, 4, c.done), (24, 4, s.reg FAR_CAP_FREQ), (28, 4, s.tickNo % 2 ^ 32)]

/-- The capture on feed `f`, if one runs, ends with `status`. -/
def State.abortCapture (s : State) (f status : Nat) : State :=
  match s.far.capture with
  | none => s
  | some c => if c.feed = f ∧ c.ended.isNone then { s with far := { s.far with capture := some { c with ended := some (status, s.tb.now) } } } else s

/-- The fields of a FAR_CAP_CTRL write. -/
def State.capFields (s : State) (v : Nat) : State :=
  (s.setFld FAR_CAP_CTRL_CYC (clampN 10 4000 (bitsOf v 8 12))).setFld FAR_CAP_CTRL_FEED (bitsOf v 4 4)

/-- FAR_CAP_START (R425). -/
def State.capStart (s : State) (v : Nat) : State :=
  let s := s.capFields v
  if s.far.capture.isSome then s.raise FAR_STAT_CAP_WR
  else
    let f := s.fld FAR_CAP_CTRL_FEED
    let c : Capture := { feed := f, cycles := s.fld FAR_CAP_CTRL_CYC }
    let s := ({ s with far := { s.far with capture := some c } } : State).capStat c 1
    if s.bit (MTR_FEED_STAT_RUN f) then s else (s.abortCapture f 2).capEnd

/-- FAR_CAP_STOP (R427): the running capture ends with status 5. -/
def State.capStop (s : State) (v : Nat) : State :=
  let s := s.capFields v
  match s.far.capture with
  | none => s
  | some c => (s.abortCapture c.feed 5).capEnd

/-! ### The commands -/

/-- LEDGER_READ (R432). -/
def execLedgerRead (s : State) : Res := .next s.readLedger

/-- FACTORY_TRIM_UPDATE (R422 – R424): the raw codes of TS0 – TS7. -/
def execFactoryTrimUpdate (raw : List Half) (s : State) : Res := .next (s.trimUpdate (raw.map fun x => x.toInt))

/-- FAR_CAP_START (R425): a write of FAR_CAP_CTRL with START 1. -/
def execFarCaptureStart (ctrl : Word) (s : State) : Res := .next (s.onBlock FAR_CAP_CTRL (s.capStart ctrl.toNat))

/-- FAR_CAP_STOP (R427): a write of FAR_CAP_CTRL with STOP 1. -/
def execFarCaptureStop (ctrl : Word) (s : State) : Res := .next (s.onBlock FAR_CAP_CTRL (s.capStop ctrl.toNat))

/-- FAR_CAP_END (R426, R427). -/
def execFarCaptureEnd (s : State) : Res := .next s.capEnd

end Sys2Proof.Machine
end

