-- ==== Sys2Proof/Machine/Timebase.lean ====
section
/-! DEFINITION. The timebase (02_timebase_and_ptp.md): servo ownership, the states of R37, offsets, slews and steps,
PTP and the 1PPS pins. -/

namespace Sys2Proof.Machine

/-- The bytes of TB_GM_ID, first octet first, as one event field value (R636). -/
def State.gmId (s : State) : Nat := s.reg64 TB_GM_ID

/-- SRC_INDEX of the timebase's events: the ETH window of the slave port, 0 when none is set (R636). -/
def State.slaveIdx (s : State) : Nat :=
  let p := s.fld TB_PTP_CFG_SLAVE_PORT
  if p = 12 ∨ p = 13 ∨ p = 15 then 0 else p

/-- The slave port, when one is set (TB_PTP_CFG: 0xF none, 12 and 13 treated as none). -/
def State.slavePort (s : State) : Option Nat :=
  let p := s.fld TB_PTP_CFG_SLAVE_PORT
  if p = 12 ∨ p = 13 ∨ p = 15 then none else some p

/-- STATE is ACQUIRE or LOCKED, the states that a source is followed in (R38). -/
def State.tracking (s : State) : Bool := s.fld TB_STATUS_STATE = tbAcquire || s.fld TB_STATUS_STATE = tbLocked

/-- Post TIME_LOCK or TIME_HOLDOVER (R636). -/
def State.postTime (s : State) (typ b16 b17 : Nat) : State :=
  s.postNow typ 6 s.slaveIdx [(16, 1, b16), (17, 1, b17), (20, 8, s.gmId), (28, 4, s.tickNo)]

/-- Abandon a pending slew (R37). -/
def State.dropSlew (s : State) : State := { s with tb := { s.tb with pend := 0 } }

/-- Enter HOLDOVER from ACQUIRE or LOCKED with the side effects of R37; `cause` as in R636. -/
def State.enterHoldover (s : State) (cause : Nat) : State :=
  if s.tracking then
    let prev := s.fld TB_STATUS_STATE
    let s := ((s.setFld TB_STATUS_STATE tbHoldover).clear TB_CTRL_LOCK).dropSlew
    ({ s with tb := { s.tb with hoFor := 0 } } : State).postTime 0x12 cause prev
  else s

/-- The party that writes a servo field owns the servo (R34). -/
def State.owns (s : State) (p : Party) : Bool :=
  match p with
  | .host => s.bit TB_CTRL_SERVO
  | .rider => !s.bit TB_CTRL_SERVO

/-- A change of TRACK by the servo owner (R37). -/
def State.writeTrack (s : State) (v : Bool) : State :=
  if v then
    let s := s.raise TB_CTRL_TRACK
    if s.fld TB_STATUS_STATE = tbFree then s.setFld TB_STATUS_STATE tbAcquire else s
  else (((s.clear TB_CTRL_TRACK).clear TB_CTRL_LOCK).setFld TB_STATUS_STATE tbFree).dropSlew

/-- A write of HO_EXIT by the servo owner (R37); TB_HO_TIME holds its value from here. -/
def State.writeHoExit (s : State) : State :=
  if s.fld TB_STATUS_STATE = tbHoldover then s.setFld TB_STATUS_STATE tbAcquire else s

/-- A change of LOCK by the servo owner (R37). -/
def State.writeLock (s : State) (v : Bool) : State :=
  if v then
    let s := s.raise TB_CTRL_LOCK
    if s.fld TB_STATUS_STATE = tbAcquire then (s.setFld TB_STATUS_STATE tbLocked).postTime 0x11 tbAcquire (s.fld TB_PTP_CFG_SOURCE)
    else s
  else
    let s := s.clear TB_CTRL_LOCK
    if s.fld TB_STATUS_STATE = tbLocked then s.setFld TB_STATUS_STATE tbAcquire else s

/-- The owner fields of a TB_CTRL write by the servo owner (R34, R37): a field that the write leaves as it stands changes
nothing; TRACK, then HO_EXIT, then LOCK (log entry 7). -/
def State.ownerFields (s : State) (v : Nat) : State :=
  let s := s.setFld TB_CTRL_STEP_EN (bitsOf v 4 1)
  let s := if bitB v 0 = s.bit TB_CTRL_TRACK then s else s.writeTrack (bitB v 0)
  let s := if bitB v 2 then s.writeHoExit else s
  if bitB v 0 = false ∨ bitB v 1 = s.bit TB_CTRL_LOCK then s else s.writeLock (bitB v 1)

/-- A write of TB_CTRL by either party (R34, R35). -/
def State.writeTbCtrl (s : State) (p : Party) (v : Nat) : State :=
  let owner := s.owns p
  let differs := bitsOf v 4 1 ≠ s.fld TB_CTRL_STEP_EN ∨ bitB v 0 ≠ s.bit TB_CTRL_TRACK ∨ bitB v 1 ≠ s.bit TB_CTRL_LOCK ∨ bitB v 2 = true
  let s := s.setFld TB_CTRL_SERVO (bitsOf v 3 1)
  if owner then s.ownerFields v else if differs then s.raise TB_STATUS_REFUSED else s

/-- A servo write is dropped under R34 (the other party, or a refused step) or R39 (HOLDOVER), with its status bit. -/
def State.servoDrop (s : State) (p : Party) : Option State :=
  if s.owns p = false then some (s.raise TB_STATUS_REFUSED)
  else if s.holdover then some (s.raise TB_STATUS_HO_DROP)
  else none

/-- The limits of TB_INCR (R58). -/
def incrMin : Nat := 0x4FF5C28F6
def incrMax : Nat := 0x500A3D70A

/-- A committed TB_INCR value (R58, R31). -/
def State.writeIncr (s : State) (p : Party) (v : Nat) : State :=
  match s.servoDrop p with
  | some s => s
  | none =>
    let raw := v % 2 ^ 40
    let x := clampN incrMin incrMax raw
    let s := s.setReg64 TB_INCR x
    let s := if x = raw then s else s.raise TB_STATUS_INCR_CLAMP
    { s with tb := { s.tb with commit := some (1, x) } }

/-- The largest magnitude of the pending offset (R42). -/
def pendMax : Int := 999999999 * 4294967296

/-- A TB_ADJ_NS write (R42). -/
def State.writeAdj (s : State) (p : Party) (v : Nat) : State :=
  match s.servoDrop p with
  | some s => s
  | none => { s with tb := { s.tb with pend := clampI (-pendMax) pendMax (s.tb.pend + sext 32 v * 4294967296) } }

/-- A committed TB_STEP (R44). -/
def State.writeStep (s : State) (p : Party) (v : Nat) : State :=
  match s.servoDrop p with
  | some s => s
  | none =>
    let z := sext 64 v
    if s.bit TB_CTRL_STEP_EN = false ∨ (s.tb.now : Int) + z * (unitNs : Int) < 0 then s.raise TB_STATUS_REFUSED
    else { s with tb := { s.tb with step := some z, stepIn := 1 } }

/-- Load the snapshot registers with the present time (TB_SNAP_CTRL). -/
def State.snapshot (s : State) : State :=
  let t := s.tb.now
  (((s.setReg TB_SNAP_FRAC (fracOf t)).setReg TB_SNAP_NS (nsOf t)).setReg TB_SNAP_SEC_LO (secOf t % 2 ^ 32)).setReg TB_SNAP_SEC_HI
    (secOf t / 2 ^ 32 % 2 ^ 16)

/-- A message interval clamped to the range of R46, as its signed byte. -/
def clampLog (lo hi : Int) (b : Nat) : Nat := toField 8 (clampI lo hi (sext 8 b))

/-- What a TB_PTP_INTV write stores: each interval clamped to R46. -/
def ptpIntvValue (v : Nat) : Nat :=
  clampLog (-7) 1 (bitsOf v 0 8) + 256 * clampLog (-3) 4 (bitsOf v 8 8) + 65536 * clampLog (-7) 5 (bitsOf v 16 8)

/-- A write of TB_PTP_CFG or TB_PTP_INTV: the register takes the value and a followed source is given up (R38). -/
def State.writePtp (s : State) (intv : Bool) (v : Nat) : State :=
  let s := s.enterHoldover 4
  if intv then s.setReg TB_PTP_INTV (ptpIntvValue v)
  else s.setReg TB_PTP_CFG (v % 2 ^ 32 - bitsOf v 2 4 * 4)

/-- A source-loss condition of R38: its status bit is set in every state that detects it (R41), and ACQUIRE or LOCKED
becomes HOLDOVER.  Detection runs in ACQUIRE, LOCKED and HOLDOVER while `src` is the configured source. -/
def State.sourceLoss (s : State) (src : Nat) (flag : Fld) (cause : Nat) : State :=
  if s.fld TB_PTP_CFG_SOURCE = src ∧ s.fld TB_STATUS_STATE ≠ tbFree then (s.raise flag).enterHoldover cause else s

/-- PTP is enabled on an ETH window (ETH_PTP_CTRL; ignored for the Tandem lanes). -/
def State.ptpOn (s : State) (w : Nat) : Bool := w ≠ 12 && w ≠ 13 && s.bit (ETH_PTP_CTRL_v w)

/-- A timestamp of ETH window `w`: the correction field of ETH_TS_CORR is applied before it is used (R50). -/
def State.stampOf (s : State) (w : Nat) (egress : Bool) : Nat :=
  let c := if egress then sext 16 (s.fld (ETH_TS_CORR_EGR_NS w)) else sext 16 (s.fld (ETH_TS_CORR_ING_NS w))
  ((nsOf s.tb.now + unitSec / unitNs * secOf s.tb.now : Nat) + c).toNat

/-- Queue a PTP timestamp for the rider firmware; a full queue of 64 drops it and counts (R51). -/
def State.queueStamp (s : State) (w t : Nat) : State :=
  if (s.tb.stamps.filter fun x => x.1 = w).length < 64 then { s with tb := { s.tb with stamps := s.tb.stamps ++ [(w, t)] } }
  else s.bumpReg (ETH_TS_DROP w) 1

/-- An Announce on the slave port: its interval is the one R38 counts, and another grandmaster sets GM_CHANGE. -/
def State.announce (s : State) (gm : Nat) (log : Int) : State :=
  if gm = s.gmId then { s with tb := { s.tb with annLog := log } } else s.sourceLoss 1 TB_STATUS_GM_CHANGE 2

/-- TIME_SAMPLE of a completed Sync exchange while host software owns the servo (R36, R110): the event bears the time of
the Sync reception. -/
def State.timeSample (s : State) (rx : Nat) (ofs delay : Nat) : State :=
  if s.bit TB_CTRL_SERVO then
    let e := s.event 0x10 6 s.slaveIdx [(16, 8, ofs), (24, 8, delay)]
    s.post { e with ns := nsOf rx, sec := secOf rx % 2 ^ 32 }
  else s

/-- A PTP message on a PTP-enabled port (R47, R49, R51): an event message is timestamped; the protocol stack acts on
Announce, on Sync and on a completed exchange of the slave port. -/
def State.ptpReceive (s : State) (w : Nat) (m : PtpMessage) : State :=
  if s.ptpOn w = false then s
  else
    match m with
    | .announce gm log => if s.slavePort = some w then s.announce gm.toNat log.toInt else s
    | .sync _ log =>
      let s := s.queueStamp w (s.stampOf w false)
      if s.slavePort = some w then { s with tb := { s.tb with syncLog := log.toInt } } else s
    | .exchange sec ns ofs delay =>
      if s.slavePort = some w then s.timeSample (sec.toNat * unitSec + ns.toNat * unitNs) ofs.toNat delay.toNat else s
    | .otherEvent => s.queueStamp w (s.stampOf w false)
    | .general => s

/-- The bytes that the MAC inserts as a one-step event message leaves: 6 of seconds and 4 of nanoseconds (R48). -/
def State.insertTime (s : State) (w : Nat) : List Byte :=
  let t := s.stampOf w true
  beBytes 6 (t / 1000000000) ++ beBytes 4 (t % 1000000000)

/-- A PTP event message leaves a port (R48, R49): a one-step Sync carries its transmit time, and a one-step Pdelay_Resp
the residence time since `rx`, in its correctionField; every transmission is timestamped. -/
def State.ptpTransmit (s : State) (w : Nat) (kind : PtpTransmit) (body : List Byte) : State :=
  if s.ptpOn w = false then s
  else
    let one := s.bit TB_PTP_CFG_ONE_STEP
    let t := s.stampOf w true
    let out := match kind with
      | .sync => if one then patchBytes body 34 (s.insertTime w) else body
      | .pdelayResp rx => if one then patchBytes body 8 (beBytes 8 (beAt body 8 8 + (t - rx.toNat) * 65536)) else body
      | .other => body
    (s.queueStamp w t).emit (.frame w .ptp out)

/-- TB_PPS_OUT_OFS in units of time. -/
def State.ppsOfs (s : State) : Int := sext 32 (s.reg TB_PPS_OUT_OFS) * 4294967296

/-- The latest whole second plus offset at or before time `t`. -/
def State.ppsAt (s : State) (t : Nat) : Int := Int.fdiv ((t : Int) - s.ppsOfs) (unitSec : Int)

/-- The next whole second that TB_PPS_OUT marks: one that a step has already passed is marked at once, and none is marked
twice (R52, R56). -/
def State.ppsNext (s : State) : Int :=
  let past := max s.tb.ppsMark (s.ppsAt s.tb.ppsLow)
  if past < s.ppsAt s.tb.now then s.ppsAt s.tb.now else past + 1

/-- OUT_WIDTH_US as an interval. -/
def State.ppsWidth (s : State) : Nat := s.fld TB_PPS_CTRL_OUT_WIDTH_US * unitUs

/-- TB_PPS_OUT rises at the next whole second plus TB_PPS_OUT_OFS (R52). -/
def State.ppsRise (s : State) : State :=
  if s.bit TB_PPS_CTRL_OUT_EN then
    let n := s.ppsNext
    let s := s.runTo (n * (unitSec : Int) + s.ppsOfs).toNat
    { s with tb := { s.tb with ppsMark := n, ppsHigh := true, ppsFall := s.tb.now + s.ppsWidth } }
  else s

/-- TB_PPS_OUT falls after OUT_WIDTH_US (R52). -/
def State.ppsDrop (s : State) : State :=
  if s.tb.ppsHigh then
    let s := s.runTo s.tb.ppsFall
    { s with tb := { s.tb with ppsHigh := false } }
  else s

/-- A write of TB_PPS_CTRL: OUT_WIDTH_US reads back clamped; enabling the output starts the marks beyond the present
time, and disabling it drives it low. -/
def State.writePps (s : State) (v : Nat) : State :=
  let was := s.bit TB_PPS_CTRL_OUT_EN
  let s := s.setReg TB_PPS_CTRL (bitsOf v 0 3 + 256 * clampN 1 500000 (bitsOf v 8 20))
  let on := s.bit TB_PPS_CTRL_OUT_EN
  if on ∧ was = false then { s with tb := { s.tb with ppsLow := s.tb.now } }
  else if on = false then { s with tb := { s.tb with ppsHigh := false } }
  else s

/-- Distance of a time from the nearest whole second. -/
def fromSecond (t : Nat) : Nat := min (t % unitSec) (unitSec - t % unitSec)

/-- An edge on TB_PPS_IN (R53, R54): one of the selected polarity, on a pulse of at least 100 ns, is captured. -/
def State.ppsEdge (s : State) (falling : Bool) (pulseNs : Nat) : State :=
  if s.bit TB_PPS_CTRL_IN_EN = false ∨ falling ≠ s.bit TB_PPS_CTRL_IN_EDGE ∨ pulseNs < 100 then s
  else
    let t := s.tb.now
    let s := ((s.setReg TB_PPS_IN_NS (nsOf t)).setReg TB_PPS_IN_SEC_LO (secOf t % 2 ^ 32)).setReg TB_PPS_IN_SEC_HI (secOf t / 2 ^ 32 % 2 ^ 16)
    if s.fld TB_PTP_CFG_SOURCE = 2 ∧ s.tracking ∧ unitUs < fromSecond t then s.raise TB_STATUS_PPS_JUMP else s

/-- Cycles until the slew has removed the pending offset (R42). -/
def Timebase.slewCycles (t : Timebase) (ppm : Nat) : Nat := cdiv t.pend.natAbs (slewMag t.eff ppm)

/-- Let the slew run to its end (R42): three cycles singly, in which a commit may land, then the rest. -/
def State.slewEnd (s : State) : State :=
  if s.tb.pend = 0 then s
  else
    let ppm := s.fld TB_SLEW_v
    let one (t : Timebase) := if t.pend ≠ 0 ∧ (t.commit.isSome ∨ (t.step.isSome ∧ s.awaitsTick = false)) then t.cycle ppm s.holdover s.awaitsTick else t
    let t := one (one (one s.tb))
    { s with tb := t.cycles ppm (t.slewCycles ppm) s.holdover }

/-- The register whose read latches its companions (R53, TK_BOUND_*, MTR_LATCH_*). -/
def captureOff : TimeCapture → Nat
  | .ppsIn => TB_PPS_IN_NS
  | .tkBound => TK_BOUND_FRAC
  | .mtrLatch f => MTR_LATCH_NS f.val

/-- The companion registers that it latches. -/
def captureRegs : TimeCapture → List Nat
  | .ppsIn => [TB_PPS_IN_SEC_LO, TB_PPS_IN_SEC_HI]
  | .tkBound => [TK_BOUND_NS, TK_BOUND_SEC_LO, TK_BOUND_SEC_HI]
  | .mtrLatch f => [MTR_LATCH_SEC_LO f.val, MTR_LATCH_SEC_HI f.val]

def zeroWord (_ : Nat) : Word := 0

/-- Latch the present values of registers for their next reads. -/
def State.latchRegs (s : State) (offs : List Nat) : State :=
  { s with timeLatch := offs.foldl (fun m o => sput zeroWord m o (BitVec.ofNat 32 (s.reg o))) s.timeLatch }

/-! ### The commands -/

/-- TB_TRACK_SET (R37): `p` writes TB_CTRL with TRACK set and the other fields as they stand. -/
def execTbTrackSet (p : Party) (s : State) : Res := .next (s.writeTbCtrl p (setBits (s.reg TB_CTRL) 0 1 1))

/-- TB_TRACK_CLEAR (R37). -/
def execTbTrackClear (p : Party) (s : State) : Res := .next (s.writeTbCtrl p (setBits (s.reg TB_CTRL) 0 1 0))

/-- TB_LOCK_SET (R37). -/
def execTbLockSet (p : Party) (s : State) : Res := .next (s.writeTbCtrl p (setBits (s.reg TB_CTRL) 1 1 1))

/-- TB_LOCK_CLEAR (R37). -/
def execTbLockClear (p : Party) (s : State) : Res := .next (s.writeTbCtrl p (setBits (s.reg TB_CTRL) 1 1 0))

/-- TB_HO_EXIT (R37). -/
def execTbHoExit (p : Party) (s : State) : Res := .next (s.writeTbCtrl p (setBits (s.reg TB_CTRL) 2 1 1))

/-- TB_SERVO_CHANGE (R35). -/
def execTbServoChange (p : Party) (hostOwns : Bool) (s : State) : Res :=
  .next (s.writeTbCtrl p (setBits (s.reg TB_CTRL) 3 1 (b2n hostOwns)))

/-- TB_INCR_COMMIT (R58). -/
def execTbIncrCommit (p : Party) (v : DWord) (s : State) : Res := .next (s.writeIncr p v.toNat)

/-- TB_ADJ (R42). -/
def execTbAdj (p : Party) (v : Word) (s : State) : Res := .next (s.writeAdj p v.toNat)

/-- TB_STEP_COMMIT (R44). -/
def execTbStepCommit (p : Party) (v : DWord) (s : State) : Res := .next (s.writeStep p v.toNat)

/-- TB_SNAPSHOT: a write to TB_SNAP_CTRL; only a 1 in bit 0 triggers it. -/
def execTbSnapshot (v : Word) (s : State) : Res := .next (if bitB v.toNat 0 then s.snapshot else s)

/-- TB_PTP_CFG_WRITE (R38). -/
def execTbPtpCfgWrite (intv : Bool) (v : Word) (s : State) : Res := .next (s.writePtp intv v.toNat)

/-- TB_GM_ID_WRITE (R41). -/
def execTbGmIdWrite (id : DWord) (s : State) : Res := .next (s.setReg64 TB_GM_ID id.toNat)

/-- ANNOUNCE_TIMEOUT (R38). -/
def execAnnounceTimeout (s : State) : Res := .next (s.sourceLoss 1 TB_STATUS_ANN_LOSS 0)

/-- SYNC_TIMEOUT (R38). -/
def execSyncTimeout (s : State) : Res := .next (s.sourceLoss 1 TB_STATUS_SYNC_LOSS 1)

/-- PPS_LOSS_TIMEOUT (R38). -/
def execPpsLossTimeout (s : State) : Res := .next (s.sourceLoss 2 TB_STATUS_PPS_LOSS 3)

/-- PTP_MESSAGE_RECEIVE (R47). -/
def execPtpMessageReceive (w : Fin 15) (m : PtpMessage) (s : State) : Res := .next (s.ptpReceive w.val m)

/-- PTP_EVENT_TRANSMIT (R48). -/
def execPtpEventTransmit (w : Fin 15) (kind : PtpTransmit) (body : List Byte) (s : State) : Res :=
  .next (s.ptpTransmit w.val kind body)

/-- PPS_OUT_EDGE (R52). -/
def execPpsOutEdge (s : State) : Res := .next s.ppsRise

/-- PPS_OUT_PULSE_END (R52). -/
def execPpsOutPulseEnd (s : State) : Res := .next s.ppsDrop

/-- PPS_IN_EDGE (R53). -/
def execPpsInEdge (falling : Bool) (pulseNs : Word) (s : State) : Res := .next (s.ppsEdge falling pulseNs.toNat)

/-- SLEW_COMPLETE (R42). -/
def execSlewComplete (s : State) : Res := .next s.slewEnd

/-- TIME_CAPTURE_READ (R53). -/
def execTimeCaptureRead (c : TimeCapture) (s : State) : Res :=
  .next (s.onRead (captureOff c) (s.latchRegs (captureRegs c)) (s.reg (captureOff c)))

end Sys2Proof.Machine
end

