-- ==== Sys2Proof/Machine/Metering.lean ====
section
/-! DEFINITION. Feed metering and energy (15_metering.md): configuration, samples of both paths, line cycles, latches,
energy, feed events, save and restore, and the values of a tick. -/

namespace Sys2Proof.Machine

/-! ### Accessors -/

def meterDflt (_ : Nat) : MeterFeed := {}

def State.feed (s : State) (f : Nat) : MeterFeed := sget meterDflt s.mtr.feeds f
def State.setFeed (s : State) (f : Nat) (x : MeterFeed) : State := { s with mtr := { s.mtr with feeds := sput meterDflt s.mtr.feeds f x } }

def phaseDflt (_ : Nat) : PhaseFeed := {}

def State.phaseFeed (s : State) (f : Nat) : PhaseFeed := sget phaseDflt s.php.feeds f
def State.setPhaseFeed (s : State) (f : Nat) (x : PhaseFeed) : State := { s with php := { s.php with feeds := sput phaseDflt s.php.feeds f x } }

/-- The measurement window in progress of feed `f` becomes void (R354). -/
def State.voidWindow (s : State) (f : Nat) : State := s.setPhaseFeed f { s.phaseFeed f with void := true }

def State.meterRuns (s : State) (f : Nat) : Bool := s.bit (MTR_FEED_STAT_RUN f)

/-- The internal pattern drives feed `f` (R582). -/
def State.pattern (s : State) (f : Nat) : Bool := bitB (s.reg LBK_MPG_CTRL) f

/-- The nominal frequency and period (R394). -/
def State.fnom (s : State) (f : Nat) : Nat := if s.bit (MTR_FEED_CFG_FNOM f) then 60 else 50
def State.nominal (s : State) (f : Nat) : Nat := unitSec / s.fnom f

/-- The period of the modulator clock: the driven one, or what the latest whole second counted (R392). -/
def State.modClock (s : State) (f : Nat) : Nat :=
  if s.bit (MTR_FEED_CFG_CLK_DIR f) ∧ (s.feed f).clocks ≠ 0 then unitSec / (s.feed f).clocks
  else s.fld (MTR_FEED_CFG_CLK_DIV f) * 5 * unitNs

/-- Fields of the KIND 3 record in force (R410). -/
def MeterFeed.vMin (x : MeterFeed) : Nat := leAt x.thr 0 4
def MeterFeed.seqCyc (x : MeterFeed) : Nat := leAt x.thr 4 2
def MeterFeed.neuCyc (x : MeterFeed) : Nat := leAt x.thr 6 2
def MeterFeed.neuV (x : MeterFeed) : Nat := leAt x.thr 8 4
def MeterFeed.neuFrac (x : MeterFeed) : Nat := leAt x.thr 12 2
def MeterFeed.neuIMin (x : MeterFeed) : Nat := leAt x.thr 16 4

/-- A metering event (R419). -/
def State.meterEvent (s : State) (typ f : Nat) (fs : List (Nat × Nat × Nat)) : State :=
  s.postNow typ 5 f ((16, 4, s.reg64 (MTR_LATCH_CNT f) % 2 ^ 32) :: fs)

def State.tick32 (s : State) : Nat := s.tickNo % 2 ^ 32

/-! ### Corrections (R400, R401) -/

/-- The record of channel `c` in force; identity when none was loaded. -/
def identityRec (c : Nat) : List Byte := leBytes 1 c ++ List.replicate 127 0
def MeterFeed.record (x : MeterFeed) (c : Nat) : List Byte := sget identityRec x.recs c
def recOffset (r : List Byte) : Int := sext 32 (leAt r 8 4)
def recX (r : List Byte) (i : Nat) : Nat := leAt r (16 + 12 * i) 4
def recG (r : List Byte) (i : Nat) : Nat := leAt r (20 + 12 * i) 4
def recD (r : List Byte) (i : Nat) : Int := sext 32 (leAt r (24 + 12 * i) 4)

/-- The gain that a record gives at level `l` (R401). -/
def gainAt (r : List Byte) (l : Nat) : Nat :=
  let n := byteAt r 1
  if n = 0 then 0x40000000
  else if l ≤ recX r 0 then recG r 0
  else if recX r (n - 1) ≤ l then recG r (n - 1)
  else
    match (List.range (n - 1)).find? fun i => decide (recX r i ≤ l ∧ l < recX r (i + 1)) with
    | none => recG r 0
    | some i =>
      let a : Int := recG r i
      (a + rheI (((recG r (i + 1) : Int) - a) * ((l - recX r i : Nat) : Int)) (recX r (i + 1) - recX r i)).toNat

/-- A code after OFFSET and FS, in units of 2^-23 (R401). -/
def MeterFeed.plain (x : MeterFeed) (c : Nat) (code : Int) : Int := (code - recOffset (x.record c)) * ((x.fs.getD c 0 : Nat) : Int)

/-- A code as a value in units of 2^-53 mV or mA; a channel that is not enabled reads 0. -/
def MeterFeed.scaled (x : MeterFeed) (en c : Nat) (code : Int) : Int :=
  if bitB en c then x.plain c code * ((x.gains.getD c 0 : Nat) : Int) else 0

/-- The gains of a cycle from the levels of the one before. -/
def MeterFeed.regain (x : MeterFeed) : MeterFeed :=
  { x with gains := (List.range 7).map fun c => gainAt (x.record c) (x.levels.getD c 0) }

/-! ### Energy (R407) -/

/-- Add `p`, in µW or µvar, to accumulator `a` of phase `ph`. -/
def MeterFeed.addEnergy (x : MeterFeed) (ph a : Nat) (p : Int) : MeterFeed :=
  let k := 6 * ph + a
  let num := p.natAbs * 4096 + sget zeroNat x.rem k
  { x with e := sput zeroNat x.e k ((sget zeroNat x.e k + num / 36000000000) % 2 ^ 64), rem := sput zeroNat x.rem k (num % 36000000000) }

/-- The mean over the latest `n` points of a product, in units of 1 µW. -/
def meanOf (h : List MeterPoint) (n : Nat) (g : MeterPoint → Int) : Int :=
  let z := (h.take n).foldl (fun a x => a + g x) 0
  clampI (-(2 ^ 47)) (2 ^ 47 - 1) (rheI z (max 1 n * 2 ^ 106))

/-- Products of phase `p` in a point. -/
def MeterPoint.vi (x : MeterPoint) (p : Nat) : Int := x.v.getD p 0 * x.i.getD p 0
def MeterPoint.qi (x : MeterPoint) (p : Nat) : Int := x.q.getD p 0 * x.i.getD p 0

/-- The energy of the newest point for phase `p`. -/
def MeterFeed.energy (x : MeterFeed) (p : Nat) : MeterFeed :=
  let pb := meanOf x.hist x.lw fun y => y.vi p
  let qb := meanOf x.hist x.lw fun y => y.qi p
  let rea := if 0 ≤ pb then (if 0 ≤ qb then 2 else 5) else (if 0 ≤ qb then 3 else 4)
  (x.addEnergy p (if 0 ≤ pb then 0 else 1) pb).addEnergy p rea qb

/-! ### Sums (R405) -/

/-- Sums with one point and its neutral current. -/
def MeterSums.add (m : MeterSums) (y : MeterPoint) (n : Int) : MeterSums :=
  let ph (xs : List Int) (g : Nat → Int) : List Int := (List.range 3).map fun p => xs.getD p 0 + g p
  let u := y.v.getD 0 0 + y.v.getD 1 0 + y.v.getD 2 0
  { m with m := m.m + 1, vv := ph m.vv fun p => y.v.getD p 0 * y.v.getD p 0, ii := ph m.ii fun p => y.i.getD p 0 * y.i.getD p 0,
           vi := ph m.vi y.vi, qi := ph m.qi y.qi, nn := m.nn + n * n, uu := m.uu + u * u }

/-- A crossing enters the counts of its phase. -/
def MeterSums.cross' (m : MeterSums) (c : Nat × Nat) : MeterSums :=
  let x := m.cross.getD c.1 {}
  { m with cross := m.cross.set c.1 { n := x.n + 1, first := if x.n = 0 then c.2 else x.first, last := c.2 } }

/-- Points kept for the averages of R407 and for v90: the longest line cycle holds fewer. -/
def histMax : Nat := 512

/-- Process one sample: the point, the sums of the interval (when one is open) and of the cycle, and energy unless a pattern
drives the feed (R583). -/
def MeterFeed.addSample (en fnom : Nat) (pattern : Bool) (acc : MeterFeed × MeterSums) (r : MeterRaw) : MeterFeed × MeterSums :=
  let x := acc.1
  let val (c : Nat) : Int := x.scaled en c (r.codes.getD c 0)
  let v := (List.range 3).map val
  let q := (List.range 3).map fun p => Config.quarter fnom (v.getD p 0 :: x.hist.map fun y => y.v.getD p 0)
  let y : MeterPoint := { v := v, i := (List.range 3).map (fun p => val (3 + p)), q := q }
  let n := val 6
  let x := { x with hist := (y :: x.hist).take histMax, sums := if x.opened then x.sums.add y n else x.sums }
  (if pattern then x else ((x.energy 0).energy 1).energy 2, acc.2.add y n)

/-! ### Latches (R404 – R409) -/

/-- A KIND 0 record in its fields of MTR_FEED_CFG. -/
def kind0Word (b : List Byte) : Nat :=
  let fl := byteAt b 0
  b2n (bitB fl 0) * 2 ^ 31 + b2n (bitB fl 1) * 2 ^ 30 + b2n (bitB fl 2) * 2 ^ 29 + b2n (bitB fl 3) * 2 ^ 28 + b2n (bitB fl 4) * 2 ^ 27
    + byteAt b 5 % 2 * 2 ^ 26 + byteAt b 4 % 128 * 2 ^ 19 + byteAt b 1 % 64 * 2 ^ 9 + leAt b 2 2 % 512
def kind0Fs (b : List Byte) : List Nat := (List.range 7).map fun c => leAt b (8 + 4 * c) 4

/-- The fields whose change stops a running feed: EN, CLK_DIR, EDGE, CH_EN, CLK_DIV and OSR (R396). -/
def stopsFeed (old new : Nat) : Bool :=
  decide (bitsOf old 29 3 ≠ bitsOf new 29 3 ∨ bitsOf old 19 7 ≠ bitsOf new 19 7 ∨ bitsOf old 0 15 ≠ bitsOf new 0 15)

/-- The first whole second after now (R57). -/
def State.nextSecond (s : State) : Nat := (s.tb.now / unitSec + 1) * unitSec

/-- The feed stops (R393, R396). -/
def State.stopFeed (s : State) (f : Nat) : State :=
  ((s.clear (MTR_FEED_STAT_RUN f)).voidWindow f).abortCapture f 2

/-- New scale factors are in force: a capture on the feed ends with status 4 when they differ (R427). -/
def State.putFs (s : State) (f : Nat) (fs : List Nat) : State :=
  let s := if fs = (s.feed f).fs then s else s.abortCapture f 4
  s.setFeed f { s.feed f with fs := fs }

/-- A KIND 0 record takes effect (R396, R582); a running feed has had its forced latch. -/
def State.putKind0 (s : State) (f : Nat) (b : List Byte) : State :=
  let w := kind0Word b
  let stop := s.meterRuns f && stopsFeed (s.reg (MTR_FEED_CFG f)) w
  let s := (s.setReg (MTR_FEED_CFG f) w).putFs f (kind0Fs b)
  let en := bitB w 31
  let s := if en then s.setReg LBK_MPG_CTRL (setBits (s.reg LBK_MPG_CTRL) f 1 0) else s
  let s := if stop then s.stopFeed f else s
  if en then (if s.meterRuns f ∨ s.bit (MTR_FEED_STAT_CLK_LOST f) then s else s.setFeed f { s.feed f with startAt := some s.nextSecond })
  else if s.pattern f then s else s.setFeed f { s.feed f with startAt := none }

/-- One correction record takes effect (R401, R427). -/
def State.putRecord (s : State) (f : Nat) (r : List Byte) : State :=
  let c := byteAt r 0
  let x := s.feed f
  let s := if recOffset r = recOffset (x.record c) then s else s.abortCapture f 4
  s.setFeed f { s.feed f with recs := sput identityRec x.recs c r }

/-- A configuration takes effect (R395, R396, R402). -/
def State.putConfig (s : State) (f kind : Nat) (b : List Byte) : State :=
  match kind with
  | 0 => s.putKind0 f b
  | 1 => s.setReg (MTR_LATCH_CYC f) (leAt b 0 2)
  | 2 => (List.range (b.length / 128)).foldl (fun (s : State) i => s.putRecord f ((b.drop (128 * i)).take 128)) s
  | 3 => s.setFeed f { s.feed f with thr := b.take 24 }
  | _ => s.putFs f (kind0Fs b)

/-- RMS of a sum of squares over `m` samples (R405). -/
def rmsOf (z : Int) (m : Nat) : Nat := min 0xFFFFFFFF (rootOf z.toNat (m * 2 ^ 106))

/-- The quantities of phase `p` (R405). -/
def State.loadPhase (s : State) (f : Nat) (m : MeterSums) (p : Nat) : State :=
  let vv := (m.vv.getD p 0).toNat
  let ii := (m.ii.getD p 0).toNat
  let vi := m.vi.getD p 0
  let d := max 1 m.m * 1000 * 2 ^ 106
  let lim := clampI (-(2 ^ 31)) (2 ^ 31 - 1)
  let pf := rootOf (vi.natAbs * vi.natAbs * 2 ^ 28) (vv * ii)
  let x := m.cross.getD p {}
  let s := (s.setReg (MTR_PH_V f p) (rmsOf vv m.m)).setReg (MTR_PH_I f p) (rmsOf ii m.m)
  let s := (s.setReg (MTR_PH_P f p) (toField 32 (lim (rheI vi d)))).setReg (MTR_PH_Q f p) (toField 32 (lim (rheI (m.qi.getD p 0) d)))
  let s := s.setReg (MTR_PH_S f p) (min 0xFFFFFFFF (rootOf (vv * ii) (d * d)))
  let s := s.setFld (MTR_PH_PF_v f p) (toField 16 (clampI (-32768) 32767 (if vi < 0 then -((pf : Nat) : Int) else ((pf : Nat) : Int))))
  s.setReg (MTR_PH_F f p) (if x.n < 2 then 0 else min 0xFFFFFFFF (rhe (x.n * 1000 * unitSec) (x.last - x.first)))

/-- The energy readout of accumulator `a` of phase `p` (R408). -/
def State.loadEnergy (s : State) (f : Nat) (l : MeterLatch) (p a : Nat) : State :=
  let v := sget zeroNat l.e (6 * p + a) / 65536 % 2 ^ 32
  let x := s.feed f
  let k := 6 * p + a
  let s := if v < s.reg (MTR_PH_E f p a) then s.setFeed f { x with wraps := sput zeroNat x.wraps k (min 15 (sget zeroNat x.wraps k + 1)) } else s
  (s.setReg (MTR_PH_E f p a) v).setFld (MTR_PH_E_LATCH_LO f p a) (s.reg64 (MTR_LATCH_CNT f) % 65536)

/-- The feed total of accumulator `a` (R409). -/
def State.loadTotal (s : State) (f : Nat) (l : MeterLatch) (a : Nat) : State :=
  s.setReg64 (MTR_FEED_E f a)
    ((sget zeroNat l.e a + sget zeroNat l.e (6 + a) + sget zeroNat l.e (12 + a)) / 65536 % 2 ^ 64)

/-- The set digest of feed `f` (R429). -/
def State.setDigest (s : State) (f : Nat) : Nat :=
  let x := s.feed f
  crc64 ((x.fs.flatMap fun v => leBytes 4 v) ++ (List.range 7).flatMap fun c => x.record c)

/-- The calibration count of feed `f` after a KIND 2 set took effect at `t` (R429). -/
def State.countSet (s : State) (f t : Nat) (ok : Bool) : State :=
  let k := 4 + f
  let g := s.setDigest f
  if sget noDigest s.far.digests f = some g then s
  else
    let s := (s.bumpReg (FAR_SET_CNT k) 1).setReg64 (FAR_SET_TIME k) (secOf t % 2 ^ 48)
    let s := (s.setReg (FAR_SET_NS k) (nsOf t)).setReg64 (FAR_SET_REF k) (sget zeroNat s.far.refs f)
    let s : State := { s with far := { s.far with digests := sput noDigest s.far.digests f (some g) } }
    (s.appendLedger k ok).calSet k 0

/-- METER_LATCH: the latch that is due on feed `f` completes (R404). -/
def State.completeLatch (s : State) (f : Nat) (ok : Bool) : State :=
  match (s.feed f).latch with
  | none => s
  | some l =>
    let x := s.feed f
    let s := s.setFeed f { x with latch := none, keptE := l.e, keptRem := l.rem, keptAt := l.instant }
    let s := (List.range 3).foldl (fun (s : State) p => s.loadPhase f l.sums p) s
    let s := s.setReg (MTR_IN_RMS f) (rmsOf l.sums.nn l.sums.m)
    let s := s.setReg64 (MTR_LATCH_CNT f) (s.reg64 (MTR_LATCH_CNT f) + 1)
    let s := if s.pattern f then s else
      (List.range 6).foldl (fun (s : State) a => s.loadTotal f l a) ((List.range 18).foldl (fun (s : State) k => s.loadEnergy f l (k / 6) (k % 6)) s)
    let s := (s.setReg (MTR_LATCH_NS f) (nsOf l.instant)).setReg (MTR_LATCH_SEC_LO f) (secOf l.instant % 2 ^ 32)
    let s := s.setReg (MTR_LATCH_SEC_HI f) (secOf l.instant / 2 ^ 32 % 65536)
    let s := s.source (6 + f) (s.reg64 (MTR_LATCH_CNT f))
    let s := if l.newSet then s.countSet f l.instant ok else s
    let s := l.done.foldl (fun (s : State) d => s.done d) s
    if s.bit (MTR_FEED_CFG_LATCH_EVT f) then
      s.meterEvent 0x60 f [(20, 2, l.sums.cycles), (22, 1, b2n l.forced), (24, 4, s.reg (MTR_PH_F f (s.fld (MTR_FEED_STAT_REF f)))),
        (28, 4, s.tick32)]
    else s

/-- The interval of feed `f` closes at `t` (R404): staged configurations take effect in their order (R402). -/
def State.latchFeed (s : State) (f t : Nat) (forced : Bool) : State :=
  let s := s.completeLatch f true
  let x := s.feed f
  let fresh := x.staged.any fun c => decide (c.1 = 2)
  let l : MeterLatch := { instant := t, forced, sums := x.sums, e := x.e, rem := x.rem, newSet := fresh, done := x.staged.filterMap (fun c => c.2.1) }
  let s := s.setFeed f { x with latch := some l, sums := {}, staged := [] }
  x.staged.foldl (fun (s : State) c => s.putConfig f c.1 c.2.2) s

/-- Process the samples of the cycle in progress with stamps below `t`: the sums of those samples. -/
def State.process (s : State) (f t : Nat) : State × MeterSums × List MeterRaw :=
  let x := s.feed f
  let mine := x.raws.filter fun r => decide (r.at' < t)
  let p := mine.foldl (MeterFeed.addSample (s.fld (MTR_FEED_CFG_CH_EN f)) (s.fnom f) (s.pattern f))
    ({ x with raws := x.raws.filter (fun r => !decide (r.at' < t)) }, {})
  (s.setFeed f p.1, p.2, mine)

/-- A forced latch at `t` (R393, R396). -/
def State.forceLatch (s : State) (f t : Nat) : State :=
  let (s, _, _) := s.process f (t + 1)
  let s := s.setFeed f (let x := s.feed f; if x.opened then { x with sums := x.crossings.foldl MeterSums.cross' x.sums, crossings := [] } else x)
  if (s.feed f).opened then s.latchFeed f t true else s

/-! ### Feed events (R411 – R413) -/

/-- The turn, in units of 2^-16, from `a` to `b` in a cycle of length `n`. -/
def turnOf (a b n : Nat) : Nat := if n = 0 then 0 else ((b + n - a % n) % n) * 65536 / n

/-- Both delays lie in [lo, hi], in hundredths of a turn. -/
def bothIn (x y lo hi : Nat) : Bool :=
  decide (lo * 65536 ≤ x * 100 ∧ x * 100 ≤ hi * 65536 ∧ lo * 65536 ≤ y * 100 ∧ y * 100 ≤ hi * 65536)

/-- A cycle's phase sequence: 1 wrong, 0 right, 2 indeterminate (R411). -/
def sequenceOf (cs : List (Nat × Nat)) (len : Nat) (acb : Bool) : Nat :=
  let at' (p : Nat) : Option Nat := (cs.find? fun c => c.1 = p).map fun c => c.2
  match at' 0, at' 1, at' 2 with
  | some a, some b, some c =>
    let x := turnOf a b len
    let y := turnOf b c len
    let abc := bothIn x y 25 42
    let rev := bothIn x y 58 75
    if (if acb then rev else abc) then 0 else if (if acb then abc else rev) then 1 else 2
  | _, _, _ => 2

/-- The feed reports an event: the window of R354 is void and the flag of R413 set. -/
def State.feedEvent (s : State) (f : Nat) : State := (s.setFeed f { s.feed f with flag := true }).voidWindow f

/-- PHASE_SEQ after one more cycle of sequence `q` (R411). -/
def State.countSeq (s : State) (f q : Nat) : State :=
  let x := s.feed f
  if q = 2 then s
  else
    let x := if q = 1 then { x with wrong := x.wrong + 1, right := 0 } else { x with right := x.right + 1, wrong := 0 }
    let s := s.setFeed f x
    let bad := s.bit (MTR_FEED_STAT_SEQ_BAD f)
    if bad = false ∧ x.seqCyc ≤ x.wrong then
      (((s.raise (MTR_FEED_STAT_SEQ_BAD f)).feedEvent f).meterEvent 0x61 f [(20, 1, 1), (28, 4, s.tick32)])
    else if bad ∧ x.seqCyc ≤ x.right then
      (s.clear (MTR_FEED_STAT_SEQ_BAD f)).meterEvent 0x61 f [(20, 1, 0), (28, 4, s.tick32)]
    else s

/-- NEUTRAL_LOST after one more cycle with sums `m` (R412). -/
def State.countNeutral (s : State) (f : Nat) (m : MeterSums) : State :=
  let x := s.feed f
  let u := rmsOf m.uu m.m
  let i (p : Nat) : Int := (rmsOf (m.ii.getD p 0) m.m : Nat)
  let unb := neutralOf (i 0) (i 1) (i 2)
  let shows : Bool := decide (x.neuV ≤ u ∧ x.neuIMin ≤ unb ∧ rmsOf m.nn m.m * 65536 < x.neuFrac * unb)
  let x := if shows then { x with lost := x.lost + 1, sound := 0 } else { x with sound := x.sound + 1, lost := 0 }
  let s := s.setFeed f x
  let bad := s.bit (MTR_FEED_STAT_NEU_LOST f)
  if bad = false ∧ x.neuCyc ≤ x.lost then
    (((s.raise (MTR_FEED_STAT_NEU_LOST f)).feedEvent f).meterEvent 0x62 f [(20, 1, 1), (24, 4, u), (28, 4, s.tick32)])
  else if bad ∧ x.neuCyc ≤ x.sound then
    (s.clear (MTR_FEED_STAT_NEU_LOST f)).meterEvent 0x62 f [(20, 1, 0), (24, 4, u), (28, 4, s.tick32)]
  else s

/-! ### Line cycles (R403) -/

/-- Phase `p` reached V_MIN over a cycle with sums `m`. -/
def MeterFeed.present (x : MeterFeed) (m : MeterSums) (p : Nat) : Bool :=
  decide (0 < m.m ∧ x.vMin * x.vMin * 2 ^ 106 * m.m ≤ (m.vv.getD p 0).toNat)

/-- The level of channel `c` over the samples of a cycle (R401). -/
def MeterFeed.levelOf (x : MeterFeed) (rs : List MeterRaw) (c : Nat) : Nat :=
  rootOf (rs.foldl (fun a r => a + (x.plain c (r.codes.getD c 0) * x.plain c (r.codes.getD c 0)).natAbs) 0) (rs.length * 2 ^ 46)

/-- The capture on feed `f` takes the cycle that ends at `t` (R425 – R427). -/
def State.capCycle (s : State) (f t : Nat) (synth : Bool) (rs : List MeterRaw) : State :=
  match s.far.capture with
  | none => s
  | some c =>
    if c.feed ≠ f ∨ c.ended.isSome then s
    else
      let x := s.feed f
      let c' : Capture := match c.begun with
        | none => { c with begun := some t }
        | some _ =>
          if synth then { c with ended := some (3, t) }
          else
            let c1 : Capture := { c with done := c.done + 1, points := c.points ++ rs.map fun r =>
              (r.at', (List.range 7).map fun ch => x.plain ch (r.plain.getD ch 0)) }
            if c1.done = c1.cycles then { c1 with ended := some (0, t) } else c1
      ({ s with far := { s.far with capture := some c' } } : State).capStat c' 1

/-- The reference phase after a cycle (R403). -/
def State.moveRef (s : State) (f : Nat) (m : MeterSums) : State :=
  let x := s.feed f
  let ref := s.fld (MTR_FEED_STAT_REF f)
  if x.present m ref then s.setFeed f { x with dark := false }
  else match (List.range 3).find? fun p => x.present m p with
    | some p => (s.setFld (MTR_FEED_STAT_REF f) p).setFeed f { x with dark := false }
    | none => s.setFeed f { x with dark := true }

/-- The interval after a cycle that ended at `t`: the first boundary opens one, the Nth cycle latches (R404). -/
def State.closeCycle (s : State) (f t : Nat) (cs : List (Nat × Nat)) : State :=
  let x := s.feed f
  if x.opened = false then s.setFeed f { x with opened := true, sums := {} }
  else
    let m := cs.foldl MeterSums.cross' x.sums
    let m := { m with cycles := m.cycles + 1 }
    let s := s.setFeed f { x with sums := m }
    if s.fld (MTR_LATCH_CYC_v f) ≤ m.cycles then s.latchFeed f t false else s

/-- A line cycle of feed `f` ends at `t` (R403). -/
def State.endCycle (s : State) (f t : Nat) (synth : Bool) : State :=
  let start := (s.feed f).boundary
  let (s, m, rs) := s.process f t
  let x := s.feed f
  let cs := x.crossings.filter fun c => decide (c.2 < t)
  let x := { x with crossings := (x.crossings.filter fun c => !decide (c.2 < t)), boundary := t, due := none,
                    lw := if synth then rhe 16000 (s.fnom f) else m.m,
                    levels := if rs = [] then x.levels else (List.range 7).map fun c => x.levelOf rs c }
  let s := s.setFeed f x
  let all := x.present m 0 && x.present m 1 && x.present m 2
  let s := s.capCycle f t synth rs
  let s := s.moveRef f m
  let s := s.setFld (MTR_FEED_STAT_SYNTH f) (b2n synth)
  let s := if synth then s.bumpReg (MTR_SYNTH_CNT f) 1 else s
  let s := if all && !synth then
      (s.countSeq f (sequenceOf cs (t - start) (s.bit (MTR_FEED_CFG_SEQ_ACB f)))).countNeutral f m
    else s
  let s := s.closeCycle f t cs
  s.setFeed f (s.feed f).regain

/-- LINE_CYCLE_END of feed `f`. -/
def State.lineCycle (s : State) (f : Nat) : State :=
  if s.meterRuns f = false then s
  else
    let x := s.feed f
    match x.due with
    | some t => (s.runTo t).endCycle f t false
    | none =>
      let t := x.boundary + s.nominal f
      let limit := if x.dark then t else x.boundary + 3 * s.nominal f / 2
      (s.runTo limit).endCycle f t true

/-! ### Samples (R397, R398) -/

/-- A sample of phase `p` meets the crossing detector (R403): the detector, and the crossing that it confirms. -/
def CrossDet.step (d : CrossDet) (h : Nat) (t : Nat) (v : Int) : CrossDet × Option Nat :=
  let low := decide (v * 50 < -((h * 2 ^ 53 : Nat) : Int))
  let armed := d.armed || low
  let cand := if low then none
    else match d.last with
      | some (t0, v0) => if v0 < 0 ∧ 0 ≤ v ∧ armed then some (t0 + (t - t0) * v0.natAbs / (v - v0).natAbs) else d.cand
      | none => d.cand
  if armed && cand.isSome && decide (((h * 2 ^ 53 : Nat) : Int) ≤ v * 50) then ({ armed := false, cand := none, last := some (t, v) }, cand)
  else ({ armed := armed, cand := cand, last := some (t, v) }, none)

/-- A crossing of phase `p` at `c`: one on the reference phase between 0.7 and 1.4 nominal periods ends the cycle. -/
def State.crossing (s : State) (f p c : Nat) : State :=
  let x := s.feed f
  let n := s.nominal f
  let x := { x with crossings := x.crossings ++ [(p, c)] }
  let ends := !x.dark && x.due.isNone && decide (p = s.fld (MTR_FEED_STAT_REF f) ∧ 7 * n ≤ (c - x.boundary) * 10 ∧ (c - x.boundary) * 10 ≤ 14 * n)
  s.setFeed f (if ends then { x with due := some c } else x)

/-- Phase `p` of a metering sample at `t` with code `code`. -/
def State.detect (s : State) (f t : Nat) (codes : List Int) (p : Nat) : State :=
  let x := s.feed f
  let r := (x.dets.getD p {}).step x.vMin t (x.scaled (s.fld (MTR_FEED_CFG_CH_EN f)) p (codes.getD p 0))
  let s := s.setFeed f { x with dets := x.dets.set p r.1 }
  match r.2 with | none => s | some c => s.crossing f p c

/-- CLIP bits of channels whose code reached full scale. -/
def State.clip (s : State) (f : Nat) (codes : List Int) : State :=
  (List.range 7).foldl (fun (s : State) c =>
    let v := codes.getD c 0
    if v ≤ -8388608 ∨ 8388607 ≤ v then s.setFld (MTR_FEED_STAT_CLIP f) (setBits (s.fld (MTR_FEED_STAT_CLIP f)) c 1 1) else s) s

/-- METER_GAP at the first metering sample of the first run (R417). -/
def State.meterGap (s : State) (f t : Nat) : State :=
  let x := s.feed f
  if x.ran then s
  else
    let s := s.setFeed f { x with ran := true }
    s.meterEvent 0x63 f [(20, 1, x.gapCause), (24, 4, min 0xFFFFFFFF ((t - x.gapFrom) / unitMs)), (28, 4, secOf x.gapFrom % 2 ^ 32)]

/-- One metering instant. -/
def meterStep : Nat := 62500 * unitNs

/-- A sample of the metering path: the codes at t_k + D_c and those at t_k (R398, R425). -/
def State.meterSample (s : State) (f : Nat) (codes plain : List Int) : State :=
  let x := s.feed f
  let k := match x.lastK with | none => cdiv x.runSince meterStep | some k => max (k + 1) (s.tb.now / meterStep)
  let t := k * meterStep
  let s := (s.runTo t).clip f codes
  let s := s.setFeed f { s.feed f with lastK := some k, raws := x.raws ++ [{ at' := t, codes := codes, plain := plain }] }
  (List.range 3).foldl (fun (s : State) p => s.detect f t codes p) (s.meterGap f t)

/-- A sample of the high-rate path, stamped at the centre of its interval (R397): it serves the tick values and the measurement
window. -/
def State.highSample (s : State) (f : Nat) (codes : List Int) : State :=
  let x := s.feed f
  let clk := s.modClock f
  let t := x.hiNext
  let osr : Int := (s.fld (MTR_FEED_CFG_OSR f) : Nat)
  let len := (osr + x.adjust).toNat
  let s := (s.runTo t).clip f codes
  let vals := (List.range 7).map fun c => x.scaled (s.fld (MTR_FEED_CFG_CH_EN f)) c (codes.getD c 0)
  let s := s.setFeed f { s.feed f with high := x.high ++ [(t, vals)], hiNext := t + (len + osr.toNat) * clk / 2, adjust := 0 }
  let y := s.phaseFeed f
  s.setPhaseFeed f { y with samples := y.samples ++ [(t, vals.drop 3)] }

/-- METERING_SAMPLE. -/
def State.sample (s : State) (f : Nat) (high : Bool) (codes plain : List Int) : State :=
  if s.meterRuns f = false then s else if high then s.highSample f codes else s.meterSample f codes plain

/-! ### Starting, the whole second, loss of the clock (R57, R393) -/

/-- METER_FEED_START: an enabled feed starts at its whole second. -/
def State.startFeed (s : State) (f : Nat) : State :=
  match (s.feed f).startAt with
  | none => s
  | some t =>
    if s.domOn 12 = false ∨ s.meterRuns f then s
    else
      let s := s.runTo t
      let x := s.feed f
      let x := { x with startAt := none, runSince := t, lastK := none, hiNext := t + s.fld (MTR_FEED_CFG_OSR f) * s.modClock f / 2, adjust := 0,
                        drift := 0, second := t, boundary := t, opened := false, raws := [], crossings := [], dets := [{}, {}, {}], due := none,
                        dark := false, hist := [], sums := {}, lw := rhe 16000 (s.fnom f) }
      (((s.setFeed f x.regain).raise (MTR_FEED_STAT_RUN f)).clear (MTR_FEED_STAT_SYNTH f)).voidWindow f

/-- METER_SECOND: the modulator clocks that the feed counted in the second just ended (R57). -/
def State.meterSecond (s : State) (f clocks : Nat) : State :=
  if s.meterRuns f = false then s
  else
    let x := s.feed f
    let t := x.second + unitSec
    let s := s.runTo t
    let want : Int := ((unitSec / s.modClock f : Nat) : Int)
    let d := if s.bit (MTR_FEED_CFG_CLK_DIR f) then 0 else x.drift + (clocks : Int) - want
    let adj : Int := if 1 < d then 1 else if d < -1 then -1 else 0
    s.setFeed f { s.feed f with second := t, clocks := clocks, drift := d - adj, adjust := adj }

/-- METER_CLOCK (R419). -/
def State.clockEvent (s : State) (f st : Nat) : State := s.meterEvent 0x65 f [(20, 1, st), (28, 4, s.tick32)]

/-- METER_CLOCK_LOST (R393): the interval closes at the instant of the last sample. -/
def State.clockLost (s : State) (f : Nat) : State :=
  if s.meterRuns f = false then s
  else
    let x := s.feed f
    let t := match x.lastK with | none => x.runSince | some k => k * meterStep
    let s := s.forceLatch f t
    ((s.raise (MTR_FEED_STAT_CLK_LOST f)).clockEvent f 1).stopFeed f

/-- METER_CLOCK_RETURN (R393). -/
def State.clockReturn (s : State) (f : Nat) : State :=
  if s.bit (MTR_FEED_STAT_CLK_LOST f) = false then s
  else
    let s := (s.clear (MTR_FEED_STAT_CLK_LOST f)).clockEvent f 0
    if s.bit (MTR_FEED_CFG_EN f) ∨ s.pattern f then s.setFeed f { s.feed f with startAt := some s.nextSecond } else s

/-! ### METER_CONFIG (R394 – R396) -/

/-- Does the byte range hold only zeros. -/
def zeros (b : List Byte) (a n : Nat) : Bool := (List.range n).all fun i => byteAt b (a + i) = 0

/-- The first offset at which a KIND 0 payload fails (R394, R395). -/
def kind0Bad (b : List Byte) : Option Nat :=
  let en := bitB (byteAt b 0) 0
  let div := byteAt b 1
  let osr := leAt b 2 2
  let fs (c : Nat) : Bool := en && bitB (byteAt b 4) c && decide (leAt b (8 + 4 * c) 4 = 0)
  leastBad ([(0, decide (31 < byteAt b 0)), (1, decide (div < 10 ∨ 40 < div)), (2, decide (osr < 64 ∨ 256 < osr)), (4, decide (127 < byteAt b 4)),
    (5, decide (1 < byteAt b 5)), (6, !zeros b 6 2), (2, en && decide (200000000 < 40000 * (div * osr)))] ++
    ((List.range 7).map fun c => (8 + 4 * c, fs c)) ++ (List.range 28).map fun i => (36 + i, decide (byteAt b (36 + i) ≠ 0)))

/-- The first offset at which a correction record fails (R400). -/
def recBad (b : List Byte) : Option Nat :=
  let n := byteAt b 1
  let point (i : Nat) : List (Nat × Bool) :=
    let o := 16 + 12 * i
    if i < n then
      [(o, decide (0 < i ∧ recX b i ≤ recX b (i - 1))), (o + 4, decide (recG b i < 0x20000000 ∨ 0x80000000 < recG b i)),
       (o + 8, decide (recD b i < -500000 ∨ 500000 < recD b i))]
    else (List.range 12).map fun j => (o + j, decide (byteAt b (o + j) ≠ 0))
  leastBad ([(0, decide (6 < byteAt b 0)), (1, decide (9 < n))] ++ ((List.range 6).map fun i => (2 + i, decide (byteAt b (2 + i) ≠ 0))) ++
    ((List.range 4).map fun i => (12 + i, decide (byteAt b (12 + i) ≠ 0))) ++ ((List.range 9).flatMap point) ++
    (List.range 4).map fun i => (124 + i, decide (byteAt b (124 + i) ≠ 0)))

/-- Record `k` of a KIND 2 payload. -/
def recAt (b : List Byte) (k : Nat) : List Byte := (b.drop (128 * k)).take 128

/-- The first offset at which a KIND 2 payload fails. -/
def kind2Bad (b : List Byte) : Option Nat :=
  let n := b.length / 128
  (List.range n).findSome? fun k =>
    match recBad (recAt b k) with
    | some o => some (128 * k + o)
    | none => if (List.range k).any (fun j => byteAt (recAt b j) 0 = byteAt (recAt b k) 0) then some (128 * k) else none

/-- The first offset at which a KIND 3 payload fails (R410). -/
def kind3Bad (b : List Byte) : Option Nat :=
  leastBad [(4, decide (leAt b 4 2 = 0 ∨ 1000 < leAt b 4 2)), (6, decide (leAt b 6 2 = 0 ∨ 1000 < leAt b 6 2)), (14, decide (byteAt b 14 ≠ 0)),
    (15, decide (byteAt b 15 ≠ 0)), (20, !zeros b 20 1), (21, !zeros b 21 1), (22, !zeros b 22 1), (23, !zeros b 23 1)]

/-- The first offset at which a payload fails. -/
def meterBad (kind : Nat) (b : List Byte) : Option Nat :=
  match kind with
  | 0 => kind0Bad b
  | 1 => leastBad [(0, decide (leAt b 0 2 = 0 ∨ 4096 < leAt b 0 2)), (2, !zeros b 2 1), (3, !zeros b 3 1), (4, !zeros b 4 1), (5, !zeros b 5 1), (6, !zeros b 6 1), (7, !zeros b 7 1)]
  | 2 => kind2Bad b
  | 3 => kind3Bad b
  | _ => none

/-- The checks of a METER_CONFIG (R395): Shuset standalone mode has feeds 0 and 1. -/
def meterChecks (s : State) (b : List Byte) : OpChecks :=
  let f := byteAt b 16
  let kind := byteAt b 17
  let len := dByteLen b
  { bad := [(1, decide ((kind = 1 ∨ kind = 2) ∧ dTickBound b = false)), (16, decide (15 < f ∨ (s.mode = 2 ∧ 1 < f))), (17, decide (3 < kind)),
      (24, match kind with
        | 0 => decide (len ≠ 64) | 1 => decide (len ≠ 8) | 2 => decide (len < 128 ∨ 896 < len ∨ len % 128 ≠ 0) | 3 => decide (len ≠ 24) | _ => false)]
    full := dTickBound b && decide (stagedMax ≤ s.stagedDescs)
    payload := fun data => (meterBad kind data).map fun o => (stBadField, 32 + o * 256) }

/-- Hold a configuration for the next latch boundary. -/
def State.holdConfig (s : State) (f kind : Nat) (d : Option Running) (data : List Byte) : State :=
  s.setFeed f { s.feed f with staged := (s.feed f).staged ++ [(kind, d, data)] }

/-- A METER_CONFIG takes effect or waits for its latch boundary (R396). -/
def State.meterEffect (s : State) (d : Running) (data : List Byte) : State :=
  let f := byteAt d.bytes 16
  let kind := byteAt d.bytes 17
  if kind ≠ 0 ∨ dTickBound d.bytes then s.holdConfig f kind (some { d with staged := dTickBound d.bytes }) data
  else
    let s : State :=
      if s.meterRuns f = false then s.putKind0 f data
      else if stopsFeed (s.reg (MTR_FEED_CFG f)) (kind0Word data) then (s.forceLatch f s.tb.now).putKind0 f data
      else (s.setReg (MTR_FEED_CFG f) (kind0Word data)).holdConfig f 4 none data
    s.done d

/-! ### Save and restore (R414 – R417) -/

/-- The feed block of a save record (R415). -/
def State.saveBlock (s : State) (f : Nat) : List Byte :=
  let x := s.feed f
  ((List.range 18).flatMap fun k => leBytes 8 (sget zeroNat x.keptE k)) ++ leBytes 4 (nsOf x.keptAt) ++ leBytes 6 (secOf x.keptAt)
    ++ ((List.range 18).flatMap fun k => leBytes 5 (sget zeroNat x.keptRem k)) ++ leBytes 4 0

/-- A save record (R415). -/
def State.saveRecord (s : State) (seq sec : Nat) : List Byte :=
  let on := (List.range 16).filter fun f => s.bit (MTR_FEED_CFG_EN f)
  let b := leBytes 4 0x5A4A4D53 ++ leBytes 2 1 ++ leBytes 2 (on.foldl (fun a f => a + 2 ^ f) 0) ++ leBytes 8 seq ++ leBytes 6 sec ++ leBytes 42 0
    ++ ((List.range 16).flatMap fun f => if f ∈ on then s.saveBlock f else leBytes 248 0) ++ leBytes 60 0
  b ++ leBytes 4 (crc32 b)

/-- The write of the record of second `sec` begins. -/
def State.startSave (s : State) (sec : Nat) : State :=
  if s.saveSects = 0 then s
  else if overSlots s.saveBase (s.saveSects * 4096) then s.raise MTR_SAVE_STAT_BAD
  else
    let r := s.mtr.ring
    let s := s.raise MTR_SAVE_STAT_BUSY
    { s with mtr := { s.mtr with ring := { r with seq := r.seq + 1, writing := some (s.saveRecord (r.seq + 1) sec) } } }

/-- METER_SAVE at the next whole multiple of MTR_SAVE_INTV; ledger entries that failed are written again (R414, R431). -/
def State.meterSave (s : State) (ok : Bool) : State :=
  if s.bit MTR_SAVE_STAT_BUSY ∨ s.domOn 12 = false then s
  else
    let n := clampN 10 3600 (s.fld MTR_SAVE_INTV_v)
    let sec := (max s.mtr.ring.lastSec (secOf s.tb.now - n) / n + 1) * n
    let s := (s.runTo (sec * unitSec)).retryLedger ok
    let s : State := { s with mtr := { s.mtr with ring := { s.mtr.ring with lastSec := sec } } }
    s.startSave sec

/-- METER_SAVE_COMPLETE (R416): 0 done, 1 erase, 2 program or 3 verify failed. -/
def State.saveComplete (s : State) (result : Nat) : State :=
  match s.mtr.ring.writing with
  | none => s
  | some b =>
    let r := s.mtr.ring
    let j := r.next
    let s := (({ s with mtr := { s.mtr with ring := { r with writing := none, next := (j + 1) % max 1 s.saveSects } } } : State)).clear MTR_SAVE_STAT_BUSY
    if result = 0 then
      ({ s with nor := { s.nor with saves := sput noSave s.nor.saves (s.saveBase / 4096 + j) b } } : State).setReg64 MTR_SAVE_SEQ r.seq
    else
      let s := s.bump MTR_SAVE_STAT_FAILS 1
      let s : State := { s with nor := { s.nor with saves := sput noSave s.nor.saves (s.saveBase / 4096 + j) [] } }
      s.postNow 0x64 0 0 [(16, 4, j), (20, 1, result - 1), (24, 4, s.fld MTR_SAVE_STAT_FAILS), (28, 4, s.tick32)]

/-- A valid save record. -/
def saveOk (b : List Byte) : Bool := decide (leAt b 0 4 = 0x5A4A4D53 ∧ leAt b 4 2 = 1 ∧ b.length = 4096 ∧ leAt b 4092 4 = crc32 (b.take 4092))

/-- The newest valid record of the ring with its sector. -/
def State.newestSave (s : State) : Option (Nat × List Byte) :=
  let all := (List.range s.saveSects).filterMap fun j =>
    let b := sget noSave s.nor.saves (s.saveBase / 4096 + j)
    if saveOk b then some (j, b) else none
  all.foldl (fun (m : Option (Nat × List Byte)) x =>
    match m with | none => some x | some y => if leAt y.2 8 8 < leAt x.2 8 8 then some x else some y) none

/-- Feed `f` takes its accumulators from a record (R417). -/
def State.restoreFeed (s : State) (rec : Option (List Byte)) (f : Nat) : State :=
  let x := s.feed f
  let zero : MeterFeed := { x with e := [], rem := [], keptE := [], keptRem := [], keptAt := 0, gapFrom := 0 }
  match rec with
  | none => s.setFeed f { zero with gapCause := 1 }
  | some b =>
    if bitB (leAt b 6 2) f = false then s.setFeed f { zero with gapCause := 2 }
    else
      let o := 64 + 248 * f
      let e := (List.range 18).foldl (fun m k => sput zeroNat m k (leAt b (o + 8 * k) 8)) []
      let r := (List.range 18).foldl (fun m k => sput zeroNat m k (leAt b (o + 154 + 5 * k) 5)) []
      let t := leAt b (o + 148) 6 * unitSec + leAt b (o + 144) 4 * unitNs
      s.setFeed f { x with e := e, rem := r, keptE := e, keptRem := r, keptAt := t, gapCause := 0, gapFrom := t }

/-- METER_RESTORE (R417): only in START, before any feed starts. -/
def State.meterRestore (s : State) : State :=
  if s.svc ≠ 0 ∨ (List.range 16).any fun f => (s.feed f).ran ∨ s.meterRuns f then s
  else
    let s : State := { s with mem := { s.mem with restored := true } }
    let s := if overSlots s.saveBase (s.saveSects * 4096) then s.raise MTR_SAVE_STAT_BAD else s
    let w := s.newestSave
    let s := (List.range 16).foldl (fun (s : State) f => s.restoreFeed (w.map fun x => x.2) f) s
    match w with
    | none => s
    | some (j, b) =>
      let seq := leAt b 8 8
      let s := (s.raise MTR_SAVE_STAT_RESTORED).setReg64 MTR_SAVE_SEQ seq
      { s with mtr := { s.mtr with ring := { s.mtr.ring with next := (j + 1) % s.saveSects, seq := seq } } }

/-! ### Reads of MTR_PH_E (R408) -/

/-- A read of the low word: it latches the high word with the wrap counter, which it clears. -/
def State.readEnergy (s : State) (f p a : Nat) : State :=
  let x := s.feed f
  let k := 6 * p + a
  let off := MTR_PH_E f p a + 4
  let s : State := { s with readLatch := sput zeroWord s.readLatch off (BitVec.ofNat 32 (setBits (s.reg off) 0 4 (sget zeroNat x.wraps k))) }
  s.setFeed f { x with wraps := sput zeroNat x.wraps k 0 }

/-! ### The values of a tick (R406, R413) -/

/-- RMS over samples of channel `c`. -/
def highRms (hs : List (Nat × List Int)) (c : Nat) : Nat := rmsOf (hs.foldl (fun a x => a + x.2.getD c 0 * x.2.getD c 0) 0) hs.length

/-- The tick values of feed `f` for the tick `[b0, b1)`. -/
def State.tickFeed (s : State) (b0 b1 f : Nat) : State :=
  let lag := 4 * s.fld (MTR_FEED_CFG_OSR f) * s.modClock f
  let x := s.feed f
  let hs := x.high.filter fun y => decide (b0 ≤ y.1 + lag ∧ y.1 + lag < b1)
  let on := s.meterRuns f && decide (x.runSince + lag ≤ b0)
  let s := s.setFeed f { x with high := x.high.filter (fun y => decide (b1 ≤ y.1 + lag)) }
  let s := (List.range 4).foldl (fun (s : State) c => s.setReg (MTR_TICK_I f c) (if on then highRms hs (3 + c) else 0)) s
  (List.range 3).foldl (fun (s : State) c => s.setReg (MTR_TICK_V f c) (if on then highRms hs c else 0)) s

/-- Feed `f` was enabled in metering throughout the tick that started at `b0`. -/
def State.metered (s : State) (b0 f : Nat) : Bool :=
  s.meterRuns f && decide ((s.feed f).runSince + 4 * s.fld (MTR_FEED_CFG_OSR f) * s.modClock f ≤ b0)

/-- What R251 takes as the metered current of feed phase `fp`: none where the feed was not enabled or reported an event. -/
def State.meterCurrent (s : State) (b0 fp : Nat) : Option Nat :=
  let f := fp / 4
  if s.metered b0 f && !(s.feed f).flag then some (s.reg (MTR_TICK_I f (fp % 4))) else none

/-- V of R242 by feed phase; absent where VNOM stands in. -/
def State.meterVolts (s : State) (b0 : Nat) (limits : Sparse Nat) : List (Nat × Nat) :=
  (List.range 64).filterMap fun fp =>
    let f := fp / 4
    let v := s.reg (MTR_TICK_V f (fp % 4))
    if fp % 4 ≠ 3 ∧ s.metered b0 f ∧ sget limitDflt limits (128 * 5 + f) ≤ 2 * v then some (fp, v) else none

/-- A new tick begins: the event flags hold what is set now (R413). -/
def State.clearFlags (s : State) : State :=
  (List.range 16).foldl (fun (s : State) f =>
    s.setFeed f { s.feed f with flag := s.bit (MTR_FEED_STAT_SEQ_BAD f) || s.bit (MTR_FEED_STAT_NEU_LOST f) }) s

/-! ### The commands -/

/-- METER_CONFIG (R394 – R396). -/
def execMeterConfig (r : Fin 32) (payload : Option (List Byte)) (s : State) : Res :=
  .next (s.runOp r.val 0x60 payload meterChecks noReserve State.meterEffect)

/-- METER_FEED_START (R57). -/
def execMeterFeedStart (feed : Fin 16) (s : State) : Res := .next (s.startFeed feed.val)

/-- METER_SECOND (R57). -/
def execMeterSecond (feed : Fin 16) (clocks : Word) (s : State) : Res := .next (s.meterSecond feed.val clocks.toNat)

/-- METER_CLOCK_LOST (R393). -/
def execMeterClockLost (feed : Fin 16) (s : State) : Res := .next (s.clockLost feed.val)

/-- METER_CLOCK_RETURN (R393). -/
def execMeterClockReturn (feed : Fin 16) (s : State) : Res := .next (s.clockReturn feed.val)

/-- LINE_CYCLE_END (R403). -/
def execLineCycleEnd (feed : Fin 16) (s : State) : Res := .next (s.lineCycle feed.val)

/-- METER_LATCH (R404): `ledgerOk` tells whether a ledger entry can be written. -/
def execMeterLatch (feed : Fin 16) (ledgerOk : Bool) (s : State) : Res := .next (s.completeLatch feed.val ledgerOk)

/-- METER_MTR_PH_E_READ (R408). -/
def execMeterMtrPhERead (feed : Fin 16) (p : Fin 3) (a : Fin 6) (s : State) : Res :=
  .next (s.onRead (MTR_PH_E feed.val p.val a.val) (s.readEnergy feed.val p.val a.val) (s.reg (MTR_PH_E feed.val p.val a.val)))

/-- METER_SAVE (R414). -/
def execMeterSave (ledgerOk : Bool) (s : State) : Res := .next (s.meterSave ledgerOk)

/-- METER_SAVE_COMPLETE (R416). -/
def execMeterSaveComplete (result : Fin 4) (s : State) : Res := .next (s.saveComplete result.val)

/-- METER_RESTORE (R417). -/
def execMeterRestore (s : State) : Res := .next s.meterRestore

/-- METERING_SAMPLE (R397, R398, R407): the seven codes of a sample, and for the metering path those taken without D (R425). -/
def execMeteringSample (feed : Fin 16) (high : Bool) (codes plain : List (BitVec 24)) (s : State) : Res :=
  .next (s.sample feed.val high (codes.map fun x => x.toInt) (plain.map fun x => x.toInt))

end Sys2Proof.Machine
end

