-- ==== Sys2Proof/Machine/Phase.lean ====
section
/-! DEFINITION. The phase planner (13_phase_planner.md): the feed map, frame phasors, measurement windows, plans, their switch
and PHASE_POLICY. -/

namespace Sys2Proof.Machine

/-! ### Phasors in units of 2^-16 mA -/

def cAdd (a b : Int × Int) : Int × Int := (a.1 + b.1, a.2 + b.2)
def cSub (a b : Int × Int) : Int × Int := (a.1 - b.1, a.2 - b.2)
def cSq (a : Int × Int) : Nat := (a.1 * a.1 + a.2 * a.2).toNat
def zeroC (_ : Nat) : Int × Int := (0, 0)

/-- Magnitude in mA. -/
def cMag (a : Int × Int) : Nat := min 0xFFFFFFFF (rootOf (cSq a) (2 ^ 32))

/-- The phasor of channels (weight in thirds of 1 mA, drive value, offset); channels without weight or drive add nothing. -/
def phasorOf (h : Nat) (xs : List (Nat × Nat × Nat)) : Int × Int :=
  let ys := xs.filter fun x => decide (x.1 ≠ 0 ∧ x.2.1 ≠ 0)
  if ys = [] then (0, 0) else Config.phasor h ys

/-! ### The feed map (R349, R350) -/

/-- The weights of component `c` of an endpoint on feed `f`, by phase, in thirds of 1 mA. -/
def Inputs.weights (x : Inputs) (attr c f : Nat) : List Nat :=
  let m := sget modelDflt x.models (attrModel attr)
  let p := leAt m (8 + 2 * c) 2 * 2 ^ (byteAt m 6 % 16)
  (List.range 3).map fun k =>
    let a := rhe p (x.volt (4 * f + k))
    if attrPh attr = 3 then a else if attrPh attr = k then 3 * a else 0

/-- The endpoint can carry a plannable channel. -/
def plannableEp (attr : Nat) : Bool := !attrUnfed attr && decide (attrModel attr ≠ 0)

/-- The load of local channel `ch` under the frame presented. -/
def State.localLoad (s : State) (f : Frame) (ch : Nat) : Option PhaseLoad :=
  let cfg := sget zeroNat f.inputs.drive ch
  let c := bitsOf cfg 23 3
  match entryAt f.inputs.blocks (bitsOf cfg 0 23) with
  | none => none
  | some x =>
    if x.comp ≤ c then none
    else some { feed := bitsOf cfg 26 4, ch := ch, value := if bitB cfg 31 then (s.chan ch).value else 0,
                weights := f.inputs.weights x.attr c (bitsOf cfg 26 4),
                plannable := bitB cfg 31 && plannableEp x.attr && decide (s.ladder ch ≠ ldRetired) }

/-- The loads of node `n` with locator `l`. -/
def State.nodeLoads (s : State) (f : Frame) (n : Nat) (l : Locator) : List PhaseLoad :=
  let feed := match entryAt f.inputs.blocks l.first with | some x => attrFeed x.attr | none => 0
  let cs := nodeChannels f.inputs.blocks l
  (List.range cs.length).filterMap fun k =>
    (cs[k]?).map fun y =>
      { feed := feed, node := some n, ch := k, value := sget zeroNat s.tm.shown (8 * y.1.ep + y.2), weights := f.inputs.weights y.1.attr y.2 feed,
        plannable := plannableEp y.1.attr && decide ((n, k) ∉ s.drv.nodes ∧ 2 ≤ (s.node n).level) }

/-- Every channel of the frame presented. -/
def State.loadsOf (s : State) (f : Frame) : List PhaseLoad :=
  (chans.filterMap fun ch => s.localLoad f ch) ++ f.locs.flatMap fun kv => kv.2.2.flatMap fun x => s.nodeLoads f x.1 x.2

def ruleDflt (_ : Nat) : NodePhase := {}
def noRule (_ : Nat) : Option NodePhase := none

/-- The offset in force of a channel (R350, R360); a level-1 node runs at 0 (R299). -/
def State.offsetOf (s : State) (l : PhaseLoad) : Nat :=
  match l.node with
  | none => s.fld (DRV_CH_STAT_PHASE l.ch)
  | some n =>
    if (s.node n).level < 2 then 0
    else
      let r := sget ruleDflt s.php.rules n
      (r.base + l.ch * r.step) % 256

/-- The frame phasor of phase `p` of feed `f` (R351); no channel loads the neutral. -/
def State.framePhasor (s : State) (f p h : Nat) : Int × Int :=
  phasorOf h ((s.php.loads.filter fun l => decide (l.feed = f)).map fun l => (l.weights.getD p 0, l.value, s.offsetOf l))

/-! ### Measurement windows (R352 – R355) -/

/-- PHP_WIN. -/
def State.phWin (s : State) : Nat := max 16 (s.fld PHP_WIN_v)

/-- The harmonic can be measured (R353). -/
def State.measurableAt (s : State) (f h : Nat) : Bool :=
  let p := (s.pwm f).span
  decide (5 * h * (s.fld (MTR_FEED_CFG_OSR f) * s.modClock f) < 2 * p)

/-- The instant is within the window in progress. -/
def State.inWindow (s : State) (f t : Nat) : Bool :=
  match (s.phaseFeed f).window with
  | none => false
  | some k => decide (k * (s.pwm f).span ≤ t ∧ t < (k + s.phWin) * (s.pwm f).span)

/-- The phasors of the frame presented at this boundary join the window in progress (R351). -/
def State.addPhasors (s : State) (f : Nat) : State :=
  if s.inWindow f s.tick.begin = false then s
  else
    let x := s.phaseFeed f
    let add (m : Sparse (Int × Int)) (k : Nat) : Sparse (Int × Int) := sput zeroC m k (cAdd (sget zeroC m k) (s.framePhasor f (k / 2) (k % 2 + 1)))
    s.setPhaseFeed f { x with frames := x.frames + 1, sums := (List.range 6).foldl add x.sums }

/-- The frame presented at a boundary sets the loads; a node on a feed whose policy is off takes offset 0 (R362). -/
def State.presentPhase (s : State) (f : Frame) : State :=
  let s : State := { s with php := { s.php with loads := s.loadsOf f } }
  let stay (kv : Nat × NodePhase) : Bool :=
    match s.php.loads.find? fun l => decide (l.node = some kv.1) with
    | none => true
    | some l => decide (l.feed = kv.2.feed ∨ s.fld (PHP_FEED_STAT_MODE l.feed) ≠ 2)
  let s : State := { s with php := { s.php with rules := s.php.rules.filter stay } }
  (List.range 16).foldl (fun (s : State) k => s.addPhasors k) s

/-- The window prediction: the mean of its frame phasors; without a frame in the window no rule gives one. -/
def State.windowMean (s : State) (f k : Nat) : State × (Int × Int) :=
  let x := s.phaseFeed f
  let z := sget zeroC x.sums k
  if x.frames = 0 then
    let a := sext 48 (s.freeVal (2 ^ 48))
    let s := s.drew
    (s.drew, (a, sext 48 (s.freeVal (2 ^ 48))))
  else (s, (rheI z.1 x.frames, rheI z.2 x.frames))

/-- A plan of feed `f` is due (R356); one that is rate-limited is held while the next boundary comes too early (R357). -/
def State.planDue (s : State) (f : Nat) (free : Bool) : State :=
  if s.fld (PHP_FEED_STAT_MODE f) ≠ 0 ∨ s.follows then s
  else
    let x := s.phaseFeed f
    let early : Bool := match x.planned with | some t => decide (s.tick.next < t + unitSec) | none => false
    let s := s.setPhaseFeed f { x with due := true, free := x.free || free }
    if !(x.free || free) && early then s.raise (PHP_FEED_STAT_HELD f) else s

/-- One conductor and harmonic of a valid window: the measured phasor and its registers, the correction phasor, and the phasor. -/
def State.measure (s : State) (f c h : Nat) : State × (Int × Int) :=
  let fp := 4 * f + c
  let x := s.phaseFeed f
  let k := 2 * c + (h - 1)
  if s.measurableAt f h = false then
    (((s.setReg (PHP_MEAS_MAG fp (h - 1)) 0).setReg (PHP_MEAS_ANG fp (h - 1)) 0).setReg (PHP_PRED_MAG fp (h - 1)) 0, (0, 0))
  else
    let p := (s.pwm f).span
    let m := Config.goertzel h [p, x.window.getD 0 * p, s.fld (MTR_FEED_CFG_OSR f), s.modClock f] (x.samples.map fun y => (y.1, y.2.getD c 0))
    let (s, pr) := if c = 3 then (s, (0, 0)) else s.windowMean f k
    let s := (s.setReg (PHP_MEAS_MAG fp (h - 1)) (cMag m)).setFld (PHP_MEAS_ANG_v fp (h - 1)) (Config.turn m % 65536)
    let s := s.setReg (PHP_PRED_MAG fp (h - 1)) (cMag pr)
    if c = 3 then (s, m)
    else
      let n := max 1 (s.fld PHP_CORR_N_v)
      let c0 := sget zeroC x.corr k
      let e := cSub (cSub m pr) c0
      let c1 := (c0.1 + rheI e.1 n, c0.2 + rheI e.2 n)
      let s := if s.follows then s else s.setPhaseFeed f { s.phaseFeed f with corr := sput zeroC x.corr k c1 }
      (s.setReg (PHP_CORR_MAG fp (h - 1)) (cMag (sget zeroC (s.phaseFeed f).corr k)), m)

/-- The target of harmonic `h`, in mA. -/
def State.target (s : State) (f h : Nat) : Nat := 10 * s.fld (if h = 1 then PHP_FEED_TGT_T1 f else PHP_FEED_TGT_T2 f)

/-- One phasor of a valid window (0 – 7: component and harmonic) and the first one beyond its target so far. -/
def State.windowPart (f : Nat) (acc : State × Option (Nat × Nat × Nat)) (i : Nat) : State × Option (Nat × Nat × Nat) :=
  let c := i / 2
  let h := i % 2 + 1
  let r := acc.1.measure f c h
  let t := acc.1.target f h
  let beyond : Bool := decide (c < 3 ∧ t ≠ 0 ∧ (t * 65536) * (t * 65536) < cSq r.2)
  (r.1, if beyond && acc.2.isNone then some (c, h, cMag r.2) else acc.2)

/-- A valid window: every phasor, then the trigger of R356 and PHASE_RIPPLE (R366) on the first phasor beyond its target. -/
def State.validWindow (s : State) (f : Nat) : State :=
  let r := (List.range 8).foldl (State.windowPart f) (s, none)
  let s := r.1
  match r.2 with
  | none => s.setPhaseFeed f { s.phaseFeed f with ripple := false }
  | some (c, h, m) =>
    let s := if (s.phaseFeed f).ripple then s
      else s.postNow 0x45 0 0 [(16, 1, f), (17, 1, c), (18, 1, h), (20, 4, m), (24, 4, s.target f h), (28, 4, s.tick32)]
    (s.setPhaseFeed f { s.phaseFeed f with ripple := true }).planDue f false

/-- The window that begins at grid index `k`. -/
def State.openWindow (s : State) (f k : Nat) : State :=
  s.setPhaseFeed f { s.phaseFeed f with window := some k, void := false, samples := [], frames := 0, sums := [] }

/-- MEASUREMENT_WINDOW_END of feed `f`: a window that is void, that was not followed from its start, or during which ticks or the
feed did not run only counts (R354). -/
def State.windowEnd (s : State) (f : Nat) : State :=
  let w := s.phWin
  let p := (s.pwm f).span
  let x := s.phaseFeed f
  let k := match x.window with | some k => k | none => s.tb.now / p / w * w
  let t := (k + w) * p
  let s := s.runTo t
  let x := { x with samples := x.samples.filter (fun y => decide (k * p ≤ y.1 ∧ y.1 < t)) }
  let s := s.setPhaseFeed f x
  let bad := x.window.isNone || x.void || decide (k % w ≠ 0) || !s.tick.running || !s.meterRuns f || (s.feed f).flag
  let s := if bad then s.bumpReg PHP_VOID 1 else s.validWindow f
  s.openWindow f (max (k + w) (s.tb.now / p / w * w))

/-! ### Plans (R357 – R363) -/

/-- The body of a phase-offset record (R360). -/
def phaseRecord (n eff : Nat) (r : NodePhase) : List Byte :=
  planRecord 3 eff (leBytes 4 n ++ leBytes 1 r.base ++ leBytes 1 r.step ++ leBytes 2 0 ++ leBytes 4 r.plan ++ leBytes 1 r.feed ++ leBytes 3 0)

/-- Queue the record of node `n` to a node of level 2 or above that has been seen. -/
def State.sendPhase (s : State) (n : Nat) (r : NodePhase) : State :=
  if (s.node n).seen ∧ 2 ≤ (s.node n).level ∧ s.transmits then s.queuePlan (s.node n).port n (phaseRecord n (r.switch % 2 ^ 32) r) else s

/-- The announcements of a tick, before the switch boundary of each (R360). -/
def State.announcePhases (s : State) : State :=
  s.php.coming.foldl (fun (s : State) kv => match kv.2 with | some r => s.sendPhase kv.1 r | none => s) s

/-- The records sent with a locator refresh. -/
def State.refreshPhases (s : State) : State := s.php.rules.foldl (fun (s : State) kv => s.sendPhase kv.1 kv.2) s

/-- A plan is put in force at boundary `b` (R359): it switches d boundaries later, and PHASE_PLAN is posted (R366).  The frame
latched here has no drive values yet, so no rule gives its phasor. -/
def State.putPlan (s : State) (p : PhasePlan) : State :=
  let id := (s.php.planId + 1) % 2 ^ 32
  let p := { p with id := id }
  let x := p.boundary + s.depth
  let mark (m : Sparse (Option NodePhase)) (n : Nat × Nat × Nat) : Sparse (Option NodePhase) :=
    sput noRule m n.1 (some { plan := id, feed := p.feed, base := n.2.1, step := n.2.2, switch := x })
  let s : State := { s with php := { s.php with planId := id, switching := s.php.switching ++ [p], coming := p.nodes.foldl mark s.php.coming } }
  let s := s.setReg (PHP_FEED_LAST p.feed) (p.boundary % 2 ^ 32)
  let s := if p.source = 0 then s.setPhaseFeed p.feed { s.phaseFeed p.feed with planned := some s.tick.begin } else s
  (s.postNow 0x44 0 0 [(16, 1, p.feed), (17, 1, p.source), (20, 4, id), (24, 4, s.freeVal (2 ^ 32)), (28, 4, s.tick32)]).drew

/-- A plan switches (R359): local offsets, node rules, PHP_FEED_PLAN; the window that holds the instant is void. -/
def State.switchPlan (s : State) (p : PhasePlan) : State :=
  let put (s : State) (c : Nat × Nat) : State := if s.fld (DRV_CH_CFG_FEED c.1) = p.feed then s.setFld (DRV_CH_STAT_PHASE c.1) c.2 else s
  let s := p.chans.foldl put s
  let rule (s : State) (n : Nat × Nat × Nat) : State :=
    let r : NodePhase := { plan := p.id, feed := p.feed, base := n.2.1, step := n.2.2, switch := p.boundary + s.depth }
    let done := match sget noRule s.php.coming n.1 with | some c => decide (c.plan = p.id) | none => false
    { s with php := { s.php with rules := sput ruleDflt s.php.rules n.1 r, coming := if done then sput noRule s.php.coming n.1 none else s.php.coming } }
  let s := p.nodes.foldl rule s
  let s := s.setReg (PHP_FEED_PLAN p.feed) p.id
  (s.setPhaseFeed p.feed { s.phaseFeed p.feed with ripple := false }).voidWindow p.feed

/-- The plans whose switch boundary has come, at boundary `b`. -/
def State.switchPlans (s : State) (b : Nat) : State :=
  let now := s.php.switching.filter fun p => decide (p.boundary + s.depth ≤ b)
  let s : State := { s with php := { s.php with switching := s.php.switching.filter fun p => !decide (p.boundary + s.depth ≤ b) } }
  now.foldl (fun (s : State) p => s.switchPlan p) s

/-- The planner plans of feed `f` that wait or are yet to switch are discarded (R362). -/
def State.dropPlans (s : State) (f : Nat) : State :=
  let gone (p : PhasePlan) : Bool := decide (p.feed = f ∧ p.source = 0)
  let ids := (s.php.switching.filter gone).map fun p => p.id
  let s := s.clear (PHP_FEED_STAT_HELD f)
  let keep (r : Nat × Option NodePhase) : Bool := match r.2 with | some c => decide (c.plan ∉ ids) | none => true
  { s with php := { s.php with waiting := s.php.waiting.filter (fun p => !gone p), switching := s.php.switching.filter (fun p => !gone p),
                               coming := s.php.coming.filter keep } }

/-- A period change of feed `f` takes effect (R354 – R356, R362). -/
def State.phasePeriod (s : State) (f : Nat) : State :=
  let s := s.dropPlans f
  let s := s.setPhaseFeed f { s.phaseFeed f with window := none, corr := [], due := false }
  s.planDue f false

/-! ### The planner's algorithm (R358) -/

/-- A planning unit: its local channel or node, and its plannable channels. -/
structure PlanUnit where
  node : Option Nat
  key : Nat
  weight : Nat
  step : Nat
  loads : List PhaseLoad
  deriving DecidableEq, Repr

/-- `a` comes before `b` in the order of units. -/
def PlanUnit.before (a b : PlanUnit) : Bool :=
  decide (b.weight < a.weight) || (decide (a.weight = b.weight) &&
    ((a.node.isNone && b.node.isSome) || (decide (a.node.isNone = b.node.isNone) && decide (a.key < b.key))))

def insertUnit (u : PlanUnit) : List PlanUnit → List PlanUnit
  | [] => [u]
  | x :: xs => if u.before x then u :: x :: xs else x :: insertUnit u xs

/-- The unit made of plannable channels. -/
def unitOf (node : Option Nat) (key : Nat) (ls : List PhaseLoad) : PlanUnit :=
  { node := node, key := key, step := 256 / max 1 ls.length % 256, loads := ls,
    weight := ls.foldl (fun a l => a + l.weights.foldl (fun b w => b + w) 0) 0 }

/-- The units of feed `f`, in their order. -/
def planUnits (loads : List PhaseLoad) (f : Nat) : List PlanUnit :=
  let ls := loads.filter fun l => decide (l.feed = f) && l.plannable
  let own := (ls.filter fun l => l.node.isNone).map fun l => unitOf none l.ch [l]
  let nodes := (ls.filterMap fun l => l.node).eraseDups.map fun n => unitOf (some n) n (ls.filter fun l => decide (l.node = some n))
  (own ++ nodes).foldr insertUnit []

/-- Eight bits in reverse order. -/
def bitrev8 (n : Nat) : Nat := (List.range 8).foldl (fun a i => a + bitsOf n i 1 * 2 ^ (7 - i)) 0

/-- The phasor of a unit at offset `o`. -/
def PlanUnit.phasor (u : PlanUnit) (o p h : Nat) : Int × Int :=
  phasorOf h (u.loads.map fun l => (l.weights.getD p 0, l.value, (o + (if u.node.isSome then l.ch * u.step else 0)) % 256))

/-- The keys (phase, h) over which J sums. -/
def planKeys (hs : List Nat) : List (Nat × Nat) := (List.range 3).flatMap fun p => hs.map fun h => (p, h)

/-- J × (T_1 × T_2)^2 for the sums `v` at the keys. -/
def planCost (t1 t2 : Nat) (v : Nat × Nat → Int × Int) (ks : List (Nat × Nat)) : Nat :=
  ks.foldl (fun a k => a + cSq (v k) * (if k.2 = 1 then t2 * t2 else t1 * t1)) 0

/-- The best offset of unit `u` with the others fixed: on a tie the present one, then the lowest. -/
def bestOffset (t1 t2 : Nat) (ks : List (Nat × Nat)) (rest : Nat × Nat → Int × Int) (u : PlanUnit) (now : Nat) : Nat :=
  let cost (o : Nat) : Nat := planCost t1 t2 (fun k => cAdd (rest k) (u.phasor o k.1 k.2)) ks
  ((List.range 256).foldl (fun (b : Nat × Nat) o => let c := cost o; if c < b.1 then (c, o) else b) (cost now, now)).2

/-- One pass over the units. -/
def planPass (t1 t2 : Nat) (ks : List (Nat × Nat)) (fixed : Nat × Nat → Int × Int) (us : List PlanUnit) (offs : List Nat) : List Nat :=
  (List.range us.length).foldl (fun offs i =>
    let rest (k : Nat × Nat) : Int × Int :=
      ((List.range us.length).filter fun j => decide (j ≠ i)).foldl (fun a j => match us[j]? with
        | some u => cAdd a (u.phasor (offs.getD j 0) k.1 k.2) | none => a) (fixed k)
    match us[i]? with
    | some u => offs.set i (bestOffset t1 t2 ks rest u (offs.getD i 0))
    | none => offs) offs

/-- The plan of feed `f` for boundary `b`. -/
def State.makePlan (s : State) (f b : Nat) : PhasePlan :=
  let us := planUnits s.php.loads f
  let ks := planKeys ([1, 2].filter fun h => s.measurableAt f h)
  let x := s.phaseFeed f
  let rest := s.php.loads.filter fun l => decide (l.feed = f) && !l.plannable
  let fixed (k : Nat × Nat) : Int × Int :=
    cAdd (sget zeroC x.corr (2 * k.1 + (k.2 - 1))) (phasorOf k.2 (rest.map fun l => (l.weights.getD k.1 0, l.value, 0)))
  let pass := planPass (s.target f 1) (s.target f 2) ks fixed us
  let offs := pass (pass ((List.range us.length).map fun i => bitrev8 (i % 256)))
  let at' := us.zip offs
  let own := s.chansOf f
  { id := 0, feed := f, source := 0, boundary := b,
    chans := own.map fun ch => (ch, match at'.find? fun u => decide (u.1.node.isNone ∧ u.1.key = ch) with | some u => u.2 | none => 0)
    nodes := at'.filterMap fun u => u.1.node.map fun n => (n, u.2, u.1.step) }

/-- The bytes of a plan in the journal (log entry 16): feed, boundary, and a record of R364 for each channel and node. -/
def PhasePlan.bytes (p : PhasePlan) : List Byte :=
  leBytes 1 p.feed ++ leBytes 8 p.boundary ++ (p.chans.flatMap fun c => leBytes 4 c.1 ++ leBytes 1 c.2 ++ leBytes 3 0)
    ++ p.nodes.flatMap fun n => leBytes 4 (2 ^ 31 + n.1) ++ leBytes 1 n.2.1 ++ leBytes 1 n.2.2 ++ leBytes 2 0

/-- The plan that a journal entry carries. -/
def planFrom (b : List Byte) : PhasePlan :=
  let rs := (List.range ((b.length - 9) / 8)).map fun k => (b.drop (9 + 8 * k)).take 8
  { id := 0, feed := leAt b 0 1, source := 0, boundary := leAt b 1 8,
    chans := (rs.filter fun r => !bitB (leAt r 0 4) 31).map fun r => (leAt r 0 4 % 64, byteAt r 4)
    nodes := (rs.filter fun r => bitB (leAt r 0 4) 31).map fun r => (leAt r 0 4 % 2 ^ 18, byteAt r 4, byteAt r 5) }

/-- The instant at which boundary `b` of the running grid falls. -/
def State.boundaryAt (s : State) (b : Nat) : Nat := s.tick.next + (b - (s.tickNo + 1)) * s.tick.period

/-- PHASE_PLAN_COMMIT: a plan that is due is computed for the first boundary that the cut-off and the rate limit permit; a unit
that follows plans nothing (R357, R363). -/
def State.commitPlan (s : State) (f : Nat) : State :=
  let x := s.phaseFeed f
  if x.due = false ∨ s.fld (PHP_FEED_STAT_MODE f) ≠ 0 ∨ s.follows ∨ s.tick.running = false then s
  else
    let b := if s.journals then s.commitTick else s.stageTick
    let early : Bool := match x.planned with | some t => decide (s.boundaryAt b < t + unitSec) | none => false
    if !x.free && early then s.raise (PHP_FEED_STAT_HELD f)
    else
      let p := s.makePlan f b
      let s := s.clear (PHP_FEED_STAT_HELD f)
      let s := s.setPhaseFeed f { x with due := false, free := false }
      let s : State := { s with php := { s.php with waiting := s.php.waiting ++ [p] } }
      s.journalItem 3 { sq := 0, bytes := [] } p.bytes

/-! ### PHASE_POLICY (R364, R365) -/

/-- A record of a fixed plan is out of range. -/
def phaseRecBad (r : List Byte) : Bool :=
  let v := leAt r 0 4
  let id := bitsOf v 0 18
  decide (bitsOf v 18 13 ≠ 0 ∨ byteAt r 6 ≠ 0 ∨ byteAt r 7 ≠ 0) || (!bitB v 31 && decide (47 < id ∨ byteAt r 5 ≠ 0))

/-- The checks of a PHASE_POLICY. -/
def phaseChecks (_ : State) (b : List Byte) : OpChecks :=
  let f := byteAt b 16
  let mode := byteAt b 17
  let t := leAt b 20 4
  let len := dByteLen b
  { bad := [(16, decide (15 < f ∧ f ≠ 0xFF)), (17, decide (2 < mode)),
      (20, decide (mode = 0 ∧ (t % 65536 = 0 ∨ t / 65536 = 0)) || decide ((mode = 1 ∨ mode = 2) ∧ t ≠ 0)),
      (24, decide ((mode = 0 ∨ mode = 2) ∧ (len ≠ 0 ∨ dHostAddr b ≠ 0)) || decide (mode = 1 ∧ (len = 0 ∨ len % 8 ≠ 0)))]
    payload := fun data =>
      match (List.range (len / 8)).find? fun k => phaseRecBad ((data.drop (8 * k)).take 8) with
      | some k => some (stBadField, 32 + 8 * k * 256)
      | none => none }

/-- The last record of a fixed plan for a key: `kind` 0 local channel, 1 node. -/
def fixedRec (recs : List Byte) (kind id : Nat) : Option (Nat × Nat) :=
  let k := recs.length / 8
  ((List.range k).reverse.find? fun i => decide (leAt recs (8 * i) 4 = kind * 2 ^ 31 + id)).map fun i => (byteAt recs (8 * i + 4), byteAt recs (8 * i + 5))

/-- The plan that MODE 1 or 2 puts in force for feed `f` (R350). -/
def State.fixedPlan (s : State) (p : PhasePolicy) (f : Nat) : PhasePlan :=
  let named := ((List.range (p.recs.length / 8)).filterMap fun i =>
    if bitB (leAt p.recs (8 * i) 4) 31 then some (leAt p.recs (8 * i) 4 % 2 ^ 18) else none)
  let known := (s.tm.nodes.filter fun kv => kv.2.seen).map fun kv => kv.1
  let nodes := ((named ++ known ++ s.php.rules.map fun kv => kv.1).eraseDups).filter fun n => decide (s.nodeFeed n = f)
  let one (n : Nat) : Nat × Nat × Nat := match fixedRec p.recs 1 n with | some r => (n, r.1, r.2) | none => (n, 0, 0)
  { id := 0, feed := f, source := p.mode, boundary := p.boundary,
    chans := (s.chansOf f).map fun ch => (ch, match fixedRec p.recs 0 ch with | some r => r.1 | none => 0)
    nodes := nodes.map one }

/-- A policy takes effect for feed `f` (R355, R356, R362). -/
def State.policyFeed (s : State) (p : PhasePolicy) (f : Nat) : State :=
  let s := s.dropPlans f
  let s := (s.setFld (PHP_FEED_STAT_MODE f) p.mode).setReg (PHP_FEED_TGT f) p.target
  let s := s.setPhaseFeed f { s.phaseFeed f with corr := [], due := false, free := false }
  if p.mode = 0 then s.planDue f true
  else
    let q := s.fixedPlan p f
    if s.tick.running then s.putPlan q else (s.putPlan q).switchPlans (q.boundary + s.depth)

/-- A policy takes effect. -/
def State.putPolicy (s : State) (p : PhasePolicy) : State :=
  (if p.feed = 0xFF then List.range 16 else [p.feed]).foldl (fun (s : State) f => s.policyFeed p f) s

/-- What the planner does at boundary `b`, at action (4): policies and plans whose boundary has come. -/
def State.phaseBoundary (s : State) (b : Nat) : State :=
  let ps := s.php.policies.filter fun p => decide (p.boundary ≤ b)
  let s : State := { s with php := { s.php with policies := s.php.policies.filter fun p => !decide (p.boundary ≤ b) } }
  let s := ps.foldl (fun (s : State) p => s.putPolicy p) s
  let qs := s.php.waiting.filter fun p => decide (p.boundary ≤ b)
  let s : State := { s with php := { s.php with waiting := s.php.waiting.filter fun p => !decide (p.boundary ≤ b) } }
  qs.foldl (fun (s : State) p => if s.fld (PHP_FEED_STAT_MODE p.feed) = 0 then s.putPlan p else s) s

/-- A PHASE_POLICY executes: its boundary is the one that it was staged for, or the next one (R359). -/
def State.phaseEffect (s : State) (d : Running) (data : List Byte) : State :=
  let b := d.bytes
  let now := s.tick.acting || !s.tick.running
  let p : PhasePolicy := { boundary := if now then s.tickNo else s.tickNo + 1, feed := byteAt b 16, mode := byteAt b 17, target := leAt b 20 4,
                           recs := if byteAt b 17 = 1 then data.take (dByteLen b) else [] }
  let s := if now then s.putPolicy p else { s with php := { s.php with policies := s.php.policies ++ [p] } }
  s.done d

/-- TK_CTRL.RUN was set: a plan is due at once under MODE 0 (R356). -/
def State.phaseStart (s : State) : State := (List.range 16).foldl (fun (s : State) f => s.planDue f true) s

/-- Every window in progress is void (R354). -/
def State.voidAll (s : State) : State := (List.range 16).foldl (fun (s : State) f => s.voidWindow f) s

/-- A new leader computes a held plan again, and its windows restart (R362). -/
def State.phaseTakeover (s : State) : State :=
  let one (s : State) (f : Nat) : State :=
    let held := s.bit (PHP_FEED_STAT_HELD f)
    s.setPhaseFeed f { s.phaseFeed f with window := none, due := (s.phaseFeed f).due || held }
  (List.range 16).foldl one s

/-! ### The commands -/

/-- PHASE_POLICY (R364). -/
def execPhasePolicy (r : Fin 32) (payload : Option (List Byte)) (s : State) : Res :=
  .next (s.runOp r.val 0x48 payload phaseChecks noReserve State.phaseEffect)

/-- MEASUREMENT_WINDOW_END (R352 – R355). -/
def execMeasurementWindowEnd (feed : Fin 16) (s : State) : Res := .next (s.windowEnd feed.val)

/-- PHASE_PLAN_COMMIT (R357, R358). -/
def execPhasePlanCommit (feed : Fin 16) (s : State) : Res := .next (s.commitPlan feed.val)

end Sys2Proof.Machine
end

