-- ==== Sys2Proof/Machine/Telemetry.lean ====
section
/-! DEFINITION. The telemetry concentrator (14_telemetry_and_herd_filter.md): TLM frames and their records, the herd filter,
silence, traffic zones, presence, and reads of the event queues. -/

namespace Sys2Proof.Machine

/-! ### The herd filter (R373 – R376) -/

/-- HERD_WINDOW. -/
def State.herdWindow (s : State) : Nat := max 1 (s.fld TLM_HERD_WIN_v)

/-- Open herds. -/
def State.herdsOpen (s : State) : Nat := (s.tlm.herds.filter fun h => !h.alone).length

def herdMax : Nat := 4096

/-- Two reports have one herd key (R373). -/
def Herd.sameKey (a b : Herd) : Bool := decide (a.typ = b.typ ∧ a.code = b.code ∧ a.subjKind = b.subjKind ∧ a.subjId = b.subjId)

/-- Offer a report: it merges, opens a herd, or is posted alone at the next close (R374, R375). -/
def State.report (s : State) (h : Herd) : State :=
  if s.tlm.herds.any (fun x => !x.alone && x.sameKey h) then
    { s with tlm := { s.tlm with herds := s.tlm.herds.map (fun x =>
        if !x.alone && x.sameKey h then { x with count := x.count + 1, lastAt := h.lastAt } else x) } }
  else if s.herdsOpen < herdMax then
    { s with tlm := { s.tlm with herds := s.tlm.herds ++ [{ h with closeAt := s.tlm.closes + s.herdWindow - 1 }] } }
  else
    ({ s with tlm := { s.tlm with herds := s.tlm.herds ++ [{ h with closeAt := s.tlm.closes, alone := true }] } } : State).bumpReg TLM_HERD_FULL 1

/-- The event of a herd (R376). -/
def Herd.event (h : Herd) : Event :=
  let own := decide (h.typ = 0x52 ∨ h.typ = 0x53)
  let key := if own then 0 else if 1 < h.count then 0xFFFFFFFF else h.seq
  { typ := h.typ, srcKind := if own then 0 else 4, srcIndex := if own then 0 else h.port, merged := decide (1 < h.count), reporters := h.count,
    ns := nsOf h.firstAt, sec := secOf h.firstAt % 2 ^ 32,
    payload := evPayload [(16, 4, key), (20, 4, h.subjId), (24, 1, h.subjKind), (25, 1, h.code), (26, 3, h.node),
      (29, 3, min 0xFFFFFF ((h.lastAt - h.firstAt) / (4000 * unitNs)))] }

/-- `a` is posted before `b` (R380). -/
def Herd.before (a b : Herd) : Bool := decide (a.firstAt < b.firstAt ∨ (a.firstAt = b.firstAt ∧ a.subjId < b.subjId))

def insertHerd (h : Herd) : List Herd → List Herd
  | [] => [h]
  | x :: xs => if x.before h then x :: insertHerd h xs else h :: x :: xs

/-- The herds that close now post their events; the first telemetry close after RUN was set closes all (R374, R378). -/
def State.closeHerds (s : State) : State :=
  let n := s.tlm.closes
  let closes (h : Herd) : Bool := h.alone || s.tlm.flush || decide (h.closeAt ≤ n)
  let go := (s.tlm.herds.filter closes).foldr insertHerd []
  let s : State := { s with tlm := { s.tlm with herds := s.tlm.herds.filter (fun h => !closes h), flush := false, closes := n + 1 } }
  go.foldl (fun (s : State) h => s.post h.event) s

/-! ### Silence (R372) -/

/-- A silence or a return of node `n` at a close. -/
def State.silenceReport (s : State) (typ n : Nat) : State :=
  s.report { typ := typ, code := 0, subjKind := 5, subjId := (s.node n).port, port := (s.node n).port, node := n, seq := 0,
             firstAt := s.tb.now, lastAt := s.tb.now, closeAt := 0 }

/-- Silences and returns of every node that has been seen, at a close. -/
def State.closeSilence (s : State) : State :=
  let lim := s.fld TLM_SILENT_MS_v
  let one (s : State) (n : Nat) : State :=
    let x := s.node n
    if x.seen = false then s
    else if lim = 0 then s.setNode n { x with silent := false, back := false }
    else
      let s := if x.silent ∧ x.back then (s.setNode n { x with silent := false, back := false }).silenceReport 0x53 n else s
      let x := s.node n
      if x.silent = false ∧ lim * unitMs ≤ s.since x.heard then (s.setNode n { x with silent := true, back := false }).silenceReport 0x52 n else s
  (s.tm.nodes.map fun kv => kv.1).foldl one s

/-! ### Zones (R385) -/

def zoneDflt (_ : Nat) : Zone := {}

def State.zone (s : State) (z : Nat) : Zone := sget zoneDflt s.tlm.zones z
def State.setZone (s : State) (z : Nat) (x : Zone) : State := { s with tlm := { s.tlm with zones := sput zoneDflt s.tlm.zones z x } }

def zoneCount : Nat := 4096

/-- The rule of zone `z`; 0 for none. -/
def State.zoneRule (s : State) (z : Nat) : Nat := bitsOf (s.reg (TLM_ZONE_MAP (z / 4))) (8 * (z % 4)) 6

/-- The rule of zone `z`, where one is enabled. -/
def State.ruleOn (s : State) (z : Nat) : Option Nat :=
  let r := s.zoneRule z
  if r ≠ 0 ∧ s.bit (TLM_PRES_RULE_D_EN r) then some r else none

/-- Zone `z` is active at boundary `m`. -/
def State.zoneActive (s : State) (z m : Nat) : Bool :=
  match (s.zone z).until' with | some u => decide (m ≤ u) | none => false

/-- A zone at the close of tick N: its counts may extend its activity, and a change of its state posts PRESENCE (R385, R390). -/
def State.closeZone (s : State) (z : Nat) : State :=
  let n := s.tickNo
  let x := s.zone z
  let s := s.setZone z { x with ped := 0, cyc := 0, veh := 0, pedAll := satAdd 32 x.pedAll x.ped, cycAll := satAdd 32 x.cycAll x.cyc, vehAll := satAdd 32 x.vehAll x.veh }
  match s.ruleOn z with
  | none => s
  | some r =>
    let cnt := s.fld (TLM_PRES_RULE_D_W_PED r) * x.ped + s.fld (TLM_PRES_RULE_D_W_CYC r) * x.cyc + s.fld (TLM_PRES_RULE_D_W_VEH r) * x.veh
    let s := if max 1 (s.fld (TLM_PRES_RULE_E_v r)) ≤ cnt then
        s.setZone z { s.zone z with until' := some (n + max 1 (s.fld (TLM_PRES_RULE_D_HOLD_TICKS r))) } else s
    let act := s.zoneActive z (n + 1)
    if act = x.was then s
    else
      let s := s.setZone z { s.zone z with was := act }
      s.postNow 0x5A 0 0 [(16, 2, z), (18, 1, b2n act),
        (20, 2, s.fld (if act then TLM_PRES_RULE_A_FLOOR_ACT r else TLM_PRES_RULE_A_FLOOR_IDLE r)),
        (22, 2, s.fld (if act then TLM_PRES_RULE_B_CEIL_ACT r else TLM_PRES_RULE_B_CEIL_IDLE r)), (24, 4, cnt % 2 ^ 32), (28, 4, s.tick32)]

/-- Every zone at a close. -/
def State.closeZones (s : State) : State :=
  ((s.tlm.zones.filter fun kv => decide (kv.2 ≠ {})).map fun kv => kv.1).foldl (fun (s : State) z => s.closeZone z) s

/-! ### Presence (R386 – R389) -/

/-- The presence layer, when it is usable. -/
def State.presenceLayer (s : State) : Option (Nat × Layer) :=
  let id := s.fld TLM_PRES_CTRL_LAYER
  match s.layer id with
  | some l => if l.typ = 3 ∧ 2 ≤ l.height ∧ s.bit TLM_PRES_CTRL_EN then some (id, l) else none
  | none => none

/-- One ramp of R387. -/
def rampTo (x t : Int) (up dn : Nat) : Int :=
  x + clampI (-(((if dn = 0 then 65535 else dn) : Nat) : Int)) (((if up = 0 then 65535 else up) : Nat) : Int) (t - x)

/-- The levels of zone `z` at boundary `m`. -/
def State.moveZone (s : State) (m z : Nat) : Zone :=
  let x := s.zone z
  match s.ruleOn z with
  | none => { x with ruled := false, f := 0, c := 65535, floor := 0, ceil := 65535 }
  | some r =>
    let act := s.zoneActive z m
    let i (k : Fld) : Int := (s.fld k : Nat)
    let f := if x.ruled then rampTo x.f (i (if act then TLM_PRES_RULE_A_FLOOR_ACT r else TLM_PRES_RULE_A_FLOOR_IDLE r))
        (s.fld (TLM_PRES_RULE_C_STEP_UP r)) (s.fld (TLM_PRES_RULE_C_STEP_DOWN r)) else i (TLM_PRES_RULE_A_FLOOR_IDLE r)
    let c := if x.ruled then rampTo x.c (i (if act then TLM_PRES_RULE_B_CEIL_ACT r else TLM_PRES_RULE_B_CEIL_IDLE r))
        (s.fld (TLM_PRES_RULE_C_STEP_UP r)) (s.fld (TLM_PRES_RULE_C_STEP_DOWN r)) else i (TLM_PRES_RULE_B_CEIL_IDLE r)
    { x with ruled := true, f := f, c := c, floor := (min f c).toNat, ceil := c.toNat }

/-- A presence record (R389). -/
def presenceRecord (z : Nat) (x : Zone) : List Byte :=
  planRecord 4 0 (leBytes 2 z ++ leBytes 2 0 ++ leBytes 2 x.floor ++ leBytes 2 x.ceil)

/-- One PLAN frame with the records of zones `zs` to the level-3 nodes of every trace port. -/
def State.sendPresence (s : State) (zs : List Nat) : State :=
  if zs = [] ∨ s.transmits = false then s
  else
    let body := zs.flatMap fun z => presenceRecord z (s.zone z)
    let one (s : State) (p : Nat) : State :=
      let ns := (s.tm.nodes.filter fun kv => kv.2.seen && decide (kv.2.level = 3 ∧ kv.2.port = p)).map fun kv => kv.1
      match ns.head?, ns.getLast? with
      | some a, some b => s.queueMgmt p 2 { typ := 3, level := 3, first := a, count := b + 1 - a, body := body }
      | _, _ => s
    (List.range 8).foldl one s

/-- The records of every zone that the presence layer holds, with a locator refresh. -/
def State.refreshPresence (s : State) : State :=
  match s.presenceLayer with
  | none => s
  | some (_, l) => s.sendPresence (List.range (min zoneCount l.width))

/-- Write the cells of zone `z` in every component of a layer. -/
def Layer.writeZone (l : Layer) (z floor ceil : Nat) : Layer :=
  let put (m : Sparse Nat) (k : Nat) : Sparse Nat := sput zeroNat (sput zeroNat m (8 * z + k) floor) (8 * (l.width + z) + k) ceil
  { l with cells := (List.range l.format).foldl put l.cells }

/-- The presence of a boundary (R387), before the latch reads the layer; a wheeler takes the leader's cells (R388). -/
def State.presenceStep (s : State) (m : Nat) : State :=
  if s.follows then s
  else
    let s := s.setFld TLM_STATUS_PRES_BAD (b2n (s.bit TLM_PRES_CTRL_EN && s.presenceLayer.isNone))
    let s := (List.range zoneCount).foldl (fun (s : State) z => s.setZone z (s.moveZone m z)) s
    match s.presenceLayer with
    | none => s
    | some (id, l) =>
      let n := min zoneCount l.width
      let l' := (List.range n).foldl (fun (l : Layer) z => l.writeZone z (s.zone z).floor (s.zone z).ceil) l
      let changed (z : Nat) : Bool := sget zeroNat l.cells (8 * z) ≠ sget zeroNat l'.cells (8 * z)
        || sget zeroNat l.cells (8 * (l.width + z)) ≠ sget zeroNat l'.cells (8 * (l.width + z))
      if l'.cells = l.cells then s
      else (s.setLayer id (some { l' with changed := true })).sendPresence ((List.range n).filter changed)

/-! ### TLM records (R368 – R371) -/

/-- The RLEN and the least level of a record kind. -/
def kindShape (k : Nat) : Option (Nat × Nat) :=
  match k with
  | 0 => some (16, 1) | 1 => some (12, 1) | 2 => some (16, 1) | 3 => some (16, 2) | 4 => some (16, 2) | 5 => some (16, 3) | 6 => some (16, 1)
  | _ => none

/-- A FAULT record of node `n` (R370, R371). -/
def State.faultRecord (s : State) (p n seq tick : Nat) (r : List Byte) : State :=
  let k := if 4 < byteAt r 10 then 1 else byteAt r 10
  let code := byteAt r 8
  let raised := decide (byteAt r 9 ≠ 0)
  let id := if k = 0 then n * 256 + byteAt r 11 else if k = 1 then n else leAt r 12 4
  let s := s.report { typ := if raised then 0x50 else 0x51, code := code, subjKind := k, subjId := id, port := p, node := n, seq := seq,
                      firstAt := s.tb.now, lastAt := s.tb.now, closeAt := 0 }
  if code = 3 ∧ raised ∧ k = 0 then s.reportRetired n (byteAt r 11) tick else s

/-- A TRAFFIC record. -/
def State.trafficRecord (s : State) (r : List Byte) : State :=
  let z := leAt r 8 2
  if zoneCount ≤ z then s.bumpReg TLM_ZONE_BAD 1
  else
    let x := s.zone z
    let ped := leAt r 10 2
    let cyc := leAt r 12 2
    let veh := leAt r 14 2
    s.setZone z { x with ped := x.ped + ped, cyc := x.cyc + cyc, veh := x.veh + veh }

/-- One record of a TLM frame of node `n` on port `p`. -/
def State.tlmRecord (s : State) (p n seq tick : Nat) (r : List Byte) : State :=
  match byteAt r 0 with
  | 0 => s.faultRecord p n seq tick r
  | 1 => s.writeTemp n (leAt r 8 2)
  | 2 => s.cmdReply n (leAt r 8 4) (byteAt r 12)
  | 3 => s.postNow 0x58 4 p [(16, 4, seq), (20, 8, leAt r 8 8), (28, 4, n)]
  | 4 => s.postNow 0x59 4 p [(16, 4, seq), (20, 8, leAt r 8 8), (28, 4, n)]
  | 5 => s.trafficRecord r
  | _ => ((s.bumpReg TLM_NODE_LOCMISS (leAt r 8 2)).bumpReg TLM_NODE_HELD (leAt r 10 2)).bumpReg TLM_NODE_REJECT (leAt r 12 2)

/-- The records of a body from `b` on (R369); fuel bounds their number. -/
def State.tlmRecords (s : State) (p n seq tick : Nat) (b : List Byte) : Nat → State
  | 0 => s
  | k + 1 =>
    if b = [] then s
    else
      let len := leAt b 2 2
      if len < 8 ∨ b.length < len then s.bump TLM_RX_STAT_MALFORMED 1
      else
        let r := b.take len
        let fits : Bool := match kindShape (byteAt r 0) with
          | some (l, level) => decide (len = l ∧ level ≤ (s.node n).newLevel)
          | none => false
        let s := if fits then s.tlmRecord p n seq tick r else s.bump TLM_RX_STAT_MALFORMED 1
        s.tlmRecords p n seq tick (b.drop len) k

/-! ### TLM frames (R304, R367, R511, R512) -/

/-- The SESSION values under which a node may tag (R511, R512). -/
def State.tlmSessions (s : State) : List Nat := if s.follows then [s.tkr.leader, s.tkr.leaderBefore] else [s.session, s.tkr.before]

/-- The tag of a TLM frame verifies. -/
def State.tlmAuth (s : State) (b : List Byte) : Bool :=
  let len := leAt b 4 2
  let level := byteAt b 2 / 16
  let kid := leAt b 36 4
  let n := leAt b 8 4 % 2 ^ 18
  if leAt b 0 2 ≠ 0x5A54 ∨ bitB (leAt b 8 4) 31 = false ∨ level < 1 ∨ 3 < level ∨ len < 56 ∨ b.length < len + 16 ∨ bitB kid 31 = false then false
  else
    match s.nodeKeyOf n with
    | none => false
    | some (i, nk) =>
      decide (bitsOf kid 25 6 = i) && s.tlmSessions.any fun v =>
        decide (v % 2 ^ 25 = kid % 2 ^ 25) &&
          decide (gmac (nodeSessionKey nk v (keOf (leAt b 12 4))) ((b.drop 8).take 4 ++ (b.drop 12).take 4 ++ (b.drop 16).take 2 ++ (b.drop 6).take 2)
            (b.take len) = (b.drop len).take 16)

/-- Of two epochs the higher, modulo 2^16 (R306). -/
def epochMax (a b : Nat) : Nat := if (b + 65536 - a) % 65536 < 32768 then b else a

/-- The highest EPOCH of the TLM frames accepted (R444). -/
def State.hearEpoch (s : State) (e : Nat) : State :=
  { s with tdm := { s.tdm with heard := some (match s.tdm.heard with | none => e | some h => epochMax h e) } }

/-- An accepted frame of node `n`: the node table, then its records. -/
def State.tlmAccept (s : State) (p n level seq : Nat) (b : List Byte) : State :=
  let s := s.hearEpoch (leAt b 6 2)
  let x := s.node n
  let s := if x.silent then s.setNode n { x with back := true } else s
  let s := s.hearNode n level p seq (leAt b 52 4)
  let body := (b.take (leAt b 4 2)).drop 56
  s.tlmRecords p n seq (leAt b 12 4) body body.length

/-- TLM_FRAME_RECEIVE: a trace frame `b`, from byte 0 of its message, arrives on port `p`. -/
def State.tlmReceive (s : State) (p : Nat) (b : List Byte) : State :=
  if byteAt b 2 % 16 ≠ 5 then s.bump TM_TRC_STAT_RX_OTHER 1
  else if s.tlmAuth b = false then s.bump TM_TRC_STAT_TLM_AUTH 1
  else
    let n := leAt b 8 4 % 2 ^ 18
    let seq := leAt b 48 4
    match (s.node n).seq with
    | none => s.tlmAccept p n (byteAt b 2 / 16) seq b
    | some q =>
      let d := (seq + 2 ^ 32 - q) % 2 ^ 32
      if d = 0 ∨ 2 ^ 32 - 1024 ≤ d then s.bump TLM_RX_STAT_DUP 1 else s.tlmAccept p n (byteAt b 2 / 16) seq b

/-! ### Queue reads (R383) -/

/-- The IDLE item of a read now. -/
def State.idleItem (s : State) : List Byte :=
  leBytes 1 0xFF ++ leBytes 7 0 ++ leBytes 4 (nsOf s.tb.now) ++ leBytes 4 (secOf s.tb.now % 2 ^ 32) ++ leBytes 16 0

/-- A read of TLM_EQ_RD word 0 of queue `e`. -/
def State.readQueue (s : State) (e : Nat) : State :=
  let latch (s : State) (b : List Byte) : State := s.setQueue e { s.queue e with latched := b }
  if s.bit (HIF_EQ_CTRL_EN e) then latch (s.raise TLM_STATUS_RD_EN) s.idleItem
  else
    match (s.queue e).items with
    | [] => latch s s.idleItem
    | ev :: _ => latch (s.removeHead e) (ev.bytes 0)

/-! ### The commands -/

/-- TLM_FRAME_RECEIVE (R304, R367 – R371). -/
def execTlmFrameReceive (port : Fin 8) (frame : List Byte) (s : State) : Res :=
  .next (if s.domOn 9 then s.tlmReceive port.val frame else s)

/-- EVENT_QUEUE_READ (R383). -/
def execEventQueueRead (e : Fin 8) (s : State) : Res := .next (s.onRead (TLM_EQ_RD e.val 0) (s.readQueue e.val) (leAt ((s.readQueue e.val).queue e.val).latched 0 4))

end Sys2Proof.Machine
end

