-- ==== Sys2Proof/Machine/Integrity.lean ====
section
/-! DEFINITION. Records, the error log, scrubbing, sparing and the request for NORMAL
(18_integrity_and_error_handling.md). -/

namespace Sys2Proof.Machine

/-! ### The log and the events (R488 – R490) -/

/-- The lowest rank in the log. -/
def lowestRank : List ErrRecord → Nat
  | [] => 3
  | [r] => r.sev
  | r :: rs => min r.sev (lowestRank rs)

/-- The log without the oldest entry of rank `k`. -/
def dropRank (k : Nat) : List ErrRecord → List ErrRecord
  | [] => []
  | r :: rs => if r.sev = k then rs else r :: dropRank k rs

/-- An entry enters the log (R488). -/
def State.logRecord (s : State) (r : ErrRecord) : State :=
  let r := { r with words := [], restart := false }
  if s.mem.log.length < 64 then { s with mem := { s.mem with log := s.mem.log ++ [r] } }
  else
    let k := lowestRank s.mem.log
    if k ≤ r.sev then { s with mem := { s.mem with log := dropRank k s.mem.log ++ [r] } }
    else s.bumpReg MEM_LOG_LOST 1

/-- The 48 bytes of a log entry (R489). -/
def ErrRecord.bytes (r : ErrRecord) : List Byte :=
  leBytes 1 r.sev ++ leBytes 1 r.memid ++ leBytes 1 r.kind ++ leBytes 1 r.region ++ leBytes 5 r.first ++ leBytes 1 r.flags ++
  leBytes 2 r.count ++ leBytes 5 r.last ++ leBytes 3 0 ++ leBytes 4 (nsOf r.firstAt) ++ leBytes 6 (secOf r.firstAt) ++
  leBytes 2 0 ++ leBytes 4 (nsOf r.lastAt) ++ leBytes 6 (secOf r.lastAt) ++ leBytes 2 0 ++ leBytes 4 r.tick

/-- The event of a record with TYPE `typ` and ADDR_FIRST `a` (R490). -/
def State.recordEvent (s : State) (typ : Nat) (r : ErrRecord) (a : Nat) : Event :=
  { s.event typ 0 0 [(16, 1, r.sev), (17, 1, r.memid), (18, 1, r.kind), (19, 1, r.region), (20, 5, a), (25, 1, r.flags),
      (26, 2, r.count), (28, 4, r.tick)] with ns := nsOf r.firstAt, sec := secOf r.firstAt }

def noCorrected (_ : Nat) : Corrected := {}

/-- The MEM_CORRECTED event of memory `m` when one waits and the latest is a second old (R490). -/
def State.postCorrected (s : State) (m : Nat) : State :=
  let c := sget noCorrected s.mem.summary m
  match c.waiting with
  | none => s
  | some r =>
    if (match c.posted with | some t => decide (s.tb.now < t + unitSec) | none => false) = true then s
    else
      let s : State := { s with mem := { s.mem with summary := sput noCorrected s.mem.summary m { waiting := none, posted := some s.tb.now } } }
      s.post (s.recordEvent 0x70 r r.last)

/-- Every MEM_CORRECTED that is due. -/
def State.flushCorrected (s : State) : State := s.mem.summary.foldl (fun (s : State) kv => s.postCorrected kv.1) s

/-- A closed CORRECTED record joins the event of its memory. -/
def State.sumCorrected (s : State) (r : ErrRecord) : State :=
  let c := sget noCorrected s.mem.summary r.memid
  let w := match c.waiting with
    | none => r
    | some o => { o with count := satAdd 16 o.count r.count, last := r.last, lastAt := r.lastAt }
  ({ s with mem := { s.mem with summary := sput noCorrected s.mem.summary r.memid { c with waiting := some w } } }).postCorrected r.memid

/-- The record is logged and its event posted, with `extra` set in FLAGS (R485, R487). -/
def State.fileRecord (s : State) (r : ErrRecord) (extra : Nat) : State :=
  let r := { r with flags := r.flags + extra }
  let s := s.logRecord r
  if r.sev = 0 then s.sumCorrected r else s.post (s.recordEvent (0x70 + r.sev) r r.first)

/-- A DEGRADED word joins the watch list (R479, R483), and an on-chip word is to be spared. -/
def State.watchWord (s : State) (w : Nat × Nat) : State :=
  let s : State := if 6 ≤ w.1 then { s with mem := { s.mem with sparing := s.mem.sparing ++ [w] } } else s
  if w ∈ s.mem.watch then s
  else if s.mem.watch.length < 256 then { s with mem := { s.mem with watch := s.mem.watch ++ [w] } }
  else ({ s with mem := { s.mem with watch := s.mem.watch.drop 1 ++ [w] } }).raise MEM_STATUS_WATCH_FULL

/-- The Saddle monitor closes the record in handling (R485, R486). -/
def State.closeRecord (s : State) : State :=
  match s.handling with
  | none => s
  | some (k, r) =>
    let s : State := { s with mem := { s.mem with records := sput noRecord s.mem.records k none } }
    let s := r.words.foldl State.watchWord (s.fileRecord r 0)
    if r.restart then { s with mem := { s.mem with riderDue := true } } else s

/-- A record stands in handling MEM_HDL_WDT after it opened (R486). -/
def State.handlerLate (s : State) : State :=
  match s.handling with
  | none => s
  | some (_, r) => (s.runTo (r.firstAt + s.fld MEM_HDL_WDT_v * unitUs)).deviceFault 0xFF 9 0 0

/-! ### Sparing (R478, R483) -/

/-- The row of the oldest word that waits goes to a spare row of its macro, or none is left. -/
def State.spareRow (s : State) : State :=
  match s.mem.sparing with
  | [] => s
  | (m, a) :: rest =>
    let s : State := { s with mem := { s.mem with sparing := rest } }
    let k := 65536 * m + a / 262144
    let n := sget zeroNat s.mem.spared k
    if n < 4 then
      let s : State := { s with mem := { s.mem with spared := sput zeroNat s.mem.spared k (n + 1) } }
      (s.bump (MEM_SPARE_USED m) 1).setFld (MEM_SPARE_LEFT m) (s.fld (MEM_SPARE_LEFT m) - 1)
    else s.record (s.errRecord 1 m 7 0 a 0)

/-! ### Scrubbing (R479, R480) -/

/-- Words of a pass: the DRAM that training found (0), and the on-chip memories (1). -/
def State.passWords (s : State) (k : Nat) : Nat :=
  if k = 0 then (if s.reg64 GLB_DEVREG_BASE = 0 then 0 else (s.reg64 GLB_DEVREG_BASE + devRegion) / 8)
  else (67108864 + 3670016 + 524288) / 8

/-- MEM_SCRUB_DRAM or MEM_SCRUB_SRAM in seconds. -/
def State.passPeriod (s : State) (k : Nat) : Nat := if k = 0 then s.fld MEM_SCRUB_DRAM_v else s.fld MEM_SCRUB_SRAM_v

/-- What a scrubbed word holds, as its record reports it (R489): DRAM by the map and layer regions. -/
def State.scrubbed (s : State) (w : BadWord) : BadWord :=
  let a := w.addr.toNat
  { w with holds :=
      if 5 < w.mem.val then .other
      else if s.mapBase ≤ a ∧ a < s.mapBase + s.mapSize then .mapBlock 0
      else if s.lyrBase ≤ a ∧ a < s.lyrBase + s.lyrSize then .layerTile 0
      else .other }

/-- The scrubber corrected the word. -/
def wasCorrected : WordError → Bool
  | .one => true
  | .two => true
  | .lost => false
  | .bus _ _ => false

def noPass (_ : Nat) : Nat × Nat × Nat := (0, 0, 0)

/-- MEM_SCRUB_POS for pass `k` (R479). -/
def State.showPass (s : State) (k n : Nat) : State :=
  s.setFld (if k = 0 then MEM_SCRUB_POS_DRAM_PCT else MEM_SCRUB_POS_SRAM_PCT) (100 * n / s.passWords k)

/-- The last word of pass `k` has been read (R479, R490): the next pass starts a period after this one, or now if that time has
passed. -/
def State.endPass (s : State) (k begun fixes : Nat) : State :=
  let s := s.postNow 0x75 0 0 [(16, 1, k), (20, 4, s.since begun / unitSec), (24, 4, fixes)]
  let next := max s.tb.now (begun + s.passPeriod k * unitSec)
  { s with mem := { s.mem with passes := sput noPass s.mem.passes k (next, 0, 0) } }

/-- The scrubber reads the next word of pass `k` at its even rate (R479): word n of a pass of P seconds over W words at n·P / W
from its start, or as soon after as other traffic lets it. -/
def State.scrub (s : State) (k : Nat) (err : Option BadWord) : State :=
  let words := s.passWords k
  if s.bit MEM_STATUS_INIT_DONE = false ∨ words = 0 then s
  else
    let (begun, n, fixes) := sget noPass s.mem.passes k
    let s := s.runTo (begun + n * s.passPeriod k * unitSec / words)
    let fixes := match err with | some w => if wasCorrected w.err then fixes + 1 else fixes | none => fixes
    let s := match err with | some w => s.memError (s.scrubbed w) true | none => s
    let s := s.showPass k ((n + 1) % words)
    if n + 1 < words then { s with mem := { s.mem with passes := sput noPass s.mem.passes k (begun, n + 1, fixes) } }
    else s.endPass k begun fixes

/-- The words on the watch list are read (R479). -/
def State.readWatch (s : State) (errs : List BadWord) : State :=
  (errs.filter fun w => decide ((w.mem.val, w.addr.toNat) ∈ s.mem.watch)).foldl (fun (s : State) w => s.memError (s.scrubbed w) true) s

/-! ### Service states (R491) -/

/-- The service state changes with cause code `cause` (R490, R491). -/
def State.setSvc (s : State) (new cause : Nat) : State :=
  let old := s.svc
  let s := s.setFld GLB_BOOT_SVC new
  let s : State := if new = 1 then { s with mem := { s.mem with normalAt := some s.tb.now } } else s
  s.postNow 0x74 0 0 [(16, 1, old), (17, 1, new), (18, 1, cause)]

/-- A request for NORMAL (R491): without effect in NORMAL, and refused unless every condition holds. -/
def State.requestNormal (s : State) : State :=
  if s.svc = 1 then s
  else if s.svc = 0 ∧ s.bit GLB_LOCK_v ∧ s.run ∧ s.bit MEM_STATUS_INIT_DONE ∧ s.bit HIF_STATUS_READY ∧ s.mem.restored ∧ s.mem.ledger
  then s.setSvc 1 2
  else s.raise MEM_STATUS_SVC_REFUSED

/-- Initialisation of the memories completes (R477): every word is 0 with a valid code. -/
def State.initDone (s : State) : State :=
  ({ s with mem := { s.mem with poison := [] } }).raise MEM_STATUS_INIT_DONE

/-! ### The commands -/

/-- MEMORY_INIT_DONE (R477). -/
def execMemoryInitDone (s : State) : Res := .next s.initDone

/-- SVC_REQUEST_NORMAL (R491): a write of `v` to HIF_SVC_REQ. -/
def execSvcRequestNormal (v : Word) (s : State) : Res :=
  .next (s.onBlock HIF_SVC_REQ (if bitB v.toNat 0 then s.requestNormal else s))

/-- SCRUB_STEP (R479): the next word of the on-chip or the DRAM pass and what its read met. -/
def execScrubStep (onChip : Bool) (err : Option BadWord) (s : State) : Res := .next (s.scrub (b2n onChip) err)

/-- WATCH_LIST_READ (R479): what the reads met. -/
def execWatchListRead (errs : List BadWord) (s : State) : Res := .next (s.readWatch errs)

/-- ERROR_RECORD_CLOSE (R485). -/
def execErrorRecordClose (s : State) : Res := .next s.closeRecord

/-- HANDLER_WATCHDOG_TIMEOUT (R486). -/
def execHandlerWatchdogTimeout (s : State) : Res := .next s.handlerLate

/-- ROW_SPARE (R478). -/
def execRowSpare (s : State) : Res := .next s.spareRow

end Sys2Proof.Machine
end

