-- ==== Sys2Proof/Machine/Security.lean ====
section
/-! DEFINITION. KEY_UPDATE, grace, SESSION and re-masking (19_saddle_bridle_and_tack_room.md). -/

namespace Sys2Proof.Machine

/-! ### The hierarchy of owner slots (R506) -/

/-- Debug operation is in force (R530). -/
def State.debug (s : State) : Bool := s.bit TKR_STAT_DEBUG

def ownerSlots : List Nat := (List.range 60).map fun k => k + 4

/-- The slots whose parent is `i`. -/
def State.children (s : State) (i : Nat) : List Nat :=
  ownerSlots.filter fun j => decide ((s.slot j).state ≠ slotEmpty ∧ (s.slot j).parent = some i)

/-- The descendants of slot `i`, parents before children; a chain is at most four slots deep (R506). -/
def State.under (s : State) : Nat → Nat → List Nat
  | 0, _ => []
  | n + 1, i => (s.children i).flatMap fun j => j :: s.under n j

def State.descendants (s : State) (i : Nat) : List Nat := s.under 4 i

/-- Slots in the chain from slot `i` up. -/
def State.depthOf (s : State) : Nat → Nat → Nat
  | 0, _ => 0
  | n + 1, i => 1 + (match (s.slot i).parent with | some p => s.depthOf n p | none => 0)

/-- Levels of slots beneath slot `i`. -/
def State.heightOf (s : State) : Nat → Nat → Nat
  | 0, _ => 0
  | n + 1, i => (s.children i).foldl (fun h j => max h (1 + s.heightOf n j)) 0

/-- The key of slot `i` with contents `x` (R506). -/
def State.ownerKey (s : State) (i : Nat) (x : KeySlot) : List Byte :=
  let salt := match x.parent with | some p => (s.slot p).key.bytes | none => leBytes 48 0
  hkdfExpand (hkdfExtract salt (beBytes 32 x.seed.value))
    (beBytes 16 x.label ++ leBytes 1 i ++ leBytes 4 x.gen ++ leBytes 1 (b2n s.debug)) 48

/-- Two shares of the value `v`, with a fresh random word (R528). -/
def State.share (s : State) (v : Nat) : State × Shares := (s.drew, shared (s.freeVal (2 ^ 384)) v)

/-- KEY_STATE (R534). -/
def State.postKeyState (s : State) (i old : Nat) (x : KeySlot) (left : Nat) : State :=
  s.postNow 0x79 0 0 [(16, 1, i), (17, 1, old), (18, 1, x.state), (20, 4, x.gen), (24, 4, left), (28, 4, s.tick32)]

/-- The slot changes; a change of STATE is posted. -/
def State.changeSlot (s : State) (i : Nat) (x : KeySlot) (left : Nat) : State :=
  let old := (s.slot i).state
  let s := s.setSlot i x
  if old = x.state then s else s.postKeyState i old x left

/-! ### The copies in NOR (R520) -/

/-- The newest commit record of slot `i`. -/
def State.commitOf (s : State) (i : Nat) : Option Commit := (s.tkr.commits.filter fun c => decide (c.slot = i)).getLast?

/-- The slot record goes into the copy not in force, and its commit record into the ring; not in debug operation (R531). -/
def State.storeSlot (s : State) (counter i : Nat) : State :=
  if s.debug then s
  else
    let copy := match s.commitOf i with | some c => 1 - c.copy | none => 0
    let x := s.slot i
    { s with tkr := { s.tkr with copies := sput slotDflt s.tkr.copies (2 * i + copy) x,
                                 commits := s.tkr.commits ++ [{ slot := i, copy := copy, gen := x.gen, counter := counter }] } }

/-- The commit record of an update that changes no slot. -/
def State.storeCounter (s : State) (counter : Nat) : State :=
  if s.debug then s
  else { s with tkr := { s.tkr with commits := s.tkr.commits ++ [{ slot := 0, copy := 0, gen := 0, counter := counter }] } }

/-- The update is committed (R520): TKR_CTR takes COUNTER, and KEY_COMMIT is posted. -/
def State.committed (s : State) (op i gen counter : Nat) : State :=
  (s.setReg64 TKR_CTR counter).postNow 0x78 0 0
    [(16, 1, op), (17, 1, i), (20, 4, gen), (24, 4, counter % 2 ^ 32), (28, 4, s.tick32)]

/-! ### New generations (R506, R514, R526) -/

/-- The first key epoch of a generation committed now (R514). -/
def State.newKe (s : State) : Nat := (keOf s.tickNo + s.fld TKR_KEY_LEAD_v) % 2 ^ 26

/-- The generation that a DOMAIN slot's frames use now, which it keeps until its EFF_KE (R514, R526). -/
def State.keepOld (s : State) (x : KeySlot) : Option (Nat × Shares) :=
  if x.kind ≠ 5 ∨ x.state = slotEmpty then none
  else match x.old with
    | some o => if keReached (keOf s.presTick) x.effKe then some (x.gen, x.key) else some o
    | none => some (x.gen, x.key)

/-- The nodes of the ports whose domain is slot `i`. -/
def State.domainNodes (s : State) (i : Nat) : List Nat :=
  (s.tm.nodes.filter fun kv => kv.2.seen && decide (s.namedSlot (TKR_PORT_DOM kv.2.port) = some i)).map fun kv => kv.1

/-- KEY frames of the newest generation to the nodes of domain `i` (R514). -/
def State.sendKeys (s : State) (i : Nat) : State := (s.domainNodes i).foldl State.queueKey s

/-- Slot `i` takes contents `x` with its key derived afresh: it is ACTIVE, and a DOMAIN slot changes over (R514). -/
def State.rekey (s : State) (i : Nat) (x : KeySlot) : State :=
  let before := s.slot i
  let (s, k) := s.share (beAt (s.ownerKey i x) 0 48)
  let y := { x with state := slotActive, key := k, old := s.keepOld before, effKe := s.newKe, deadline := 0, noticed := 0, silent := false }
  let s := s.changeSlot i y 0
  if y.old.isSome then s.sendKeys i else s

/-- A descendant is derived afresh, with GEN raised by `n` (R526). -/
def State.rekeyChild (n counter : Nat) (s : State) (j : Nat) : State :=
  let x := s.slot j
  (s.rekey j { x with gen := (x.gen + n) % 2 ^ 32 }).storeSlot counter j

/-! ### The KEY_UPDATE message (R517 – R519) -/

def kuOp (m : List Byte) : Nat := byteAt m 5
def kuSlot (m : List Byte) : Nat := byteAt m 6
def kuParent (m : List Byte) : Nat := byteAt m 7
def kuCounter (m : List Byte) : Nat := leAt m 8 8
def kuBytes (m : List Byte) (a n : Nat) : List Byte := (m.drop a).take n
def kuZero (m : List Byte) (a n : Nat) : Bool := zeros m a n

/-- The authority position in force: the highest-numbered programmed one (R522). -/
def State.authority (s : State) : Option (Nat × Nat) :=
  (List.range 4).foldl (fun a p => match sget (fun _ => none) s.tkr.positions p with | some (h, true) => some (p, h) | _ => a) none

/-- The next position that is neither programmed nor spoiled. -/
def State.nextPosition (s : State) : Option Nat := (List.range 4).find? fun p => (sget (fun _ => none) s.tkr.positions p).isNone

/-- TKR_STAT.AUTH_POS and IMG_STATUS.UNOWNED follow the positions (R522, R541). -/
def State.showAuthority (s : State) : State :=
  match s.authority with
  | some (p, _) => (s.setFld TKR_STAT_AUTH_POS p).setFld IMG_STATUS_UNOWNED 0
  | none => (s.setFld TKR_STAT_AUTH_POS 0).setFld IMG_STATUS_UNOWNED 1

/-- The 48 bytes of the device ID (R505): SHA-384 of the identity public key. -/
def State.identityPub (s : State) : List Byte := leBytes 1 4 ++ pointBytes (pmul 384 s.tkr.identity.value pG)
def State.deviceId (s : State) : List Byte := sha384 s.identityPub

/-- Offset of the first bad byte under order 1 of R519. -/
def kuShape (m : List Byte) : Option Nat :=
  let op := kuOp m
  leastBad
    [(0, leAt m 0 4 ≠ 0x5A4A4B55), (4, byteAt m 4 ≠ 1), (5, 3 < op),
     (6, if op ≤ 1 then kuSlot m < 4 || 63 < kuSlot m else kuSlot m ≠ 0),
     (7, if op = 0 then kuParent m ≠ 0xFF && (kuParent m < 4 || 63 < kuParent m) else kuParent m ≠ 0xFF),
     (64, op ≠ 0 && !kuZero m 64 16),
     (80, if op = 0 then byteAt m 80 < 4 || 7 < byteAt m 80 else byteAt m 80 ≠ 0),
     (81, !kuZero m 81 3), (84, op ≠ 0 && leAt m 84 4 ≠ 0),
     (88, op ≠ 0 && op ≠ 3 && !kuZero m 88 96), (184, op ≠ 0 && !kuZero m 184 60)]

/-- The slot is named for a use that needs another KIND (R519). -/
def State.wrongUse (s : State) (i kind : Nat) : Bool :=
  ((List.range 8).any fun p => decide (s.namedSlot (TKR_PORT_DOM p) = some i ∧ kind ≠ 5))
    || decide (s.namedSlot TKR_NODE_MASTER = some i ∧ kind ≠ 6) || decide (s.namedSlot TKR_PAIR_SLOT = some i ∧ kind ≠ 7)

/-- The parent cannot bear the slot (R519). -/
def State.parentBad (s : State) (i p : Nat) : Bool :=
  p ≠ 0xFF && (p = i || (s.slot p).state ≠ slotActive || decide (p ∈ s.descendants i)
    || decide (4 < s.depthOf 4 p + 1 + s.heightOf 4 i))

/-- Offset of the first bad field under order 2 of R519; a slot in GRACE takes no generation of its own (R524). -/
def State.kuState (s : State) (m : List Byte) : Option Nat :=
  let i := kuSlot m
  let x := s.slot i
  match kuOp m with
  | 0 => leastBad [(6, x.state = slotGrace), (7, s.parentBad i (kuParent m)), (80, s.wrongUse i (byteAt m 80)), (84, leAt m 84 4 ≤ x.gen)]
  | 1 => leastBad [(6, x.state = slotEmpty || x.state = slotDead)]
  | _ => none

/-- The message is of the authority in force and for this device (order 4 of R519). -/
def State.kuAuth (s : State) (m : List Byte) : Bool :=
  match s.authority with
  | none => false
  | some (_, h) =>
    decide (kuBytes m 16 48 = s.deviceId ∧ beAt (sha384 (kuBytes m 244 96)) 0 48 = h)
      && ecdsaVerify (pointOf (kuBytes m 244 96)) (sha384 (m.take 340)) (kuBytes m 340 96)

/-- The seed that the message carries (R518). -/
def State.kuSeed (s : State) (m : List Byte) : Option (List Byte) :=
  match pointOf (kuBytes m 88 96) with
  | none => none
  | some q =>
    let z := ecdhX s.tkr.agreement.value (some q)
    let kek := hkdfExpand (hkdfExtract s.deviceId z) (ascii "ZJM kek" ++ leBytes 8 (kuCounter m)) 32
    gcmOpen kek (kuBytes m 184 12) (m.take 88) (kuBytes m 196 32) (kuBytes m 228 16)

/-- The checks of R519 in their order. -/
def State.kuCheck (s : State) (m : List Byte) : Option (Nat × Nat) :=
  match kuShape m with
  | some o => some (stBadField, 32 + 256 * o)
  | none =>
    match s.kuState m with
    | some o => some (stBadField, 32 + 256 * o)
    | none =>
      if kuOp m = 3 ∧ s.nextPosition = none then some (stNoResource, 0)
      else if s.kuAuth m = false then some (stAuthFail, 0)
      else if kuCounter m ≤ s.reg64 TKR_CTR then some (stReplay, 0)
      else if kuOp m = 0 ∧ s.kuSeed m = none then some (stAuthFail, 0)
      else none

/-- The checks of the descriptor. -/
def kuChecks (s : State) (b : List Byte) : OpChecks :=
  { bad := [(24, dByteLen b ≠ 436)]
    payload := fun m => s.kuCheck m }

/-! ### What a message does (R518, R522, R523, R526, R530) -/

/-- Slot `i` takes a key, and its descendants `ds` are derived under it (R526). -/
def State.putKey (s : State) (i : Nat) (y : KeySlot) (ds : List Nat) (n counter : Nat) : State :=
  ds.foldl (State.rekeyChild n counter) ((s.rekey i y).storeSlot counter i)

/-- The slot that a message of OP 0 makes of slot `x`, with the seed in shares. -/
def kuInstalled (x : KeySlot) (m : List Byte) (seed : Shares) : KeySlot :=
  { x with kind := byteAt m 80, parent := if kuParent m = 0xFF then none else some (kuParent m), gen := leAt m 84 4,
           label := beAt m 64 16, seed := seed }

/-- Descendants of slot `i` are derived afresh with a new generation: it was DEAD, or one of them is not ACTIVE (R526). -/
def State.keyFresh (s : State) (i : Nat) : Bool :=
  decide ((s.slot i).state = slotDead) || (s.descendants i).any fun j => decide ((s.slot j).state ≠ slotActive)

/-- OP 0 with seed `seed`: the slot is installed or replaced, and with its key every descendant's. -/
def State.installSeed (s : State) (m : List Byte) (seed : Nat) : State :=
  let i := kuSlot m
  let p := s.share seed
  (p.1.putKey i (kuInstalled (s.slot i) m p.2) (s.descendants i) (b2n (s.keyFresh i)) (kuCounter m)).committed 0 i (leAt m 84 4) (kuCounter m)

/-- OP 0. -/
def State.install (s : State) (m : List Byte) : State :=
  (s.kuSeed m).elim s fun seed => s.installSeed m (beAt seed 0 32)

/-- An ACTIVE descendant of an invalidated slot enters DRAIN. -/
def State.drainChild (counter : Nat) (s : State) (j : Nat) : State :=
  let x := s.slot j
  if x.state = slotActive then (s.changeSlot j { x with state := slotDrain } 0).storeSlot counter j else s

/-- OP 1: the slot is DEAD (R523). -/
def State.invalidate (s : State) (m : List Byte) : State :=
  let i := kuSlot m
  let ds := s.descendants i
  let s := (s.changeSlot i { s.slot i with state := slotDead, old := none } 0).storeSlot (kuCounter m) i
  let s := ds.foldl (State.drainChild (kuCounter m)) s
  s.committed 1 i (s.slot i).gen (kuCounter m)

/-- SEC_NOTICE (R534). -/
def State.secNotice (s : State) (cause : Nat) : State :=
  s.postNow 0x7B 0 0 [(16, 1, cause), (20, 4, s.reg BRD_DENY_CNT), (28, 4, s.tick32)]

/-- OP 2: debug is armed for the next pin warm reset (R530). -/
def State.armDebug (s : State) (m : List Byte) : State :=
  (((s.storeCounter (kuCounter m)).raise TKR_STAT_DBG_ARMED).committed 2 0 0 (kuCounter m)).secNotice 3

/-- A position takes a hash and whether its check word verifies. -/
def State.setPosition (s : State) (p : Nat) (h : List Byte) (ok : Bool) : State :=
  ({ s with tkr := { s.tkr with positions := sput (fun _ => none) s.tkr.positions p (some (beAt h 0 48, ok)) } }).showAuthority

/-- OP 3: the next authority position takes the new authority (R522); a position that fails its check word is spoiled, and the
update is not committed. -/
def State.rotate (s : State) (m : List Byte) (otp : Bool) : State :=
  match s.nextPosition with
  | none => s
  | some p =>
    let s := s.setPosition p (sha384 (kuBytes m 88 96)) otp
    if otp then (s.storeCounter (kuCounter m)).committed 3 0 0 (kuCounter m) else s

/-- The update by its OP; `nor` tells that the read-backs of R520 verify, `otp` that the position's check word does. -/
def State.applyKey (s : State) (m : List Byte) (nor otp : Bool) : State × Nat :=
  if nor = false then (s, stIntegrity)
  else match kuOp m with
    | 0 => (s.install m, stOk)
    | 1 => (s.invalidate m, stOk)
    | 2 => (s.armDebug m, stOk)
    | _ => (s.rotate m otp, if otp then stOk else stIntegrity)

/-- A KEY_UPDATE descriptor whose message passed. -/
def keyEffect (nor otp : Bool) (s : State) (d : Running) (m : List Byte) : State :=
  let (s, st) := s.applyKey m nor otp
  s.finish d st 0

/-- The message of the ring's KEY_UPDATE has an OP for which `p` holds; without a payload the row of OP 0 runs. -/
def State.runKey (s : State) (r : Nat) (payload : Option (List Byte)) (p : Nat → Bool) (nor otp : Bool) : State :=
  if p (match payload with | some m => kuOp m | none => 0) then s.runOp r 0x70 payload kuChecks noReserve (keyEffect nor otp) else s

/-- An OP 2 message on the DEBUG port (R530): class SECURITY on port index 33. -/
def State.debugMessage (s : State) (m : List Byte) (nor : Bool) : State :=
  if s.bridleOk 33 7 5 = false then s.bridleDeny 33 5
  else if kuOp m ≠ 2 ∨ m.length ≠ 436 ∨ s.kuCheck m ≠ none then s
  else (s.applyKey m nor true).1

/-! ### Key-epoch boundaries and grace (R510, R514, R523 – R525) -/

/-- A slot in DRAIN enters GRACE, or is DEAD with a grace of 0 (R523). -/
def State.endDrain (s : State) (i : Nat) : State :=
  let x := s.slot i
  let g := s.fld TKR_GRACE_v
  if x.state ≠ slotDrain then s
  else if g = 0 then s.changeSlot i { x with state := slotDead, old := none } 0
  else s.changeSlot i { x with state := slotGrace, deadline := s.tb.now + g * unitSec, noticed := s.tb.now } g

/-- A DOMAIN slot that changes over sends its new generation, until its first epoch has come (R514). -/
def State.changeOver (s : State) (i : Nat) : State :=
  let x := s.slot i
  if x.old.isNone then s
  else if keReached (keOf s.tickNo) x.effKe then s.setSlot i { x with old := none }
  else s.sendKeys i

/-- A key-epoch boundary (R510). -/
def State.keyEpoch (s : State) : State := ownerSlots.foldl (fun (s : State) i => (s.endDrain i).changeOver i) s

/-- The deadline of slot `i` has passed: it is DEAD (R525). -/
def State.expireGrace (s : State) (i : Nat) : State :=
  let x := s.slot i
  if x.state = slotGrace ∧ x.deadline ≤ s.tb.now then s.changeSlot i { x with state := slotDead, old := none } 0 else s

/-- KEY_GRACE_EXPIRY: while ticks run, the boundary at or after the deadline makes the slot DEAD (R525). -/
def State.graceEnds (s : State) (i : Nat) : State :=
  let x := s.slot i
  if x.state ≠ slotGrace then s
  else
    let s := s.runTo x.deadline
    if s.tick.running then s else s.expireGrace i

/-- KEY_GRACE every 60 s (R524). -/
def State.graceNotice (s : State) (i : Nat) : State :=
  let x := s.slot i
  if x.state ≠ slotGrace then s
  else
    let s := (s.runTo (x.noticed + 60 * unitSec)).setSlot i { x with noticed := x.noticed + 60 * unitSec }
    s.postNow 0x7A 0 0 [(16, 1, i), (20, 4, (x.deadline - s.tb.now) / unitSec), (28, 4, s.tick32)]

/-! ### SESSION (R509, R524) -/

/-- SESSION takes the next reserved value; a DOMAIN slot in GRACE stops sending (R524). -/
def State.nextSession (s : State) : State :=
  let t := { s.tkr with before := s.session, reserve := s.tkr.reserve - 1, waits := false,
                        writing := s.tkr.writing || decide (s.tkr.reserve - 1 < 256) }
  let s := ({ s with tkr := t } : State).setReg TKR_SESSION ((s.session + 1) % 2 ^ 32)
  ownerSlots.foldl (fun (s : State) i =>
    let x := s.slot i
    if x.kind = 5 ∧ x.state = slotGrace then s.setSlot i { x with silent := true } else s) s

/-- SESSION advances at a boundary (R509), or the trace ports wait for a reserved value. -/
def State.sessionBoundary (s : State) : State :=
  if s.tkr.reserve = 0 then
    ({ s with tkr := { s.tkr with waits := true }, tm := { s.tm with held := true } }).raise TKR_STAT_SES_WAIT
  else s.nextSession

/-- The reserve write goes to NOR, or fails and is retried a second later. -/
def State.reserveWrite (s : State) (ok : Bool) : State :=
  if s.tkr.writing = false ∨ s.tkr.underway then s
  else
    let s := s.runTo s.tkr.retryAt
    if ok then { s with tkr := { s.tkr with underway := true } }
    else ({ s with tkr := { s.tkr with retryAt := s.tb.now + unitSec } }).secNotice 5

/-- The reserve write completes: 1,024 more values, and an advance that waits is made. -/
def State.reserveDone (s : State) : State :=
  if s.tkr.underway = false then s
  else
    let t := { s.tkr with underway := false, writing := decide (s.tkr.reserve + 1024 < 256), reserve := s.tkr.reserve + 1024,
                          sessionEnd := (s.tkr.sessionEnd + 1024) % 2 ^ 32 }
    let s := ({ s with tkr := t } : State).clear TKR_STAT_SES_WAIT
    let s := if s.tkr.waits then s.nextSession else s
    { s with tm := { s.tm with held := false } }

/-! ### Re-masking (R528, R529) -/

/-- A share pair takes a fresh random word. -/
def remask (x : Shares) (r : Nat) : Shares := { a := Nat.xor x.a r, b := Nat.xor x.b r }

/-- An owner slot's pairs. -/
def State.remaskSlot (s : State) (i : Nat) : State :=
  let x := s.slot i
  if x.state = slotEmpty then s
  else
    let r := s.freeVal (2 ^ 384)
    let s := s.drew
    let r2 := s.freeVal (2 ^ 384)
    let s := s.drew
    s.setSlot i { x with key := remask x.key r, seed := remask x.seed r2, old := x.old.map fun o => (o.1, remask o.2 r) }

/-- The device slots' pairs. -/
def State.remaskDevice (s : State) : State :=
  let t := s.tkr
  let r (k : Nat) := Config.free (s.drawn + k) % 2 ^ 384
  let t := { t with root := remask t.root (r 0), identity := remask t.identity (r 1), agreement := remask t.agreement (r 2),
                    storage := remask t.storage (r 3) }
  { s with tkr := t, drawn := s.drawn + 4 }

/-- A re-masking round, TKR_GROOM after the one before; a round that passes the time of the next is late (R528). -/
def State.remaskRound (s : State) : State :=
  if s.bit TKR_STAT_TRNG_BAD then s
  else
    let p := clampN 1 600 (s.fld TKR_GROOM_v) * 100 * unitMs
    let due := s.tkr.groomed + p
    let s := s.runTo due
    let s := ownerSlots.foldl State.remaskSlot s.remaskDevice
    let late := decide (due + p ≤ s.tb.now)
    let s : State := { s with tkr := { s.tkr with groomed := if late then s.tb.now else due } }
    if late then (s.raise TKR_STAT_GROOM_LATE).secNotice 2 else s

/-- A health test of the entropy source fails (R529). -/
def State.entropyBad (s : State) : State := (s.raise TKR_STAT_TRNG_BAD).secNotice 1

/-! ### The commands -/

/-- KEY_INSTALL (R518): the ring, the message as read, and whether the read-backs of R520 verify.  A KEY_UPDATE whose OP is none of
1 – 3, or whose message could not be read, is this row's too. -/
def execKeyInstall (r : Fin 32) (payload : Option (List Byte)) (nor : Bool) (s : State) : Res :=
  .next (s.runKey r.val payload (fun op => !(op = 1 || op = 2 || op = 3)) nor true)

/-- KEY_INVALIDATE (R523). -/
def execKeyInvalidate (r : Fin 32) (payload : Option (List Byte)) (nor : Bool) (s : State) : Res :=
  .next (s.runKey r.val payload (fun op => op = 1) nor true)

/-- KEY_ARM_DEBUG (R530): on a ring, or as a message on the DEBUG port. -/
def execKeyArmDebug (r : Option (Fin 32)) (payload : Option (List Byte)) (nor : Bool) (s : State) : Res :=
  match r with
  | some r => .next (s.runKey r.val payload (fun op => op = 2) nor true)
  | none => .next (match payload with | some m => s.debugMessage m nor | none => s)

/-- KEY_ROTATE_AUTHORITY (R522): `otp` tells that the programmed position's check word verifies. -/
def execKeyRotateAuthority (r : Fin 32) (payload : Option (List Byte)) (nor otp : Bool) (s : State) : Res :=
  .next (s.runKey r.val payload (fun op => op = 3) nor otp)

/-- KEY_GRACE_EXPIRY (R525). -/
def execKeyGraceExpiry (slot : Fin 64) (s : State) : Res := .next (s.graceEnds slot.val)

/-- KEY_GRACE_NOTICE (R524). -/
def execKeyGraceNotice (slot : Fin 64) (s : State) : Res := .next (s.graceNotice slot.val)

/-- SESSION_RESERVE_WRITE (R509): the write is taken by the NOR, or fails. -/
def execSessionReserveWrite (ok : Bool) (s : State) : Res := .next (s.reserveWrite ok)

/-- SESSION_RESERVE_DONE (R509). -/
def execSessionReserveDone (s : State) : Res := .next s.reserveDone

/-- REMASK_ROUND (R528). -/
def execRemaskRound (s : State) : Res := .next s.remaskRound

/-- ENTROPY_FAILURE (R529). -/
def execEntropyFailure (s : State) : Res := .next s.entropyBad

end Sys2Proof.Machine
end

