-- ==== Sys2Proof/Machine/Images.lean ====
section
/-! DEFINITION. Image slots, staging, boot checks, trials, migration, the partner copy and attestation
(20_images_and_migration.md; 19_saddle_bridle_and_tack_room.md, R532, R533). -/

namespace Sys2Proof.Machine

/-! ### Slots and bundles (R537, R538, R543) -/

def imgDflt (_ : Nat) : ImageSlot := {}
def noSector (_ : Nat) : List Byte := []

def State.image (s : State) (i : Nat) : ImageSlot := sget imgDflt s.img.slots i
def State.setImage (s : State) (i : Nat) (x : ImageSlot) : State := { s with img := { s.img with slots := sput imgDflt s.img.slots i x } }

/-- Chunks missing from the staging record. -/
def ImageSlot.missing (x : ImageSlot) : Nat := x.total - x.held.length

/-- The contents of a slot, and the staged length (R543). -/
def ImageSlot.bytes (x : ImageSlot) : List Byte := (List.range x.total).flatMap fun i => sget noSector x.sectors i
def ImageSlot.length (x : ImageSlot) : Nat := 4096 * (x.total - 1) + x.lastLen

/-- The 512-byte header. -/
def ImageSlot.header (x : ImageSlot) : List Byte := (sget noSector x.sectors 0).take 512

/-- Fields of the header (R537). -/
def hdrLen (h : List Byte) : Nat := leAt h 8 4
def hdrRiderVer (h : List Byte) : Nat := leAt h 28 4
def hdrCgen (h : List Byte) : Nat := byteAt h 32
def hdrArith (h : List Byte) : Nat := leAt h 34 2
def hdrCfgVer (h : List Byte) : Nat := leAt h 36 2
def hdrMigMin (h : List Byte) : Nat := leAt h 38 2
def hdrSvn (h : List Byte) : Nat := byteAt h 40
def hdrMinSvn (h : List Byte) : Nat := byteAt h 41
def hdrRiderHash (h : List Byte) : List Byte := (h.drop 48).take 48
def hdrCfgHash (h : List Byte) : List Byte := (h.drop 96).take 48
def hdrPart (h bs : List Byte) (at' : Nat) : List Byte := (bs.drop (leAt h at' 4)).take (leAt h (at' + 4) 4)

/-- The slot is STAGED, TRIAL or GOOD. -/
def ImageSlot.whole (x : ImageSlot) : Bool := 2 ≤ x.state && x.state ≤ 4

/-- Chunk `i` of `total` enters the slot (R543); `ok` tells that the sector reads back. -/
def ImageSlot.stage (x : ImageSlot) (i total : Nat) (data : List Byte) (ok : Bool) : ImageSlot :=
  let y := if total ≠ x.total ∨ 1 < x.state then ({ total := total } : ImageSlot) else x
  let y := { y with state := 1 }
  if ok = false then y
  else
    let y := { y with sectors := sput noSector y.sectors i data, held := if i ∈ y.held then y.held else y.held ++ [i],
                      lastLen := if i + 1 = total then data.length else y.lastLen }
    if y.missing = 0 then { y with state := 2 } else y

/-! ### IMAGE_CHUNK (R543, R544) -/

/-- The slot is the one that runs. -/
def State.isBooted (s : State) (i : Nat) : Bool := decide (s.img.slot = some i)

/-- The conditions of R544 on slot, chunk, length and total, by offset of the descriptor. -/
def chunkBad (slot chunk len total : Nat) : List (Nat × Bool) :=
  [(16, decide (1 < slot)), (20, decide (total ≤ chunk)), (24, decide (len = 0 ∨ 4096 < len ∨ (len < 4096 ∧ chunk + 1 ≠ total))),
   (40, decide (total = 0 ∨ 4096 < total))]

/-- The checks of IMAGE_CHUNK. -/
def chunkChecks (s : State) (b : List Byte) : OpChecks :=
  { deny := s.isBooted (byteAt b 16)
    bad := chunkBad (byteAt b 16) (dChunk b) (dByteLen b) (dTotal b)
    payload := fun data => if crc32 (data.take (dByteLen b)) ≠ leAt b 28 4 then some (stIntegrity, 0) else none }

/-- The chunk is persisted; a read-back that fails completes with INTEGRITY and has no effect (R120). -/
def chunkEffect (written : Bool) (s : State) (d : Running) (data : List Byte) : State :=
  let b := d.bytes
  let i := byteAt b 16
  if written then
    let x := (s.image i).stage (dChunk b) (dTotal b) (data.take (dByteLen b)) true
    (s.setImage i x).finish d stOk x.missing
  else s.finish d stIntegrity 0

/-! ### Boot checks (R540, R541) -/

/-- The header is well formed (cause 1). -/
def headerOk (h : List Byte) : Bool :=
  decide (h.length = 512 ∧ leAt h 0 4 = 0x5A4A424E ∧ leAt h 4 2 = 1 ∧ leAt h 44 4 = 0x5A4A5120 ∧ hdrMinSvn h ≤ hdrSvn h)
    && zeros h 6 2 && byteAt h 33 = 0 && zeros h 42 2 && zeros h 144 16 && zeros h 352 160
    && decide (hdrLen h ≤ 16777216 ∧ leAt h 12 4 + leAt h 16 4 ≤ hdrLen h ∧ leAt h 20 4 + leAt h 24 4 ≤ hdrLen h)

/-- The hash that the bundle's key must have (R541). -/
def State.bundleKey (s : State) : Nat := match s.authority with | some (_, h) => h | none => Config.releaseKey

/-- The cause of the first check of R541 that fails. -/
def State.slotCause (s : State) (x : ImageSlot) : Option Nat :=
  let h := x.header
  if headerOk h = false then some 1
  else if hdrLen h ≠ x.length then some 5
  else if beAt (sha384 ((h.drop 160).take 96)) 0 48 ≠ s.bundleKey
      ∨ ecdsaVerify (pointOf ((h.drop 160).take 96)) (sha384 (h.take 256)) ((h.drop 256).take 96) = false then some 2
  else if sha384 (hdrPart h x.bytes 12) ≠ hdrRiderHash h ∨ sha384 (hdrPart h x.bytes 20) ≠ hdrCfgHash h then some 3
  else if hdrSvn h < s.img.floor then some 4
  else none

/-- IMG_BOOT (R554). -/
def State.postBoot (s : State) (slot outcome cause : Nat) (h : List Byte) : State :=
  s.postNow 0x7C 0 0 [(16, 1, slot), (17, 1, outcome), (18, 1, cause), (20, 4, hdrRiderVer h), (24, 1, s.img.floor), (28, 4, s.tick32)]

/-- A slot fails: it is BAD with its cause (R540). -/
def State.failSlot (s : State) (i cause outcome : Nat) : State :=
  let x := s.image i
  (((s.setImage i { x with state := 5, cause := cause }).setFld IMG_STATUS_CAUSE cause).raise IMG_STATUS_FALLBACK).postBoot i outcome cause x.header

/-- The order of tries (R540). -/
def State.tryOrder (s : State) : List Nat :=
  let st (i : Nat) := (s.image i).state
  let staged := [0, 1].filter fun i => st i = 2
  let good := [0, 1].filter fun i => st i = 4
  let good := if s.img.active = some 1 then good.reverse else good
  staged ++ good

/-- The Saddle monitor tries slots until one passes; none boots nothing. -/
def State.trySlots (s : State) : List Nat → State
  | [] => s
  | i :: rest =>
    let x := s.image i
    match s.slotCause x with
    | some c => (s.failSlot i c 3).trySlots rest
    | none =>
      let trial := decide (x.state = 2)
      let s := s.setImage i { x with state := if trial then 3 else 4 }
      let s : State := { s with img := { s.img with slot := some i, header := x.header } }
      ((s.setFld GLB_BOOT_RIDER_SLOT i).setFld IMG_STATUS_TRIAL (b2n trial)).postBoot i (b2n trial) 0 x.header

/-- Slot selection (R540): a slot left TRIAL has failed its trial. -/
def State.chooseSlot (s : State) : State :=
  let s : State := { s with img := { s.img with slot := none, header := [] } }
  let s := [0, 1].foldl (fun (s : State) i => if (s.image i).state = 3 then s.failSlot i 6 3 else s) s
  let s := s.trySlots s.tryOrder
  s.setReg TDM_VER (2 ^ 16 * hdrArith s.img.header + hdrCgen s.img.header)

/-! ### Trials (R542) -/

/-- The booted slot is on trial. -/
def State.onTrial (s : State) : Option Nat :=
  match s.img.slot with
  | some i => if (s.image i).state = 3 then some i else none
  | none => none

/-- A rider restart or a DEVICE_FAULT ends a trial: the slot is BAD with cause 6. -/
def State.trialFails (s : State) : State :=
  match s.onTrial with
  | none => s
  | some i =>
    let x := s.image i
    (((s.setImage i { x with state := 5, cause := 6 }).setFld IMG_STATUS_CAUSE 6).clear IMG_STATUS_TRIAL).postBoot i 4 6 x.header

/-- CFG_MIGRATION (R554). -/
def State.postMigration (s : State) (phase old new : Nat) : State :=
  s.postNow 0x7D 0 0 [(16, 1, phase), (20, 2, s.img.moved.1), (22, 2, s.img.moved.2), (24, 2, old), (26, 2, new), (28, 4, s.tick32)]

/-- The migration commits (R548). -/
def State.commitMigration (s : State) : State :=
  if s.img.migState ≠ 1 then s
  else
    let new := hdrCfgVer s.img.header
    let old := s.img.ver
    ({ s with img := { s.img with current := 1 - s.img.current, hash := s.img.target, ver := new, migState := 2, other := false } }).postMigration 1 old new

/-- The trial slot is confirmed IMG_TRIAL seconds after NORMAL was entered. -/
def State.confirmTrial (s : State) : State :=
  match s.onTrial, s.mem.normalAt with
  | some i, some t =>
    if s.svc ≠ 1 then s
    else
      let s := s.runTo (t + max 60 (s.fld IMG_TRIAL_v) * unitSec)
      let x := s.image i
      let f := max s.img.floor (hdrMinSvn x.header)
      let s := s.setImage i { x with state := 4 }
      let s : State := { s with img := { s.img with active := some i, floor := f } }
      (((s.setFld IMG_STATUS_FLOOR f).clear IMG_STATUS_TRIAL).commitMigration).postBoot i 2 0 x.header
  | _, _ => s

/-! ### Migration at start (R548) -/

def noBlocks (_ : Nat) : List ConfigBlock := []

/-- What becomes of a block: unchanged, converted, or dropped. -/
def migrateBlock (ver low : Nat) (b : ConfigBlock) : Option ConfigBlock :=
  if b.version = ver then some b
  else if low ≤ b.version ∧ b.version < ver then some { b with version := ver, body := Config.convert b.btype b.version ver b.body }
  else none

/-- The blocks of the current area go to the other area, and the rider runs from it. -/
def State.migrate (s : State) (h : List Byte) : State :=
  let ver := hdrCfgVer h
  let old := sget noBlocks s.img.areas s.img.current
  let new := old.filterMap (migrateBlock ver (hdrMigMin h))
  let conv := (old.filter fun b => decide (b.version ≠ ver) && (migrateBlock ver (hdrMigMin h) b).isSome).length
  let x := { s.img with areas := sput noBlocks s.img.areas (1 - s.img.current) new, migState := 1, target := beAt (hdrRiderHash h) 0 48,
                        moved := (conv, old.length - new.length), other := true }
  ({ s with img := x } : State).postMigration 0 s.img.ver ver

/-- A migration of another image is discarded. -/
def State.discardMigration (s : State) : State :=
  let x := { s.img with areas := sput noBlocks s.img.areas (1 - s.img.current) [], migState := 0, other := false }
  ({ s with img := x } : State).postMigration 2 s.img.ver s.img.ver

/-- The rider firmware starts (R548). -/
def State.startMigration (s : State) : State :=
  let h := s.img.header
  let hash := beAt (hdrRiderHash h) 0 48
  if s.img.slot = none then s
  else if s.img.migState = 1 ∧ s.img.target = hash then s.migrate h
  else
    let s := if s.img.migState = 1 then s.discardMigration else s
    if hash = s.img.hash then { s with img := { s.img with other := false } } else s.migrate h

/-! ### MG0 (R545) -/

/-- The reply to a chunk datagram, to the sender's address and port. -/
def State.mgReply (s : State) (ip port status chunk slot : Nat) : State :=
  let body := leBytes 4 0x5A4A4943 ++ leBytes 1 1 ++ leBytes 1 status ++ leBytes 2 0 ++ leBytes 4 chunk
    ++ leBytes 4 (s.image slot).missing ++ leBytes 8 0
  s.emit (.frame 14 .reply (Config.ipHead [4, 14, ip, port, 24] ++ body))

/-- A chunk datagram (R545). -/
def State.mgChunk (s : State) (ip port dst dport : Nat) (m : List Byte) (written : Bool) : State :=
  let slot := byteAt m 5
  let chunk := leAt m 8 4
  let total := leAt m 12 4
  let len := leAt m 16 4
  let data := m.drop 24
  if s.domOn 13 = false ∨ dst ≠ s.reg IMG_MG_IP ∨ dport ≠ s.fld IMG_MG_PORT_v ∨ m.length < 24 ∨ leAt m 0 4 ≠ 0x5A4A4943 ∨ byteAt m 4 ≠ 1 then s
  else if s.bridleOk 15 4 6 = false then (s.bridleDeny 15 6).mgReply ip port stNotPermitted chunk slot
  else if s.isBooted slot then s.mgReply ip port stNotPermitted chunk slot
  else if (chunkBad slot chunk len total).any (fun c => c.2) ∨ leAt m 6 2 ≠ 0 ∨ data.length ≠ len then s.mgReply ip port stBadField chunk slot
  else if crc32 data ≠ leAt m 20 4 ∨ written = false then s.mgReply ip port stIntegrity chunk slot
  else (s.setImage slot ((s.image slot).stage chunk total data true)).mgReply ip port stOk chunk slot

/-- An ARP request for IMG_MG_IP is answered (R545). -/
def State.arpReply (s : State) (target ip mac : Nat) : State :=
  if s.domOn 13 = false ∨ target ≠ s.reg IMG_MG_IP then s
  else
    let own := Config.ownMac 14
    s.emit (.frame 14 .arp (beBytes 6 mac ++ own ++ beBytes 2 0x0806 ++ beBytes 2 1 ++ beBytes 2 0x0800 ++ beBytes 1 6 ++ beBytes 1 4
      ++ beBytes 2 2 ++ own ++ beBytes 4 target ++ beBytes 6 mac ++ beBytes 4 ip))

/-! ### The partner copy (R546) -/

/-- Ask the partner for the chunks that are missing here. -/
def State.wantImage (s : State) : State :=
  match s.tdm.peer with
  | none => s
  | some (dst, src) => s.sendTdm (.state (.wantImage src (s.image dst).held (s.image dst).total))

/-- GO. -/
def State.peerGo (s : State) (v : Nat) : State :=
  let dst := bitsOf v 0 1
  let src := bitsOf v 4 1
  let s := (s.setFld IMG_PEER_DST_SLOT dst).setFld IMG_PEER_SRC_SLOT src
  if bitB v 8 = false then s
  else if s.isBooted dst ∨ s.bit TDM_CTRL_EN = false ∨ s.tdm.partner.state = 0 ∨ s.tdm.partner.state = 7 then
    ({ s with tdm := { s.tdm with peer := none } }).setReg IMG_PEER_STAT 4
  else
    let s : State := { s with tdm := { s.tdm with peer := some (dst, src) } }
    if s.bit TDM_STATUS_PARTNER then (s.setReg IMG_PEER_STAT 1).wantImage else s.setReg IMG_PEER_STAT 2

/-- STOP: the chunks held stay held. -/
def State.peerStop (s : State) (v : Nat) : State :=
  let s := (s.setFld IMG_PEER_DST_SLOT (bitsOf v 0 1)).setFld IMG_PEER_SRC_SLOT (bitsOf v 4 1)
  if bitB v 9 then ({ s with tdm := { s.tdm with peer := none } }).setFld IMG_PEER_STAT_STATE 0 else s

/-- The partner link is lost or returns. -/
def State.peerLink (s : State) (up : Bool) : State :=
  if s.tdm.peer = none then s
  else if up then (s.setFld IMG_PEER_STAT_STATE 1).wantImage
  else s.setFld IMG_PEER_STAT_STATE 2

/-- The partner asks for the chunks of a slot. -/
def State.giveImage (s : State) (slot : Nat) (held : List Nat) (total : Nat) : State :=
  let x := s.image slot
  if x.whole = false then s.sendTdm (.state .noImage)
  else
    let have' := if total = x.total then held else []
    ((List.range x.total).filter fun i => decide (i ∉ have')).foldl (fun (s : State) i =>
      let c := sget noSector x.sectors i
      s.sendTdm (.state (.image i x.total (crc32 c) c))) s

/-- A chunk from the partner (R543, R546). -/
def State.takeImage (s : State) (i total crc : Nat) (data : List Byte) (written : Bool) : State :=
  match s.tdm.peer with
  | none => s
  | some (dst, _) =>
    if (chunkBad dst i data.length total).any (fun c => c.2) ∨ crc32 data ≠ crc ∨ written = false then s
    else
      let x := (s.image dst).stage i total data true
      let s := (s.setImage dst x).bump IMG_PEER_STAT_RECEIVED 1
      if x.state = 2 then ({ s with tdm := { s.tdm with peer := none } }).setFld IMG_PEER_STAT_STATE 3 else s

/-- The partner refuses the copy. -/
def State.peerRefused (s : State) : State :=
  if s.tdm.peer = none then s else ({ s with tdm := { s.tdm with peer := none } }).setFld IMG_PEER_STAT_STATE 4

/-! ### Attestation (R532, R533) -/

/-- The head of a CBOR item of major type `m`. -/
def cborHead (m n : Nat) : List Byte :=
  if n < 24 then beBytes 1 (32 * m + n)
  else if n < 256 then beBytes 1 (32 * m + 24) ++ beBytes 1 n
  else if n < 65536 then beBytes 1 (32 * m + 25) ++ beBytes 2 n
  else if n < 2 ^ 32 then beBytes 1 (32 * m + 26) ++ beBytes 4 n
  else beBytes 1 (32 * m + 27) ++ beBytes 8 n

def cborUint (n : Nat) : List Byte := cborHead 0 n
def cborBytes (b : List Byte) : List Byte := cborHead 2 b.length ++ b
def cborText (t : String) : List Byte := cborHead 3 t.length ++ ascii t
def cborArray (xs : List (List Byte)) : List Byte := cborHead 4 xs.length ++ xs.flatten
def cborMap (xs : List (Nat × List Byte)) : List Byte := cborHead 5 xs.length ++ xs.flatMap fun x => cborUint x.1 ++ x.2
def cborBool (b : Bool) : List Byte := beBytes 1 (if b then 0xF5 else 0xF4)

/-- An owner slot as the statement lists it. -/
def KeySlot.cbor (x : KeySlot) (i : Nat) : List Byte :=
  cborArray [cborUint i, cborUint x.kind, cborUint x.state, cborUint x.gen, cborUint (match x.parent with | some p => p | none => 255)]

/-- The payload map of the statement. -/
def State.attestPayload (s : State) (nonce : List Byte) : List Byte :=
  cborMap
    [(1, cborBytes s.deviceId), (2, cborBytes s.identityPub),
     (3, cborBytes (leBytes 1 4 ++ pointBytes (pmul 384 s.tkr.agreement.value pG))),
     (4, cborArray [cborUint (s.reg GLB_DEVID), cborUint (s.reg GLB_REVID)]),
     (5, cborMap [(1, cborBytes (beBytes 48 Config.romHash)), (2, cborBytes (beBytes 48 (beAt (hdrRiderHash s.img.header) 0 48))),
        (3, cborBytes (beBytes 48 (beAt (hdrCfgHash s.img.header) 0 48))), (4, cborBytes (sha384 s.tkr.bridle))]),
     (6, cborUint (s.fld GLB_BOOT_RIDER_SLOT)),
     (7, cborUint (if s.debug then 1 else if s.bit TKR_STAT_DBG_ARMED then 2 else 0)),
     (8, cborMap [(1, cborUint (s.reg64 TKR_CTR)), (2, cborUint (s.reg TKR_BOOTC)), (3, cborUint s.session),
        (4, cborUint (s.fld TKR_STAT_AUTH_POS)), (5, cborUint (s.reg MEM_RIDER_RST))]),
     (9, cborArray ((ownerSlots.filter fun i => decide ((s.slot i).state ≠ slotEmpty)).map fun i => (s.slot i).cbor i)),
     (10, cborBytes nonce),
     (11, cborArray [cborUint (secOf s.tb.now), cborUint (nsOf s.tb.now), cborUint (s.fld TB_STATUS_STATE)]),
     (12, cborUint s.svc), (13, cborBool (s.bit BRD_STATUS_DEFAULT))]

/-- The protected header: the algorithm is ES384. -/
def attestHead : List Byte := beBytes 4 0xA1013822

/-- The statement: COSE_Sign1 under the identity key. -/
def State.statement (s : State) (nonce : List Byte) : List Byte :=
  let body := s.attestPayload nonce
  let tbs := cborArray [cborText "Signature1", cborBytes attestHead, cborBytes [], cborBytes body]
  cborArray [cborBytes attestHead, cborMap [(4, cborBytes s.deviceId)], cborBytes body, cborBytes (ecdsaSign s.tkr.identity.value (sha384 tbs))]

def attestNonce (b : List Byte) : List Byte := (b.drop 40).take 24

/-- A buffer that is too small is NO_RESOURCE (R533). -/
def attestChecks (s : State) (b : List Byte) : OpChecks := { full := decide (dByteLen b < (s.statement (attestNonce b)).length) }

/-- The statement goes to host memory. -/
def State.attestEffect (s : State) (d : Running) (_ : List Byte) : State :=
  let m := s.statement (attestNonce d.bytes)
  (s.emit (.hostWrite (dHostAddr d.bytes) m)).finish d stOk m.length

/-! ### The commands -/

/-- IMAGE_CHUNK (R543): `written` tells that the sector reads back. -/
def execImageChunk (r : Fin 32) (payload : Option (List Byte)) (written : Bool) (s : State) : Res :=
  .next (s.runOp r.val 0x78 payload chunkChecks noReserve (chunkEffect written))

/-- ATTEST_REQUEST (R532). -/
def execAttestRequest (r : Fin 32) (s : State) : Res := .next (s.runOp r.val 0x71 noPayload attestChecks noReserve State.attestEffect)

/-- TRIAL_CONFIRM (R542). -/
def execTrialConfirm (s : State) : Res := .next s.confirmTrial

/-- CONFIG_MIGRATION (R548). -/
def execConfigMigration (s : State) : Res := .next s.startMigration

/-- MG0_IMAGE_CHUNK (R545): sender and destination address and port, the datagram, and whether the sector reads back. -/
def execMg0ImageChunk (ip : Word) (port : Half) (dst : Word) (dport : Half) (datagram : List Byte) (written : Bool) (s : State) : Res :=
  .next (s.mgChunk ip.toNat port.toNat dst.toNat dport.toNat datagram written)

/-- ARP_REQUEST (R545): target address, sender address and MAC address. -/
def execArpRequest (target ip : Word) (mac : BitVec 48) (s : State) : Res := .next (s.arpReply target.toNat ip.toNat mac.toNat)

/-- IMG_PEER_GO (R546): a write of `v` to IMG_PEER. -/
def execImgPeerGo (v : Word) (s : State) : Res := .next (s.onBlock IMG_PEER (s.peerGo v.toNat))

/-- IMG_PEER_STOP (R546). -/
def execImgPeerStop (v : Word) (s : State) : Res := .next (s.onBlock IMG_PEER (s.peerStop v.toNat))

end Sys2Proof.Machine
end

