-- ==== Sys2Proof/Machine/Ingest.lean ====
section
/-! DEFINITION. Layer ingest (06_layer_ingest.md): ST 2110-20 streams, sACN universes, network cues, and what each latch
takes from them. -/

namespace Sys2Proof.Machine

/-! ### Streams (R165 – R171) -/

def streamDflt (_ : Nat) : Stream := {}

def State.stream (s : State) (i : Nat) : Stream := sget streamDflt s.fe.streams i

def State.setStream (s : State) (i : Nat) (x : Stream) : State := { s with fe := { s.fe with streams := sput streamDflt s.fe.streams i x } }

/-- The format that FE_STRM_FMT gives a stream. -/
def State.videoFormat (s : State) (i : Nat) : VideoFormat :=
  { full := s.bit (FE_STRM_FMT_RANGE i), tcs := s.fld (FE_STRM_FMT_TCS i), colorimetry := s.fld (FE_STRM_FMT_COLORIMETRY i),
    bits := 8 + 2 * s.fld (FE_STRM_FMT_DEPTH i), sampling := s.fld (FE_STRM_FMT_SAMPLING i), peak := max 1 (s.fld FE_XFER_CTRL_v) }

/-- STREAM_STATE (R186); the packets lost since the previous one are reported and counted anew. -/
def State.streamState (s : State) (i st : Nat) : State :=
  let x := s.stream i
  (s.setStream i { x with lost := 0 }).postNow 0x21 0 0 [(16, 1, i), (17, 1, st), (20, 4, x.lost), (28, 4, s.tickNo % 2 ^ 32)]

/-- A 32-bit sequence number extended beside `near`: the difference read as signed. -/
def extendSeq (near v : Nat) : Int := (near : Int) + sext 32 (idxDiff v (near % 2 ^ 32))

/-- Packets newly known to be lost after the merge: missing for longer than FE_STRM_SKEW. -/
def State.expireMissing (s : State) (i : Nat) : State :=
  let x := s.stream i
  let skew := min 10000 (s.fld (FE_STRM_SKEW_v i)) * unitUs
  let gone := x.missing.filter fun m => decide (skew < s.since m.2)
  let n := gone.length
  (s.setStream i { x with missing := x.missing.filter (fun m => !decide (skew < s.since m.2)), lost := satAdd 32 x.lost n }).bumpReg (FE_STRM_PKT_LOST i) n

/-- Numbers missing on one path when packet `n` arrives on it after `prev`. -/
def pathGap (prev : Option Nat) (n : Nat) : Nat := match prev with | some p => n - p - 1 | none => 0

/-- Count what a path has missed. -/
def State.countPath (s : State) (i : Nat) (secondary : Bool) (n : Nat) : State :=
  let x := s.stream i
  if secondary then
    (s.setStream i { x with sec := some (max n (x.sec.getD 0)) }).bump (FE_STRM_PATH_LOST_SEC i) (pathGap x.sec n)
  else (s.setStream i { x with pri := some (max n (x.pri.getD 0)) }).bump (FE_STRM_PATH_LOST_PRI i) (pathGap x.pri n)

/-- The extended sequence number of a packet. -/
def Stream.seqOf (x : Stream) (v : Nat) : Nat := match x.newest with | some n => (extendSeq n v).toNat | none => v + 2 ^ 32

/-- The packet is new to the merge (R168): ahead of every other, or missing and not too far behind. -/
def Stream.isNew (x : Stream) (n : Nat) : Bool :=
  match x.newest with
  | none => true
  | some m => decide (m < n) || x.missing.any fun p => decide (p.1 = n)

/-- The merge state after packet `n` is taken. -/
def Stream.took (x : Stream) (n now : Nat) : Stream :=
  match x.newest with
  | none => { x with newest := some n }
  | some m =>
    if m < n then
      { x with newest := some n, missing := x.missing ++ (List.range (n - m - 1)).map fun k => (m + 1 + k, now) }
    else { x with missing := x.missing.filter fun p => !decide (p.1 = n) }

/-- 90 kHz ticks of RTP time at instant `t`. -/
def rtpAt (t : Nat) : Nat := t * 90000 / unitSec

/-- The capture time of a frame (R169): of the instants whose RTP timestamp is `ts`, the one nearest `arrival`. -/
def captureTime (ts arrival : Nat) : Nat :=
  let near := (extendSeq (rtpAt arrival) ts).toNat
  cdiv (near * unitSec) 90000

/-- Bytes of one line of stream `i`. -/
def State.lineLength (s : State) (i : Nat) : Nat := (s.videoFormat i).lineBytes (s.fld (FE_STRM_SIZE_WIDTH i))

def noBytes (_ : Nat) : List Byte := []
def noChunks (_ : Nat) : Sparse (List Byte) := []

/-- Bytes that a line holds. -/
def lineHeld (l : Sparse (List Byte)) : Nat := l.foldl (fun n kv => n + kv.2.length) 0

/-- The sample bytes of a line in order. -/
def lineBytesOf (l : Sparse (List Byte)) : List Byte := l.flatMap fun kv => kv.2

/-- Line `k` of a frame holds all its pixels. -/
def StreamFrame.lineDone (f : StreamFrame) (len k : Nat) : Bool := len ≤ lineHeld (sget noChunks f.lines k)

/-- Every line holds all its pixels (R168). -/
def StreamFrame.whole (f : StreamFrame) (len height : Nat) : Bool := (List.range height).all (f.lineDone len)

/-- The digest of a line and of a frame (R181). -/
def StreamFrame.lineDigest (f : StreamFrame) (k : Nat) : Nat := crc64 (lineBytesOf (sget noChunks f.lines k))
def StreamFrame.digest (f : StreamFrame) (height : Nat) : Nat :=
  crc64 ((List.range height).flatMap fun k => leBytes 8 (f.lineDigest k))

/-- Store the rows of a packet. -/
def StreamFrame.store (f : StreamFrame) (rows : List RowData) : StreamFrame :=
  { f with lines := rows.foldl (fun m r =>
      sput noChunks m r.row.toNat (sput noBytes (sget noChunks m r.row.toNat) r.offset r.bytes)) f.lines }

/-- Lines that have become whole with a packet. -/
def newLines (len : Nat) (old new : StreamFrame) (rows : List RowData) : List Nat :=
  ((rows.map fun r => r.row.toNat).eraseDups).filter fun k => !old.lineDone len k && new.lineDone len k

/-- A frame that is whole notes the time, and in a pair confirms it to the partner (R170, R181). -/
def State.frameWhole (s : State) (i : Nat) (f : StreamFrame) : State × StreamFrame :=
  let h := s.fld (FE_STRM_SIZE_HEIGHT i)
  if f.completeAt.isNone ∧ f.whole (s.lineLength i) h then
    let f := { f with completeAt := some s.tb.now }
    (if s.inPair then s.sendTdm (.ingest (.frame i f.ts (f.digest h))) else s, f)
  else (s, f)

/-- Put a frame back among a stream's frames. -/
def Stream.setFrame (x : Stream) (f : StreamFrame) : Stream :=
  { x with frames := if x.frames.any fun g => decide (g.ts = f.ts) then x.frames.map fun g => if g.ts = f.ts then f else g else x.frames ++ [f] }

/-- What the partner reported of line `k`: its digest + 1, 0 where it reported none (R181). -/
def StreamFrame.partnerLine (f : StreamFrame) (k : Nat) : Nat := sget zeroNat f.partner k

/-- A wheeler whose line differs from the leader's asks for the leader's (R182). -/
def State.checkLine (s : State) (i : Nat) (f : StreamFrame) (k : Nat) : State :=
  if s.role ≠ tdmWheeler ∨ f.lineDone (s.lineLength i) k = false ∨ f.partnerLine k = 0 ∨ f.partnerLine k = f.lineDigest k + 1 then s
  else s.sendTdm (.ingest (.request i f.ts k))

/-- A line is whole: its digest goes to the partner (R181). -/
def State.lineWhole (s : State) (i : Nat) (f : StreamFrame) (k : Nat) : State :=
  if s.inPair then (s.sendTdm (.ingest (.line i f.ts k (f.lineDigest k)))).checkLine i f k else s

/-- Ask the partner for the lines of an ended frame that are missing here and held there (R182). -/
def State.askLines (s : State) (i : Nat) (f : StreamFrame) : State :=
  if s.inPair = false then s
  else
    let len := s.lineLength i
    let want := (f.partner.map fun kv => kv.1).filter fun k => !f.lineDone len k
    want.foldl (fun s k => s.sendTdm (.ingest (.request i f.ts k))) s

/-- Frames before timestamp `ts` have ended (R182). -/
def State.endFrames (s : State) (i : Nat) (ts : Nat) (marker : Bool) : State :=
  let x := s.stream i
  let ends (f : StreamFrame) : Bool := !f.ended && (marker || decide (f.ts ≠ ts))
  let done := x.frames.filter ends
  let s := s.setStream i { x with frames := x.frames.map fun f => if ends f then { f with ended := true } else f }
  done.foldl (fun s f => s.askLines i f) s

/-- A packet's rows enter its frame (R168, R169, R181). -/
def State.storePacket (s : State) (i : Nat) (p : StreamPacket) : State :=
  let ts := p.ts.toNat
  let x := s.stream i
  let old := match x.frames.find? fun f => f.ts = ts with | some f => f | none => { ts := ts, capture := captureTime ts s.tb.now }
  let f := old.store p.rows
  let s := (newLines (s.lineLength i) old f p.rows).foldl (fun s k => s.lineWhole i f k) s
  let r := s.frameWhole i f
  (r.1.setStream i ((r.1.stream i).setFrame r.2)).endFrames i ts p.marker

/-- A packet of stream `i` (R165 – R168). -/
def State.streamPacket (s : State) (i : Nat) (p : StreamPacket) : State :=
  if s.bit (FE_STRM_CTRL_EN i) = false ∨ (p.secondary ∧ s.bit (FE_STRM_CTRL_DUAL i) = false) then s
  else if p.agrees = false then
    (if s.bit (FE_STRM_STAT_UNSUP i) then s else (s.raise (FE_STRM_STAT_UNSUP i)).streamState i 2)
  else if p.full then s.raise (FE_STRM_STAT_OVFL i)
  else
    let s := s.expireMissing i
    let x := s.stream i
    let n := x.seqOf p.seq.toNat
    let s := (s.countPath i p.secondary n).raise (FE_STRM_STAT_ACTIVE i)
    let s := s.setStream i { s.stream i with last := s.tb.now }
    if x.isNew n = false then s
    else (s.setStream i ((s.stream i).took n s.tb.now)).storePacket i p

/-- Stream `i` has delivered no packet for 100 ms (R171). -/
def State.streamLost (s : State) (i : Nat) : State :=
  if s.bit (FE_STRM_CTRL_EN i) = false ∨ s.bit (FE_STRM_STAT_LOST i) then s
  else
    let s := s.runTo ((s.stream i).last + 100 * unitMs)
    ((s.raise (FE_STRM_STAT_LOST i)).clear (FE_STRM_STAT_ACTIVE i)).streamState i 1

/-- A write of FE_STRM_CTRL: setting EN starts reception afresh and clears UNSUP. -/
def State.writeStrmCtrl (s : State) (i v : Nat) : State :=
  let was := s.bit (FE_STRM_CTRL_EN i)
  if was then s.setFld (FE_STRM_CTRL_EN i) (bitsOf v 0 1)
  else
    let s := s.setReg (FE_STRM_CTRL i) (bitsOf v 0 7)
    if bitB v 0 then (s.clear (FE_STRM_STAT_UNSUP i)).setStream i { last := s.tb.now } else s

/-- The stored form of a whole frame, keyed 4 × pixel + component (R161, R166). -/
def imageOf (f : VideoFormat) (w h : Nat) (x : StreamFrame) : Sparse Nat :=
  (List.range h).foldl (fun m y =>
    let line := lineBytesOf (sget noChunks x.lines y)
    (List.range w).foldl (fun m c =>
      let px := f.pixel line w c
      (List.range 4).foldl (fun m k => sput zeroNat m (4 * (y * w + c) + k) (px.getD k 0)) m) m) []

/-- The capture time that a layer has latched. -/
def Layer.captured (l : Layer) : Nat := match l.latched with | .image c _ => c + 1 | _ => 0

/-- The frame may be latched at boundary time `b` (R170, R185). -/
def State.frameQualifies (s : State) (i b : Nat) (f : StreamFrame) : Bool :=
  let cut := b - 2 * unitUs
  decide (f.capture + s.fld (FE_STRM_LAT_v i) * unitUs ≤ b)
    && (match f.completeAt with | some t => decide (t < cut) | none => false)
    && (s.role ≠ tdmLeader ||
        (match f.confirmed with | some (t, d) => decide (t < cut) && decide (d = f.digest (s.fld (FE_STRM_SIZE_HEIGHT i))) | none => false))

/-- The newest of the frames by capture time. -/
def newestFrame (fs : List StreamFrame) : Option StreamFrame :=
  fs.foldl (fun m f => match m with | none => some f | some g => if g.capture < f.capture then some f else some g) none

/-- Layer `id` latches frame `f` of its stream; frames captured before it are discarded (R170, R171, R180). -/
def State.latchFrame (s : State) (id : Nat) (l : Layer) (f : StreamFrame) : State :=
  let i := l.srcIndex
  let img := imageOf (s.videoFormat i) l.width l.height f
  let s := (s.clearPoison l.addr l.size).setLayer id (some { l with latched := .image f.capture img, gen := (l.gen + 1) % 2 ^ 32, clear := false })
  let x := s.stream i
  let s := s.setStream i { x with frames := x.frames.filter fun g => decide (f.capture ≤ g.capture) }
  if s.bit (FE_STRM_STAT_LOST i) then (s.clear (FE_STRM_STAT_LOST i)).streamState i 0 else s

/-- The latch of a stream layer at boundary time `b` (R170, R171, R180). -/
def State.latchStream (s : State) (id : Nat) (l : Layer) (b : Nat) : State :=
  let i := l.srcIndex
  match newestFrame ((s.stream i).frames.filter fun f => s.frameQualifies i b f && decide (l.captured < f.capture + 1)) with
  | some f => s.latchFrame id l f
  | none =>
    if s.bit (FE_STRM_STAT_LOST i) ∧ s.bit (FE_STRM_CTRL_LOSS i) then s.setLayer id (some { l with clear := true }) else s

/-! ### sACN (R172 – R175) -/

def uniDflt (_ : Nat) : Universe := {}

def State.uni (s : State) (u : Nat) : Universe := sget uniDflt s.fe.universes u

def State.setUni (s : State) (u : Nat) (x : Universe) : State := { s with fe := { s.fe with universes := sput uniDflt s.fe.universes u x } }

/-- Universe `u` is registered to a type 2 layer. -/
def State.uniKnown (s : State) (u : Nat) : Bool :=
  s.fe.layers.any fun kv => match kv.2 with | some l => decide (l.typ = 2 ∧ l.srcIndex ≤ u ∧ u < l.srcIndex + l.srcCount) | none => false

/-- The source that a universe takes data from: the highest priority, then the lowest CID (R173). -/
def bestSource (xs : List SacnSource) : Option SacnSource :=
  xs.foldl (fun m x =>
    match m with
    | none => some x
    | some y => if y.prio < x.prio ∨ (y.prio = x.prio ∧ x.cid < y.cid) then some x else some y) none

/-- SACN_SOURCE (R186): the first 8 bytes of the CID, or 0. -/
def State.sacnEvent (s : State) (u cause cid : Nat) : State :=
  s.postNow 0x23 0 0 [(16, 2, u), (18, 1, cause), (20, 8, leAt (beBytes 16 cid) 0 8), (28, 4, s.tickNo % 2 ^ 32)]

/-- Data takes effect in a universe. -/
def Universe.took (x : Universe) (now : Nat) (slots : List Byte) : Universe := { x with data := x.data ++ [(now, slots)] }

/-- The slots of a lost universe under FE_SACN_CTRL.LOSS 1. -/
def zeroSlots : List Byte := List.replicate 512 0

/-- Choose the source again (R173, R175): a change of source is posted and its data is the universe's; without a source the
universe is lost. -/
def State.selectSource (s : State) (u : Nat) : State :=
  let x := s.uni u
  match bestSource x.sources with
  | none =>
    if x.lost ∨ x.selected.isNone then s
    else
      let y := { x with lost := true, selected := none }
      (s.setUni u (if s.bit FE_SACN_CTRL_LOSS then y.took s.tb.now zeroSlots else y)).sacnEvent u 1 0
  | some b =>
    if x.selected = some b.cid then s
    else
      let y := { x with lost := false, selected := some b.cid }
      (s.setUni u (if b.slots = [] then y else y.took s.tb.now b.slots)).sacnEvent u 0 b.cid

/-- Replace a source. -/
def Universe.setSource (x : Universe) (c : SacnSource) : Universe :=
  { x with sources := if x.sources.any fun y => decide (y.cid = c.cid) then x.sources.map fun y => if y.cid = c.cid then c else y else x.sources ++ [c] }

/-- A sequence number that R173 discards after `last`. -/
def seqOld (last v : Nat) : Bool := let d := sext 8 (v + 256 - last); decide (-19 ≤ d ∧ d ≤ 0)

/-- The data of the universe's selected source takes effect. -/
def State.sourceTook (s : State) (u : Nat) (c : SacnSource) : State :=
  let x := (s.uni u).setSource c
  s.setUni u (if x.selected = some c.cid then x.took s.tb.now c.slots else x)

/-- A source of universe `u` is lost. -/
def State.dropSource (s : State) (u cid : Nat) : State :=
  let x := s.uni u
  (s.setUni u { x with sources := x.sources.filter fun y => decide (y.cid ≠ cid) }).selectSource u

/-- An accepted data packet. -/
def State.sacnData (s : State) (u : Nat) (p : SacnPacket) (old : Option SacnSource) : State :=
  let base : SacnSource := old.getD { cid := p.cid.toNat, seq := 0, prio := 0, last := 0 }
  let c := { base with seq := p.seq.toNat, prio := p.priority.toNat, last := s.tb.now }
  let s := if p.syncAddress.toNat ≠ 0 then s.setUni u ((s.uni u).setSource { c with held := some (p.syncAddress.toNat, p.slots) })
    else s.sourceTook u { c with slots := p.slots, held := none }
  s.selectSource u

/-- A data packet on media port `port` (R172 – R174). -/
def State.sacnPacket (s : State) (port : Nat) (p : SacnPacket) : State :=
  let u := p.uni.toNat
  if bitB (s.fld FE_SACN_CTRL_PORT_EN) port = false ∨ p.preview ∨ p.startCode ≠ 0 ∨ s.uniKnown u = false then s
  else
    let old := (s.uni u).sources.find? fun y => y.cid = p.cid.toNat
    let stale := match old with | some y => seqOld y.seq p.seq.toNat | none => false
    if stale then s
    else if p.terminated then s.dropSource u p.cid.toNat
    else s.sacnData u p old

/-- The held slots of one universe's source take effect (R174). -/
def State.syncUni (s : State) (cid address u : Nat) : State :=
  match (s.uni u).sources.find? fun y => y.cid = cid with
  | none => s
  | some y =>
    match y.held with
    | none => s
    | some (a, slots) => if a = address then s.sourceTook u { y with slots := slots, held := none } else s

/-- A synchronisation packet (R174). -/
def State.sacnSync (s : State) (port cid address : Nat) : State :=
  if bitB (s.fld FE_SACN_CTRL_PORT_EN) port = false then s
  else (s.fe.universes.map fun kv => kv.1).foldl (fun s u => s.syncUni cid address u) s

/-- A source has been silent for 2.5 s (R173). -/
def State.sacnSilent (s : State) (u cid : Nat) : State :=
  match (s.uni u).sources.find? fun y => y.cid = cid with
  | none => s
  | some y => (s.runTo (y.last + 2500 * unitMs)).dropSource u cid

/-- The newest data of a universe that took effect before `cut`, or what it had latched (R174). -/
def Universe.newest (x : Universe) (cut : Nat) : List Byte :=
  match (x.data.filter fun d => decide (d.1 < cut)).getLast? with
  | some d => d.2
  | none => x.latched

/-- The cells of one universe in row `row` (R174): a slot that no packet carried reads 0. -/
def uniCells (format width row : Nat) (slots : List Byte) (m : Sparse Nat) : Sparse Nat :=
  (List.range width).foldl (fun m c =>
    let v := if format = 1 then byteAt slots c * 257 else byteAt slots (2 * c) * 256 + byteAt slots (2 * c + 1)
    sput zeroNat m (8 * (row * width + c)) v) m

/-- Universe `u` at a latch. -/
def State.latchUni (s : State) (u cut : Nat) : State :=
  let x := s.uni u
  s.setUni u { x with latched := x.newest cut, data := x.data.filter fun d => !decide (d.1 < cut) }

/-- The universes of an sACN layer. -/
def Layer.unis (l : Layer) : List Nat := (List.range l.srcCount).map fun k => l.srcIndex + k

/-- The cells of an sACN layer from what its universes have latched. -/
def State.fillSacn (s : State) (id : Nat) (l : Layer) : State :=
  let cells := (List.range l.srcCount).foldl (fun m k => uniCells l.format l.width k (s.uni (l.srcIndex + k)).latched m) []
  (s.clearPoison l.addr l.size).setLayer id (some { l with latched := .cells cells, gen := (l.gen + 1) % 2 ^ 32 })

/-- The latch of an sACN layer at boundary time `b` (R174, R180). -/
def State.latchSacn (s : State) (id : Nat) (l : Layer) (b : Nat) : State :=
  let cut := b - 2 * unitUs
  let changed := l.unis.any fun u => decide ((s.uni u).newest cut ≠ (s.uni u).latched)
  let s := l.unis.foldl (fun s u => s.latchUni u cut) s
  if changed then s.fillSacn id l else s

/-! ### Value layers at a latch (R176, R180) -/

/-- The latch of a value layer: its cells as the steps have left them. -/
def State.latchValue (s : State) (id : Nat) (l : Layer) : State :=
  (s.clearPoison l.addr l.size).setLayer id (some { l with latched := .cells l.cells, gen := if l.changed then (l.gen + 1) % 2 ^ 32 else l.gen, changed := false })

/-- Action (5) of R70 for one layer at boundary time `b`. -/
def State.latchLayer (s : State) (b : Nat) (id : Nat) : State :=
  match s.layer id with
  | none => s
  | some l =>
    match l.typ with
    | 0 => s.latchHost id l
    | 1 => s.latchStream id l b
    | 2 => s.latchSacn id l b
    | _ => s.latchValue id l

/-- A layer as a frame keeps it. -/
def Layer.lat (l : Layer) : LatLayer :=
  { typ := l.typ, format := l.format, width := l.width, height := l.height, stride := l.stride, guard := l.guard, content := l.latched,
    clear := l.clear }

/-! ### Network cues (R177, R178) -/

/-- A cue that is not applied is counted and posted. -/
def State.dropCue (s : State) (port cause seq : Nat) : State :=
  (s.bumpReg FE_CUE_DROP 1).postNow 0x24 0 0 [(16, 1, port), (17, 1, cause), (20, 4, seq), (28, 4, s.tickNo % 2 ^ 32)]

/-- The cue as a CUE_STEP descriptor that the journal can carry. -/
def cueDesc (b : List Byte) : List Byte :=
  let h := patchBytes (List.replicate 64 (0 : Byte)) 0 (leBytes 1 0x30)
  let h := patchBytes (patchBytes h 16 (leBytes 2 (leAt b 6 2))) 20 (leBytes 4 (leAt b 12 4))
  patchBytes (patchBytes h 24 (leBytes 4 (16 * leAt b 12 4))) 40 (leBytes 8 (leAt b 16 8))

/-- A checked cue is accepted: held, or journalled on the leader of a pair (R178, R445). -/
def State.acceptCue (s : State) (port seq : Nat) (b : List Byte) : State :=
  let s := ({ s with fe := { s.fe with cueSeq := sput (fun _ => (none : Option Nat)) s.fe.cueSeq port (some seq) } }).source (2 + port) seq
  let d : Running := { sq := 0, bytes := cueDesc b, journal := true, data := b.drop 24 }
  if s.role = tdmLeader then s.sendJournal 1 d
  else
    let s : State := if s.role = tdmSolo then s.soloEntry 1 d else s
    s.holdCue (leAt b 6 2) (leAt b 16 8) (cueRecs (leAt b 12 4) (b.drop 24))

/-- The sequence number of a cue, extended by counting the wraps of its port (R137). -/
def State.cueSeqOf (s : State) (port v : Nat) : Int :=
  match sget (fun _ => (none : Option Nat)) s.fe.cueSeq port with
  | some n => extendSeq n v
  | none => (v : Int)

/-- The cue is older than the newest accepted cue of its port (R139). -/
def State.cueOld (s : State) (port : Nat) (n : Int) : Bool :=
  match sget (fun _ => (none : Option Nat)) s.fe.cueSeq port with
  | some m => n < (m : Int)
  | none => false

/-- The header of a network cue is wrong (R177). -/
def cueHeaderBad (b : List Byte) : Bool := leAt b 0 4 ≠ 0x5A4A4355 || byteAt b 4 ≠ 1 || byteAt b 5 ≠ 0

/-- The status of a network cue under the checks of a CUE_STEP. -/
def State.cueStatus (s : State) (b : List Byte) : Option (Nat × Nat) :=
  let c := s.cueChecks (leAt b 6 2) (leAt b 12 4) (b.length - 24) (leAt b 16 8) (if s.journals then s.nextNo else s.stageTick)
  match leastBad c.bad with
  | some o => some (stBadField, o)
  | none => if c.full then some (stNoResource, 0) else c.payload (b.drop 24)

/-- The cause of a failed check: 0 when only TARGET_TICK comes too late, 2 otherwise. -/
def dropCause (st : Nat × Nat) : Nat := if st = (stBadField, 40) then 0 else 2

/-- A network cue datagram on media port `port` (R177, R178). -/
def State.networkCue (s : State) (port dst : Nat) (b : List Byte) : State :=
  if bitB (s.fld FE_CUE_CTRL_PORT_EN) port = false ∨ dst ≠ s.fld FE_CUE_CTRL_PORT ∨ s.follows then s
  else
    let seq := leAt b 8 4
    let n := s.cueSeqOf port seq
    if s.bridleOk (3 + port) 2 1 = false then (s.bridleDeny (3 + port) 1).dropCue port 2 seq
    else if cueHeaderBad b then s.dropCue port 2 seq
    else
      match s.cueStatus b with
      | some st => s.dropCue port (dropCause st) seq
      | none => if s.cueOld port n then s.dropCue port 1 seq else s.acceptCue port n.toNat b

/-! ### The commands -/

/-- NETWORK_CUE_RECEIVE (R178). -/
def execNetworkCueReceive (port : Fin 4) (dstPort : Half) (datagram : List Byte) (s : State) : Res :=
  .next (if s.domOn 10 then s.networkCue port.val dstPort.toNat datagram else s)

/-- STREAM_LOSS_TIMEOUT (R171). -/
def execStreamLossTimeout (i : Fin 16) (s : State) : Res := .next (s.streamLost i.val)

/-- SACN_SOURCE_TIMEOUT (R173). -/
def execSacnSourceTimeout (u : Half) (cid : BitVec 128) (s : State) : Res := .next (s.sacnSilent u.toNat cid.toNat)

end Sys2Proof.Machine
end

