-- ==== Sys2Proof/Machine/Gait.lean ====
section
/-! DEFINITION. The tick grid, the checks that the setting of RUN and a GAIT_CHANGE make, and the change of gait and period
(03_hoofbeat_ticks_and_gaits.md). -/

namespace Sys2Proof.Machine

/-! ### The grid (R59, R60) -/

/-- The shortest and the longest period (R59). -/
def periodMin : Nat := 1041666 * unitNs + 0xAAAAAAAA
def periodMax : Nat := 100000000 * unitNs

/-- A period from its two fields. -/
def periodOf (ns frac : Nat) : Nat := ns * unitNs + frac

/-- The period that the registers hold. -/
def State.periodRegs (s : State) : Nat := periodOf (s.fld TK_PERIOD_NS_v) (s.reg TK_PERIOD_FRAC)

/-- Load both period registers. -/
def State.setPeriodRegs (s : State) (p : Nat) : State := (s.setReg TK_PERIOD_NS (p / unitNs)).setReg TK_PERIOD_FRAC (p % unitNs)

/-- The first instant at or after `t` of the grid of period `p` with phase `ph` (R60). -/
def gridFrom (p ph t : Nat) : Nat := if t ≤ ph then ph else ph + cdiv (t - ph) p * p

/-! ### Raster checks (R82, R271) -/

/-- The gaits, raster sets and period that a check is made against: those in force, or those of a GAIT_CHANGE. -/
structure GaitView where
  loose : Nat → Bool
  raster : Nat → Nat
  period : Nat

/-- The values in force. -/
def State.gaitView (s : State) (p : Nat) : GaitView := { loose := s.loose, raster := s.rasterOf, period := p }

/-- The raster of port `p` under set `r` ends by B + P − TK_REL_GUARD (R82). -/
def State.frameFits (s : State) (p r per : Nat) : Bool :=
  decide (s.fld TK_COLL_OFS_v * unitNs + s.slots p (s.vTotal r * s.hTotal r) + s.fld TK_REL_GUARD_v * unitNs ≤ per)

/-- The checks of R271 of set `r` against port `p`, the frame end excepted. -/
def State.rasterFits (s : State) (p r : Nat) : Bool :=
  decide (3 ≤ s.hSync r) && decide (s.ovhHdr p ≤ s.fld (TM_RST_H0_H_BP r)) && decide (ovhTail < s.fld (TM_RST_H1_H_ACT r))
    && decide (1 ≤ s.vSync r) && decide (s.fld (TM_PORT_EP_COUNT_v p) ≤ s.vAct r * s.fld (TM_RST_EPL_v r))

/-- The ports of a team run at one speed (R256). -/
def State.oneSpeed (s : State) (t : Nat) : Bool :=
  match s.teamPorts t with
  | [] => true
  | p :: ps => ps.all fun q => s.bit (TM_PORT_CFG_SPEED q) == s.bit (TM_PORT_CFG_SPEED p)

/-- Every check of R271 for team `t`. -/
def State.teamFits (s : State) (v : GaitView) (t : Nat) : Bool :=
  s.oneSpeed t && (s.teamPorts t).all fun p => s.rasterFits p (v.raster t) && s.frameFits p (v.raster t) v.period

def teamsAll : List Nat := List.range 16

/-! ### The setting of RUN (R82, R256, R308, R309, R492, R509, R515, R556) -/

/-- The ranges of two enabled ports overlap. -/
def State.rangesMeet (s : State) : Bool :=
  s.portsOn.any fun p => s.portsOn.any fun q => decide (p < q) && overlap (s.portFirst p) (s.fld (TM_PORT_EP_COUNT_v p)) (s.portFirst q) (s.fld (TM_PORT_EP_COUNT_v q))

/-- A range of an enabled port is empty or reaches past the last endpoint. -/
def State.rangeBad (s : State) (p : Nat) : Bool := decide (s.fld (TM_PORT_EP_COUNT_v p) = 0) || decide (epMax < s.portStop p)

/-- A frame with the records of the map in force and no values. -/
def State.mapFrame (s : State) : Frame :=
  { count := segCount s.fe.blocks, images := s.fe.blocks.map fun kv => (kv.1, { spans := kv.2.spans }) }

/-- The range of an sACN port needs a universe above 63,999 under the map in force (R308). -/
def State.universeBad (s : State) (p : Nat) : Bool :=
  s.isSacn p && decide (63999 + 1 < s.fld (TM_SACN_CFG_UNIV_FIRST p) + (s.universesOf s.mapFrame p).length)

/-- The keys that enabled ports of FORMAT 0 need (R515). -/
def State.keysMissing (s : State) : Bool :=
  let ps := s.portsOn.filter fun p => s.fld (TM_TRC_PORT_FORMAT p) = 0
  let dom (p : Nat) : Bool := match s.namedSlot (TKR_PORT_DOM p) with | some i => (s.slot i).live && decide ((s.slot i).kind = 5) | none => false
  let master : Bool := match s.namedSlot TKR_NODE_MASTER with
    | some i => decide ((s.slot i).state = slotActive ∧ (s.slot i).kind = 6) | none => false
  !ps.isEmpty && !(ps.all dom && master)

/-- The domains without which RUN is refused are on (R556): FE_A, FE_B and EGRESS; in BOOT_MODE 0b010 FE_B is off (R559, R591). -/
def State.runDomains (s : State) : Bool := s.domOn 7 && (s.domOn 8 || decide (s.mode = 2)) && s.domOn 9

/-- Setting RUN is refused; `per` is the period it would use. -/
def State.runRefused (s : State) (per : Nat) : Bool :=
  decide (s.svc = 2 ∨ s.svc = 3 ∨ s.svc = 4) || !s.runDomains || s.rangesMeet || s.portsOn.any s.rangeBad || !teamsAll.all s.oneSpeed
    || teamsAll.any (fun t => !s.loose t && !s.teamFits (s.gaitView per) t)
    || s.portsOn.any (fun p => s.isSacn p && !s.loose (s.portTeam p)) || s.portsOn.any s.universeBad || s.keysMissing

/-! ### GAIT_CHANGE (R84 – R87) -/

def gMask (b : List Byte) : Nat := leAt b 16 2
def gGait (b : List Byte) : Nat := leAt b 18 2
def gPeriod (b : List Byte) : Option Nat := if leAt b 20 4 = 0 then none else some (periodOf (leAt b 20 4) (leAt b 24 4))
def gTick (b : List Byte) : Nat := leAt b 32 8
def gRaster (b : List Byte) (t : Nat) : Nat := bitsOf (leAt b 40 8) (4 * t) 4

/-- What a GAIT_CHANGE would put in force. -/
def State.gaitAfter (s : State) (b : List Byte) : GaitView :=
  { loose := fun t => if bitB (gMask b) t then bitB (gGait b) t else s.loose t
    raster := fun t => if bitB (gMask b) t then gRaster b t else s.rasterOf t
    period := (gPeriod b).getD s.tick.period }

/-- A raster check of R82 or R271 fails: a team of the mask that becomes Collected or gets another raster set, and the frame end
of every Collected team. -/
def State.gaitRasterBad (s : State) (b : List Byte) : Bool :=
  let v := s.gaitAfter b
  teamsAll.any fun t =>
    let checked := bitB (gMask b) t && ((s.loose t && !v.loose t) || decide (v.raster t ≠ s.rasterOf t))
    (checked && !s.teamFits v t) || (!v.loose t && (s.teamPorts t).any fun p => !s.frameFits p (v.raster t) v.period)

/-- A team with an sACN port would become Collected (R309). -/
def State.gaitSacnBad (s : State) (b : List Byte) : Bool :=
  s.portsOn.any fun p => s.isSacn p && bitB (gMask b) (s.portTeam p) && !bitB (gGait b) (s.portTeam p)

/-- A new period is out of range (R59, R84). -/
def gPeriodBad (b : List Byte) : Bool := match gPeriod b with | some p => decide (p < periodMin ∨ periodMax < p) | none => false

/-- EFF_TICK lies before the earliest that boundary `first`, the end of tick T, allows (R84). -/
def gTickBad (b : List Byte) (first : Nat) : Bool := decide (gTick b ≠ 0 ∧ gTick b < first + 2)

/-- The checks of a GAIT_CHANGE; a leader tests EFF_TICK again at its commit. -/
def gaitChecks (s : State) (b : List Byte) : OpChecks :=
  { deny := !s.run
    bad := [(18, s.gaitSacnBad b), (20, gPeriodBad b), (32, gTickBad b (if s.journals then s.nextNo else s.stageTick)), (40, s.gaitRasterBad b)]
    full := s.tick.change.isSome }

/-- An accepted GAIT_CHANGE is pending (R85, R86); RESULT is E. -/
def State.gaitEffect (s : State) (d : Running) (_ : List Byte) : State :=
  let b := d.bytes
  let first := s.boundFor d
  if s.run = false then s.finish d stNotPermitted 0
  else if gTickBad b first then s.finish d stBadField 32
  else if s.tick.change.isSome then s.finish d stNoResource 0
  else
    let e := if gTick b = 0 then first + 2 else gTick b
    let c : GaitChange := { mask := gMask b, gait := gGait b, periodNs := leAt b 20 4, periodFrac := leAt b 24 4, raster := leAt b 40 8,
                            effTick := e, fixTick := first }
    (({ s with tick := { s.tick with change := some c } } : State).setReg64 TK_CHG_TICK e).finish d stOk e

/-- The nibbles of `old` with those of `new` for the teams of `mask`. -/
def mixNibbles (mask old new : Nat) : Nat :=
  teamsAll.foldl (fun v t => if bitB mask t then setBits v (4 * t) 4 (bitsOf new (4 * t) 4) else v) old

/-- The bits of `old` with those of `new` for the teams of `mask`. -/
def mixBits (mask old new : Nat) : Nat := teamsAll.foldl (fun v t => if bitB mask t then setBits v t 1 (bitsOf new t 1) else v) old

/-- The pending change is withdrawn (R73) or done: CHG_PEND and TK_CHG_TICK clear. -/
def State.dropChange (s : State) : State := ({ s with tick := { s.tick with change := none } } : State).setReg64 TK_CHG_TICK 0

/-- Action (3) of R70: the change whose effective tick begins at this boundary. -/
def State.applyChange (s : State) (c : GaitChange) : State :=
  let s := s.dropChange
  let s := s.setReg TK_GAIT (mixBits c.mask (s.reg TK_GAIT) c.gait)
  let s := s.setReg64 TM_TEAM_RST (mixNibbles c.mask (s.reg64 TM_TEAM_RST) c.raster)
  if c.periodNs = 0 then s
  else
    let p := periodOf c.periodNs c.periodFrac
    ({ s with tick := { s.tick with period := p } } : State).setPeriodRegs p

/-- GAIT_CHANGED (R637), once the re-alignment tick's length is known. -/
def State.postGait (s : State) (c : GaitChange) : State :=
  s.postNow 0x1B 0 0 [(16, 2, c.mask), (18, 2, Nat.land c.gait c.mask), (20, 4, s.tick.period / unitNs), (24, 4, s.reg TK_REALIGN_NS), (28, 4, s.tick32)]

/-- GAIT_CHANGE (R84, R85). -/
def execGaitChange (r : Fin 32) (s : State) : Res := .next (s.runOp r.val 0x38 noPayload gaitChecks noReserve State.gaitEffect)

end Sys2Proof.Machine
end

