-- ==== Sys2Proof/Machine/Stage.lean ====
section
/-! DEFINITION. Register values as they are stored: the ranges to which writes are clamped, RWT values taking effect (R9, R14), and
REG_STAGE (R118). -/

namespace Sys2Proof.Machine

/-! ### Ranges -/

/-- A range to which a field is clamped as it is written: the register (base of its array), the field, and its limits. -/
structure Range where
  base : Nat
  lo : Nat
  w : Nat
  min : Nat
  max : Nat

/-- The ranges of the register tables, tick unit to egress. -/
def rangesA : List Range := [
  ⟨TB_SLEW, 0, 9, 1, 500⟩, ⟨TK_PHASES, 0, 10, 100, 800⟩, ⟨TK_PHASES, 16, 10, 850, 990⟩, ⟨TK_REL_GUARD, 0, 18, 2000, 250000⟩,
  ⟨HIF_SQ_SIZE 0, 0, 5, 6, 16⟩, ⟨HIF_CQ_SIZE 0, 0, 5, 6, 16⟩, ⟨HIF_EQ_SIZE 0, 0, 5, 6, 16⟩, ⟨CRB_CORR_TAU, 0, 16, 10, 65535⟩,
  ⟨CRB_RISE, 0, 17, 0, 65536⟩, ⟨TM_PORT_WM 0, 0, 8, 16, 224⟩, ⟨TM_RST_EPL 0, 0, 13, 1, 4096⟩, ⟨TM_TRC_MTU, 0, 14, 1500, 9000⟩,
  ⟨DMX_TIMING 0, 0, 16, 12, 1000⟩, ⟨DMX_TIMING 0, 16, 16, 92, 1000⟩]

/-- The rest. -/
def rangesB : List Range := [
  ⟨PHP_WIN, 0, 16, 16, 65535⟩, ⟨MTR_SAVE_SECT, 0, 13, 0, 4096⟩, ⟨MTR_SAVE_INTV, 0, 12, 10, 3600⟩, ⟨FAR_FT_PERIOD, 0, 12, 10, 4000⟩,
  ⟨TDM_HOLD, 0, 8, 12, 96⟩, ⟨TDM_SEARCH_MS, 0, 16, 1100, 60000⟩, ⟨TDM_LR_TMO, 0, 10, 20, 1000⟩, ⟨MEM_SCRUB_DRAM, 0, 20, 600, 604800⟩,
  ⟨MEM_SCRUB_SRAM, 0, 17, 60, 86400⟩, ⟨MEM_HDL_WDT, 0, 16, 1000, 50000⟩, ⟨TKR_GROOM, 0, 10, 1, 600⟩, ⟨TKR_GRACE, 0, 17, 0, 86400⟩,
  ⟨TKR_KEY_LEAD, 0, 8, 2, 255⟩, ⟨IMG_TRIAL, 0, 16, 60, 65535⟩, ⟨LBK_MPG_FREQ, 0, 17, 40000, 70000⟩]

/-- One range applied to a word of register `base`. -/
def Range.clamp (r : Range) (base v : Nat) : Nat := if r.base = base then setBits v r.lo r.w (clampN r.min r.max (bitsOf v r.lo r.w)) else v

/-- What a write stores beside the plain ranges: TB_PPS_OUT_OFS (±500,000,000), TM_PORT_WM.CWM (8 through LWM − 8),
MTR_SAVE_SECT (1 reads back as 2), TM_SACN_CFG.PRIORITY (at most 200). -/
def clampOther (base v : Nat) : Nat :=
  if base = TB_PPS_OUT_OFS then toField 32 (clampI (-500000000) 500000000 (sext 32 v))
  else if base = TM_PORT_WM 0 then setBits v 8 8 (clampN 8 (bitsOf v 0 8 - 8) (bitsOf v 8 8))
  else if base = MTR_SAVE_SECT ∧ bitsOf v 0 13 = 1 then setBits v 0 13 2
  else if base = TM_SACN_CFG 0 then
    (let f := TM_SACN_CFG_PRIORITY 0
     setBits v f.lo f.w (min 200 (bitsOf v f.lo f.w)))
  else v

/-- The word that a write of `v` leaves in a register (the base of its array). -/
def clampWord (base v : Nat) : Nat := clampOther base ((rangesA ++ rangesB).foldl (fun v r => r.clamp base v) v)

/-- The base of the array that holds the register at `off`, with its index and word. -/
def baseOf (off : Nat) : Nat × Nat × Nat := match regAt off with | some (d, i, w) => (d.base, i, w) | none => (off, 0, 0)

/-- TK_STATUS.CLAMP follows a clamped TK value (R69). -/
def State.noteClamp (s : State) (base v x : Nat) : State := if (base = TK_PHASES ∨ base = TK_REL_GUARD) ∧ v ≠ x then s.raise TK_STATUS_CLAMP else s

/-! ### RWT values -/

/-- The bits of `old` outside `mask` with those of `v` inside it. -/
def mergeBits (mask old v : Nat) : Nat := Nat.lor (Nat.land old (Nat.xor (2 ^ 32 - 1) mask)) (Nat.land v mask)

/-- What follows a value of a register that takes effect: the freeze detector of a team (R279), the PWM period of a feed
(R323). -/
def State.afterRwt (s : State) (base i old : Nat) : State :=
  if base = TM_FRZ_CTRL 0 then
    (if bitB old 0 = s.bit (TM_FRZ_CTRL_EN i) then s else s.freezeEnable i (s.bit (TM_FRZ_CTRL_EN i)))
  else if base = DRV_FEED_PER_NS 0 ∨ base = DRV_FEED_PER_FRAC 0 then s.drvPeriodSet i
  else s

/-- The RWT fields of the register at `off` take the value `v` (R9). -/
def State.putRwt (s : State) (off v : Nat) : State :=
  let b := baseOf off
  let old := s.reg off
  let x := mergeBits (wordAt off).rwt old v
  let y := clampWord b.1 x
  ((s.noteClamp b.1 x y).setReg off y).afterRwt b.1 b.2.1 old

/-- Stage a write: within one tick only the last write of a register stays (R14). -/
def State.stageReg (s : State) (off v : Nat) : State :=
  let late := s.pastCutoff
  let other (x : Staged) : Bool := match x with | .reg o _ l => !decide (o = off ∧ l = late) | .desc .. => true
  { s with staged := s.staged.filter other ++ [.reg off v late] }

/-- The value that a read of an RWT register returns: the staged one (R9). -/
def State.stagedWord (s : State) (off : Nat) : Nat :=
  s.staged.foldl (fun v x => match x with | .reg o y _ => if o = off then mergeBits (wordAt off).rwt v y else v | .desc .. => v) (s.reg off)

/-! ### REG_STAGE (R118) -/

def stageCount (b : List Byte) : Nat := byteAt b 16
def stageOff (b : List Byte) (k : Nat) : Nat := leAt b (24 + 8 * k) 4
def stageVal (b : List Byte) (k : Nat) : Nat := leAt b (28 + 8 * k) 4

/-- The checks of a REG_STAGE: COUNT, the targets, and the bytes after the last pair. -/
def regStageChecks (_ : State) (b : List Byte) : OpChecks :=
  let n := stageCount b
  { bad := (16, decide (n = 0 ∨ 5 < n)) :: ((List.range (min n 5)).map fun k => (24 + 8 * k, !stageTarget (stageOff b k)))
      ++ (List.range 40).map fun i => (24 + i, decide (8 * n ≤ i ∧ byteAt b (24 + i) ≠ 0)) }

/-- The pairs are applied in the order listed. -/
def State.regStageEffect (s : State) (d : Running) (_ : List Byte) : State :=
  ((List.range (stageCount d.bytes)).foldl (fun (s : State) k => s.putRwt (stageOff d.bytes k) (stageVal d.bytes k)) s).done d

/-- REG_STAGE (R118). -/
def execRegStage (r : Fin 32) (s : State) : Res := .next (s.runOp r.val 0xF0 noPayload regStageChecks noReserve State.regStageEffect)

end Sys2Proof.Machine
end

