-- ==== Sys2Proof/Machine/Effects.lean ====
section
/-! DEFINITION. The table of opcodes by what each checks, claims and does: staged descriptors (R114, R70), journal entries (R446) and
waits that end unsatisfied (R131) go through it; NOP, FENCE and TANDEM_ROLE. -/

namespace Sys2Proof.Machine

/-! ### TANDEM_ROLE (R463) -/

def roleAction (b : List Byte) : Nat := byteAt b 16
def rolePeriod (b : List Byte) : Nat := leAt b 24 4
def roleTick (b : List Byte) : Nat := leAt b 32 8

/-- The checks of a TANDEM_ROLE. -/
def roleChecks (s : State) (b : List Byte) : OpChecks :=
  let a := roleAction b
  let p := rolePeriod b
  { bad := [(16, decide (2 < a)), (24, decide (a = 1 ∧ p ≠ 0 ∧ (p < 3600 ∨ 604800 < p))), (32, decide (a = 0 ∧ roleTick b < s.tickNo + 4))]
    full := decide (a = 0) && s.tdm.swap.isSome }

/-- TDM_SWAP (R472): outcome 0 done, 1 postponed, 2 skipped, 3 cancelled. -/
def State.postSwap (s : State) (outcome : Nat) : State :=
  s.postNow 0x6C 0 0 [(16, 1, outcome), (20, 4, s.tdm.postponed), (28, 4, s.tick32)]

/-- No action 0 swap is pending any more; the unit that executed it posts its CMD_RESULT (R463). -/
def State.endSwap (s : State) (st : Nat) : State :=
  match s.tdm.swap with
  | none => s
  | some (d, _) => (({ s with tdm := { s.tdm with swap := none } } : State).clear TDM_STATUS_SWAP_PEND).cmdResult d st 0

/-- The leader tells the wheeler a swap tick, or that a swap is cancelled (R437). -/
def State.sendRole (s : State) (q : Option Nat) : State := if s.role = tdmLeader then s.sendTdm (.role q) else s

/-- The tick of the next swap, as the unit knows it. -/
def State.setSwapTick (s : State) (q : Option Nat) : State :=
  ({ s with tdm := { s.tdm with swapTick := q, postponed := 0 } } : State).setReg64 TDM_SWAP_NEXT (q.getD 0)

/-- A pending action 0 swap is cancelled. -/
def State.cancelSwap (s : State) : State :=
  if s.tdm.swap.isSome then (((s.postSwap 3).endSwap stNotPermitted).setSwapTick none).sendRole none else s.setSwapTick none

/-- A TANDEM_ROLE acts; a wheeler that applies the leader's entry only records it (R446). -/
def State.roleEffect (s : State) (d : Running) (_ : List Byte) : State :=
  let b := d.bytes
  match roleAction b with
  | 0 =>
    if d.journal then s.setSwapTick (some (roleTick b))
    else if s.tdm.swap.isSome then s.finish d stNoResource 0
    else
      let s := (s.finish d stDeferred 0).setSwapTick (some (roleTick b))
      ((({ s with tdm := { s.tdm with swap := some (d, roleTick b) } } : State).raise TDM_STATUS_SWAP_PEND)).sendRole (some (roleTick b))
  | 1 => (s.setReg TDM_SWAP_PER (rolePeriod b)).finish d stOk 0
  | _ => s.cancelSwap.finish d stOk 0

/-! ### The table -/

/-- The checks of an opcode. -/
def opChecks (s : State) (b : List Byte) : OpChecks :=
  match dOpcode b with
  | 0x02 => fenceChecks s b
  | 0x10 => registerChecks s b
  | 0x11 => updateChecks s b
  | 0x12 => retireChecks s b
  | 0x20 => mapChecks s b
  | 0x21 => mapChecks s b
  | 0x28 => colourChecks s b
  | 0x30 => cueStepChecks s b
  | 0x38 => gaitChecks s b
  | 0x40 => curbChecks s b
  | 0x48 => phaseChecks s b
  | 0x50 => driveChecks s b
  | 0x58 => nodeChecks s b
  | 0x60 => meterChecks s b
  | 0x68 => reinstateChecks s b
  | 0x70 => kuChecks s b
  | 0x71 => attestChecks s b
  | 0x78 => chunkChecks s b
  | 0x7C => imageChunkChecks s b
  | 0x80 => roleChecks s b
  | 0xF0 => regStageChecks s b
  | _ => {}

/-- What an opcode claims as it executes. -/
def opReserve (s : State) (d : Running) (data : List Byte) : State :=
  match dOpcode d.bytes with
  | 0x10 => s.registerReserve d data
  | 0x12 => s.retireReserve d data
  | 0x20 => s.mapReserve d data
  | 0x21 => s.mapReserve d data
  | _ => s

/-- What an opcode does when it takes effect.  KEY_UPDATE, ATTEST_REQUEST, IMAGE_CHUNK and METER_CONFIG are local and never staged
here; a FENCE and a NOP may be journalled. -/
def opEffect (s : State) (d : Running) (data : List Byte) : State :=
  match dOpcode d.bytes with
  | 0x02 => s.fenceEffect d data
  | 0x10 => s.registerEffect d data
  | 0x11 => s.updateEffect d data
  | 0x12 => s.retireNow d data
  | 0x20 => s.mapEffect d data
  | 0x21 => s.mapEffect d data
  | 0x28 => s.colourEffect d data
  | 0x30 => s.cueEffect d data
  | 0x38 => s.gaitEffect d data
  | 0x40 => s.curbEffect d data
  | 0x48 => s.phaseEffect d data
  | 0x50 => s.driveEffect d data
  | 0x58 => s.nodeEffect d data
  | 0x60 => s.meterEffect d data
  | 0x68 => s.reinstateEffect d data
  | 0x7C => s.beginChunk d data
  | 0x80 => s.roleEffect d data
  | 0xF0 => s.regStageEffect d data
  | _ => s.nopEffect d data

/-- One staged item takes effect (action (4) of R70); a wheeler notes the journal entry that it applies (R137). -/
def State.applyStaged (s : State) (x : Staged) : State :=
  match x with
  | .reg off v _ => s.putRwt off v
  | .desc d data _ _ =>
    let s := opEffect s d data
    if d.journal ∧ d.index ≠ 0 then s.journalDone d.index else s

/-- Everything that is staged takes effect, in the order of R14 (R73). -/
def State.applyAll (s : State) : State := s.staged.foldl State.applyStaged { s with staged := [] }

/-- The item belongs to boundary `n`: it did not miss the cut-off, and a journalled one has its commit boundary (R446). -/
def Staged.now (n : Nat) : Staged → Bool
  | .reg _ _ late => !late
  | .desc _ _ late due => !late && (match due with | some c => decide (c ≤ n) | none => true)

/-- What waits for the boundary after this one no longer counts as late. -/
def Staged.next : Staged → Staged
  | .reg off v _ => .reg off v false
  | .desc d data _ due => .desc d data false due

/-- The staged items of the boundary with number `n` take effect; the rest wait (R70, R71). -/
def State.applyBoundary (s : State) (n : Nat) : State :=
  let now := s.staged.filter fun x => x.now n
  let rest := (s.staged.filter fun x => !x.now n).map Staged.next
  now.foldl State.applyStaged { s with staged := rest }

/-! ### Waits that end unsatisfied (R131) -/

/-- A wait ends unsatisfied: the remaining checks come first (R639), then FENCE_TIMEOUT with the fence's value. -/
def State.endWait (s : State) (i : Nat) : State :=
  match (s.sq i).waiting with
  | none => s
  | some w =>
    let s := s.setSq i { s.sq i with waiting := none }
    let d : Running := { sq := i, bytes := w.bytes }
    let s := s.bump HIF_FENCE_STAT_TIMEOUTS 1
    match s.firstCheck d (opChecks s w.bytes) with
    | some (st, res) => s.failDesc d st res
    | none => s.failDesc d stFenceTimeout (s.fenceShown (dFenceId w.bytes))

/-- The wait of ring `i` has a timeout: HIF_SQ_FTMO is not 0, and a wait on fence 0 has none once boundaries are generated. -/
def State.waitTimes (s : State) (w : Waiting) : Bool := decide (w.tmo ≠ 0) && !(decide (dFenceId w.bytes = 0) && s.tick.running)

/-- The wait of ring `i` reaches its timeout; one that is satisfied does not. A wait on a broken fence ends at once (R482). -/
def State.waitTimeout (s : State) (i : Nat) : State :=
  match (s.sq i).waiting with
  | none => s
  | some w =>
    if dFenceId w.bytes ∈ s.hif.broken then s.endWait i
    else if s.waitTimes w = false ∨ s.waitDone w.bytes then s else (s.runTo (w.since + w.tmo * unitMs)).endWait i

/-- At a stop every wait on fence 0 ends unsatisfied. -/
def State.endTickWaits (s : State) : State :=
  (List.range 32).foldl (fun (s : State) i =>
    match (s.sq i).waiting with
    | none => s
    | some w => if dFenceId w.bytes = 0 then s.endWait i else s) s

/-! ### The commands -/

/-- NOP (R116). -/
def execNop (r : Fin 32) (s : State) : Res := .next (s.runOp r.val 0x01 noPayload (fun _ _ => {}) noReserve State.nopEffect)

/-- FENCE (R134). -/
def execFence (r : Fin 32) (s : State) : Res := .next (s.runOp r.val 0x02 noPayload fenceChecks noReserve State.fenceEffect)

/-- FENCE_WAIT_TIMEOUT (R131). -/
def execFenceWaitTimeout (r : Fin 32) (s : State) : Res := .next (s.waitTimeout r.val)

/-- The oldest TANDEM_ROLE of ring `r` executes when its ACTION satisfies `p`. -/
def State.runRole (s : State) (r : Nat) (p : Nat → Bool) : State :=
  match s.takeRunning r 0x80 with
  | none => s
  | some d => if p (roleAction d.bytes) then s.runOp r 0x80 noPayload roleChecks noReserve State.roleEffect else s

/-- TANDEM_ROLE_SWAP (R463): ACTION 0, and an ACTION out of range, which its checks refuse. -/
def execTandemRoleSwap (r : Fin 32) (s : State) : Res := .next (s.runRole r.val fun a => decide (a ≠ 1 ∧ a ≠ 2))

/-- TANDEM_ROLE_PERIOD (R463). -/
def execTandemRolePeriod (r : Fin 32) (s : State) : Res := .next (s.runRole r.val fun a => decide (a = 1))

/-- TANDEM_ROLE_CANCEL (R463). -/
def execTandemRoleCancel (r : Fin 32) (s : State) : Res := .next (s.runRole r.val fun a => decide (a = 2))

end Sys2Proof.Machine
end

