-- ==== Sys2Proof/Machine/Tandem.lean ====
section
/-! DEFINITION. The Tandem pair (17_tandem_pair.md): received messages, roles, the heartbeat and the alive line, takeover and the
journal. -/

namespace Sys2Proof.Machine

/-! ### Reception (R434, R435, R516) -/

/-- The message types of R437 by number. -/
def TdmMsg.typ : TdmMsg → Nat
  | .hello _ => 0x01
  | .hb _ => 0x02
  | .jrn _ => 0x10
  | .jack _ => 0x11
  | .jcmt _ _ => 0x12
  | .latch _ => 0x20
  | .cset _ _ _ => 0x21
  | .sig _ _ => 0x22
  | .shd _ _ _ _ => 0x23
  | .fault _ _ => 0x24
  | .ingest _ => 0x30
  | .role _ => 0x40
  | .state _ => 0x41
  | .join _ => 0x42

def noPartial (_ : Nat) : Option Partial := none

/-- The message in assembly on lane `k` becomes `x`. -/
def State.setAsm (s : State) (k : Nat) (x : Option Partial) : State := { s with tdm := { s.tdm with asm := sput noPartial s.tdm.asm k x } }

/-- The replay window after an accepted SEQ: the highest, and those accepted among the 4,096 below it. -/
def windowAfter (top : Nat) (seen : List Nat) (q : Nat) : Nat × List Nat :=
  let m := max top q
  (m, (top :: q :: seen).eraseDups.filter fun x => decide (x ≠ m ∧ m < x + 4096))

/-- The replay check of a frame (R516): the record after it, none where the frame is discarded.  Only a HELLO raises BOOTC. -/
def TdmHead.fresh (h : TdmHead) (rx : Option (Nat × Nat × List Nat)) (hello : Bool) : Option (Nat × Nat × List Nat) :=
  let first := if hello then some (h.bootc, h.seq, []) else none
  match rx with
  | none => first
  | some (b, top, seen) =>
    if b < h.bootc then first
    else if h.bootc < b ∨ h.seq = top ∨ h.seq ∈ seen ∨ h.seq + 4096 ≤ top then none
    else
      let w := windowAfter top seen h.seq
      some (b, w.1, w.2)

/-- What a frame does to the assembly of its lane (R435): the state of the assembly, and whether a whole message is there. -/
def TdmHead.assemble (h : TdmHead) (typ now : Nat) (x : Option Partial) : Option Partial × Bool :=
  let start : Option Partial × Bool :=
    if h.ofs ≠ 0 then (none, false)
    else if h.more then (some { typ := typ, len := h.len, next := h.part, at' := now }, false) else (none, decide (h.part = h.len))
  match x with
  | none => start
  | some p =>
    if p.typ = typ ∧ p.len = h.len ∧ p.next = h.ofs then
      (if h.more then (some { p with next := h.ofs + h.part, at' := now }, false) else (none, decide (h.ofs + h.part = h.len)))
    else start

/-- A Tandem frame arrives; `act` is what its message does once it is whole. -/
def State.receive (s : State) (h : TdmHead) (typ : Nat) (act : State → State) : State :=
  if s.bit TDM_CTRL_EN = false ∨ s.pairLive = false then s
  else if h.tag = false then s.setAsm h.lane.val none
  else
    match h.fresh s.tdm.rx (decide (typ = 0x01)) with
    | none => s
    | some w =>
      let s : State := { s with tdm := { s.tdm with rx := some w } }
      let r := h.assemble typ s.tb.now (sget noPartial s.tdm.asm h.lane.val)
      let s := s.setAsm h.lane.val r.1
      if r.2 then act s else s

/-- FRAGMENT_TIMEOUT (R435): 1 ms after its latest fragment a partial message is discarded. -/
def State.fragmentLate (s : State) (k : Nat) : State :=
  match sget noPartial s.tdm.asm k with
  | none => s
  | some p => (s.runTo (p.at' + unitMs)).setAsm k none

/-! ### Events and roles (R441 – R444, R472) -/

/-- TDM_LINK: a lane, or 2 for the alive line. -/
def State.postLink (s : State) (lane : Nat) (up : Bool) : State := s.postNow 0x6A 0 0 [(16, 1, lane), (17, 1, b2n up), (28, 4, s.tick32)]

/-- TDM_RESYNC: phase 0 started, 1 joined, 2 failed; cause 1 set-up digest, 2 no convergence. -/
def State.postResync (s : State) (phase cause : Nat) : State :=
  s.postNow 0x6B 0 0 [(16, 1, phase), (17, 1, cause), (20, 4, s.tdm.rounds), (24, 4, s.reg64 TDM_RS_BYTES / 2 ^ 20), (28, 4, s.tick32)]

/-- TDM_VERSION: mode 0 full, 1 mirror-only, 2 not paired. -/
def State.postVersion (s : State) (mode : Nat) (m : Hello) : State :=
  s.postNow 0x6E 0 0 [(16, 1, mode), (20, 1, m.cgen), (22, 2, m.arith), (28, 4, s.tick32)]

/-- The epoch of a new leader (R444): one more than the highest known. -/
def State.nextEpoch (s : State) : Nat :=
  let e := s.fld TDM_EPOCH_v
  let e := match s.tdm.partner.epoch with | some x => epochMax e x | none => e
  let e := match s.tdm.heard with | some x => epochMax e x | none => e
  (e + 1) % 65536

/-- The unit's epoch rises. -/
def State.raiseEpoch (s : State) : State := s.setFld TDM_EPOCH_v s.nextEpoch

/-- The role becomes `new`; a unit that was not leader and becomes it raises its epoch; TDM_ROLE is posted with `cause`. -/
def State.setRole (s : State) (new cause : Nat) : State :=
  let old := s.role
  if old = new then s
  else
    let s := if (new = tdmLeader ∨ new = tdmSolo) ∧ s.journals = false then s.raiseEpoch else s
    (s.setFld TDM_STATE_v new).postNow 0x68 0 0
      [(16, 1, old), (17, 1, new), (18, 1, cause), (20, 2, s.fld TDM_EPOCH_v), (24, 4, s.reg TDM_JRN_LAST), (28, 4, s.tick32)]

/-- Mirror-only mode (R469). -/
def State.mirrorOnly (s : State) : Bool := s.bit TDM_STATUS_MODE

/-! ### Transmit progress (R437) -/

/-- The segments whose part on port `p` is fully transmitted. -/
def State.partsSent (s : State) (f : Frame) (p : Nat) : List Nat :=
  (s.partSegs f p).filter fun g => ((s.port p).units.filter fun u => decide (g ∈ unitSegs u)).all fun u => decide (u ∈ (s.port p).sent)

/-- What HB and FAULT report of a transmitting unit. -/
def State.progress (s : State) : TdmProgress :=
  { tick := s.tickNo
    parts := match s.frameOut with | none => [] | some f => s.portsOn.flatMap fun p => (s.partsSent f p).map fun g => (p, g)
    sync := s.portsOn.filter fun p => (s.port p).sync
    dmx := (List.range 16).filter fun n => (s.dmxPort n).busy }

/-! ### Leaving and losing the pair -/

/-- Segments that wait for the check leave without it (R452). -/
def State.releaseSigned (s : State) : State := s.tm.signed.foldl (fun (s : State) x => s.clearSegment x.1) s

/-- A journal entry commits (R446, R447): its boundary is fixed, it acts on its opcode's state, and TDM_JRN_LAST follows.  Leader's
own items other than cues have acted already. -/
def State.commitEntry (s : State) (e : JournalEntry) (mirrored : Bool) : State :=
  let c := s.commitTick
  let d := { e.d with bound := c, mirrored := mirrored }
  let s := s.journalDone e.index
  if e.origin ≤ 1 then s.commitEffect d d.data opEffect else s

/-- Without a wheeler every entry commits at once (R115, R447). -/
def State.commitPending (s : State) : State :=
  let es := s.tdm.journal
  es.foldl (fun (s : State) e => s.commitEntry e false) { s with tdm := { s.tdm with journal := [] } }

/-- A leader goes on alone: its pending entries commit and its signed segments leave. -/
def State.goSolo (s : State) (cause : Nat) : State :=
  if s.role = tdmLeader then ((s.setRole tdmSolo cause).commitPending).releaseSigned else s

/-- Resynchronisation stops on the leader's side. -/
def State.stopSync (s : State) : State := { s with tdm := { s.tdm with syncing := false, joinAt := none } }

/-- The leader begins a resynchronisation attempt (R468). -/
def State.startSync (s : State) : State :=
  if s.journals then
    (({ s with tdm := { s.tdm with syncing := true, rounds := 0, sent := [], joinAt := none, retryAt := none } } : State).setReg64
      TDM_RS_BYTES 0).postResync 0 0
  else s

/-- Journal entries without a commit boundary are discarded on the wheeler (R447); the index goes on from the last one kept. -/
def State.discardJournal (s : State) : State :=
  let n := match s.tdm.journal with | [] => s.tdm.index | e :: _ => e.index - 1
  { s with tdm := { s.tdm with journal := [], index := n } }

/-- A wheeler leaves the pair's work and waits for state (R442, R468). -/
def State.toResync (s : State) (cause : Nat) : State :=
  let keep (x : Staged) : Bool := match x with | .desc d _ _ _ => !d.journal | .reg .. => true
  let s : State := { s with staged := s.staged.filter keep, tdm := { s.tdm with received := [], joinAt := none, unverifiedAt := none, arb := [] } }
  ((s.discardJournal).setRole tdmResync cause).releaseSigned

/-! ### Takeover (R460) -/

/-- Parts of port `p` that the old leader did not report transmitted go again: in Collected gait the lines whose references have
passed are deferred lines (R272). -/
def State.resumePort (s : State) (f : Frame) (q : TdmProgress) (p : Nat) : State :=
  let x := s.port p
  let parts := if q.tick = s.tickNo then (q.parts.filter fun y => decide (y.1 = p)).map fun y => y.2 else []
  let sent := x.units.filter fun u => (unitSegs u).all fun g => decide (g ∈ parts)
  let passed := ((List.range x.line).filterMap fun n => s.lineUnit f p n).filter fun u => decide (u ∉ sent)
  s.setPort p { x with encoded := parts, dropped := [], sent := sent, sync := decide (q.tick = s.tickNo ∧ p ∈ q.sync),
                       deferred := if s.loose (s.portTeam p) ∨ (s.team (s.portTeam p)).started = false then [] else passed }

/-- A port sends the SYNC frame that the old leader had not sent, when its frame has started. -/
def State.resumeSync (s : State) (p : Nat) : State := if (s.team (s.portTeam p)).started then s.sendSync s.tb.now p else s

/-- In mirror-only mode nothing of the frame in the release tick goes (R470). -/
def State.skipPort (s : State) (f : Frame) (p : Nat) : State :=
  s.setPort p { s.port p with encoded := [], dropped := s.partSegs f p, sync := true, deferred := [] }

/-- The trace ports of a new leader. -/
def State.resumePorts (s : State) (q : TdmProgress) : State :=
  match s.frameOut with
  | none => s
  | some f =>
    if s.mirrorOnly then s.portsOn.foldl (fun (s : State) p => s.skipPort f p) s
    else
      let kept := if q.tick = s.tickNo then (q.parts.map fun y => y.2).eraseDups else []
      let s := s.portsOn.foldl (fun (s : State) p => s.resumePort f q p) s
      let again (g : Nat) : Bool := decide (g ∉ kept) || (s.portsOn.any fun p => decide (g ∈ s.partSegs f p ∧ g ∉ (s.port p).encoded))
      let stay (xs : List Nat) : List Nat := xs.filter fun g => !again g
      let s : State := { s with tm := { s.tm with signed := [], cleared := stay s.tm.cleared, ready := stay s.tm.ready } }
      s.portsOn.foldl State.resumeSync s

/-- A DMX port starts at the first presentation boundary from now (R313). -/
def State.holdDmx (s : State) (t n : Nat) : State := s.setDmx n { s.dmxPort n with ends := max (s.dmxPort n).ends t }

/-- The partner's SESSION counts as the one before the unit's own (R512). -/
def State.ownSession (s : State) : State := { s with tkr := { s.tkr with before := s.tkr.leader } }

/-- The wheeler takes over as leader (R442, R460). -/
def State.takeover (s : State) (cause : Nat) (q : Option TdmProgress) : State :=
  let q := q.getD ((s.tdm.partner.progress).getD { tick := s.tickNo + 1, parts := [], sync := [], dmx := [] })
  let s := ((s.discardJournal).setRole tdmSolo cause).ownSession
  let s := (s.setSwapTick none).resumePorts q
  let s := (List.range 16).foldl (fun (s : State) n => s.holdDmx (s.tick.begin + 1) n) s
  s.resendCmds.phaseTakeover

/-! ### FAULTY (R442, R456) -/

/-- The unit declares itself faulty: FAULT goes with the progress, the alive line stays low. -/
def State.declareFaulty (s : State) (cause : Nat) : State :=
  if s.role = tdmDown ∨ s.role = tdmFaulty then s
  else
    let s := (s.sendTdm (.fault cause s.progress)).setFld TDM_STATUS_FAULT_CAUSE cause
    (({ s with tdm := { s.tdm with alive := false } } : State).stopSync).setRole tdmFaulty 1

/-- A UNIT_FAULT record of the arbitration (R456, R457, R490). -/
def State.unitFault (s : State) : State := s.record (s.errRecord 2 0xFF 2 0 0 0)

/-! ### HELLO (R437, R442, R443, R467, R469) -/

/-- The offsets of an array of registers, in ascending order within it. -/
def RegDesc.offsets (d : RegDesc) : List Nat :=
  let words (a : Nat) : List Nat := (List.range d.words.length).map fun w => a + 4 * w
  match d.dims with
  | [] => words d.base
  | [(st, n)] => (List.range n).flatMap fun i => words (d.base + st * i)
  | (st, n) :: (st2, n2) :: _ => (List.range n).flatMap fun i => (List.range n2).flatMap fun j => words (d.base + st * i + st2 * j)

/-- The registers that the set-up digest leaves out. -/
def setupExcluded : List Nat := [TM_TRC_UNIT, DMX_UID, DMX_UID + 4, TM_TRC_NODE_SEL, TLM_ZONE_SEL]

/-- The words with RW, RWL or RWT fields of a block, with the mask of those fields. -/
def setupWords (b : Nat) : List (Nat × Nat) :=
  (regBlock b).flatMap fun d => d.offsets.filterMap fun o =>
    let w := wordAt o
    let m := Nat.lor (Nat.lor w.rw w.rwl) w.rwt
    if m = 0 ∨ o ∈ setupExcluded then none else some (o, m)

/-- Every such word of the TK, FE, CRB, TM, DRV, PHP, TLM and DMX blocks, in ascending offset. -/
def setupAll : List (Nat × Nat) := ([4, 5, 6, 7, 9, 10, 18].flatMap setupWords).mergeSort fun a b => decide (a.1 ≤ b.1)

/-- The set-up digest (R467): each word contributes its four octets with other fields as 0. -/
def State.setupDigest (s : State) : Nat := crc64 (setupAll.flatMap fun w => leBytes 4 (Nat.land (s.reg w.1) w.2))

/-- The HELLO of the unit. -/
def State.ownHello (s : State) : Hello :=
  { state := s.role, epoch := s.fld TDM_EPOCH_v, cgen := s.fld TDM_VER_CGEN, arith := s.fld TDM_VER_ARITH_ID, digest := s.setupDigest,
    unit := s.fld TM_TRC_UNIT_v, pref := s.bit TDM_CTRL_ROLE_PREF }

/-- A HELLO of a unit that could pair. -/
def State.usable (s : State) (m : Hello) : Bool := decide (m.cgen = s.fld TDM_VER_CGEN ∧ m.digest = s.setupDigest)

/-- The mode that a pair forms in; a change posts TDM_VERSION (R469). -/
def State.formMode (s : State) (m : Hello) : State :=
  let mode := b2n (decide (m.arith ≠ s.fld TDM_VER_ARITH_ID))
  let s : State := { s with tdm := { s.tdm with swapped := s.tb.now } }
  if mode = s.fld TDM_STATUS_MODE then s else (s.setFld TDM_STATUS_MODE mode).postVersion mode m

/-- This unit becomes the leader of a pair that forms (R443). -/
def State.leads (s : State) (m : Hello) : Bool :=
  if s.bit TDM_CTRL_ROLE_PREF = m.pref then decide (s.fld TM_TRC_UNIT_v = 0) else s.bit TDM_CTRL_ROLE_PREF

/-- A unit in SEARCH compares a HELLO. -/
def State.searchHello (s : State) (m : Hello) : State :=
  if m.cgen ≠ s.fld TDM_VER_CGEN then s.postVersion 2 m
  else if m.digest ≠ s.setupDigest then s.postResync 2 1
  else if m.state = tdmSearch then
    (if s.tb.now < s.tdm.searchAt + s.fld TDM_SEARCH_MS_v * unitMs then s
     else
       let s := s.formMode m
       if s.leads m then (s.setRole tdmLeader 0).startSync else s.toResync 0)
  else if m.state = tdmLeader ∨ m.state = tdmSolo then (s.formMode m).toResync 0
  else s

/-- A HELLO arrives: TDM_PVER, what is known of the partner, and what the role makes of it. -/
def State.hearHello (s : State) (m : Hello) : State :=
  let s := (s.setFld ⟨TDM_PVER, 16, 16⟩ m.arith).setFld ⟨TDM_PVER, 0, 8⟩ m.cgen
  let s : State := { s with tdm := { s.tdm with partner := { s.tdm.partner with hello := some m, state := m.state, epoch := some m.epoch } } }
  if s.role = tdmSearch then s.searchHello m
  else if s.journals ∧ m.state = tdmSearch then (if s.usable m then s.formMode m else s).sendTdm (.hello s.ownHello)
  else s

/-- TANDEM_SEARCH_TIMEOUT: no usable HELLO came, and the partner's alive line is stopped or ROLE_PREF is 1. -/
def State.searchEnds (s : State) : State :=
  if s.role ≠ tdmSearch then s
  else
    let s := s.runTo (s.tdm.searchAt + s.fld TDM_SEARCH_MS_v * unitMs)
    let heard : Bool := match s.tdm.partner.hello with | some m => s.usable m | none => false
    if heard = false ∧ (s.bit TDM_STATUS_ALIVE_IN = false ∨ s.bit TDM_CTRL_ROLE_PREF) then (s.setRole tdmSolo 2).releaseSigned else s

/-! ### Enable and disable (R442) -/

/-- TDM_CTRL.EN becomes 1: DOWN becomes SEARCH.  In TEST the write is dropped (R571). -/
def State.tandemOn (s : State) : State :=
  if s.svc = 2 ∨ s.bit TDM_CTRL_EN then s
  else
    let s := (s.raise TDM_CTRL_EN).clear TDM_STATUS_FAULT_CAUSE
    ({ s with tdm := { s.tdm with searchAt := s.tb.now, hbSent := s.tb.now, partner := {}, asm := [] } } : State).setRole tdmSearch 0

/-- TDM_CTRL.EN becomes 0: DOWN; what a leader had pending commits, what a wheeler had without a commit is discarded. -/
def State.tandemOff (s : State) : State :=
  if s.bit TDM_CTRL_EN = false then s
  else
    let was := s.journals
    let s := if was then s else s.discardJournal
    let s := ((s.clear TDM_CTRL_EN).setRole tdmDown 0).stopSync
    let s := if was then s.commitPending else s
    let s : State := { s with tdm := { s.tdm with alive := false, unverifiedAt := none, arb := [] } }
    s.releaseSigned

/-- A write of TDM_CTRL. -/
def State.writeTdmCtrl (s : State) (v : Nat) : State :=
  let s := (s.setFld TDM_CTRL_ISO_TAKEOVER (bitsOf v 2 1)).setFld TDM_CTRL_ROLE_PREF (bitsOf v 1 1)
  if bitB v 0 then s.tandemOn else s.tandemOff

/-! ### Heartbeats, lanes and the alive line (R436, R438 – R440) -/

def noTime (_ : Nat) : Option Nat := none

/-- 150 µs without a heartbeat or an edge. -/
def hbLimit : Nat := 150 * unitUs

/-- The latest HB on either lane. -/
def State.lastHb (s : State) : Option Nat :=
  match sget noTime s.tdm.hbAt 0, sget noTime s.tdm.hbAt 1 with
  | some a, some b => some (max a b)
  | some a, none => some a
  | none, b => b

/-- LANEk_UP changes, with TDM_LINK. -/
def State.setLane (s : State) (k : Nat) (up : Bool) : State :=
  if s.laneUp k = up then s
  else (s.setFld (if k = 0 then TDM_STATUS_LANE0_UP else TDM_STATUS_LANE1_UP) (b2n up)).postLink k up

/-- The heartbeat leaves on each lane whose link is up, with a HELLO while in SEARCH. -/
def State.hbLanes (s : State) (m : Heartbeat) : State :=
  let s := ((List.range 2).filter fun k => s.linkUp (12 + k)).foldl (fun (s : State) k => s.sendOn k (.hb m)) s
  if s.role = tdmSearch then s.sendTdm (.hello s.ownHello) else s

/-- The heartbeat of this instant: the alive output has its edge, and the message leaves while the link key is live. -/
def State.hbNow (s : State) : State :=
  let live := s.role ≠ tdmFaulty
  let m : Heartbeat := { state := s.role, epoch := s.fld TDM_EPOCH_v, tick := s.tick32, sentAt := s.tb.now / unitNs,
                         progress := if s.journals then some s.progress else none }
  let t : State := { s with tdm := { s.tdm with hbSent := s.tb.now, alive := live && !s.tdm.alive } }
  if t.pairLive then t.hbLanes m else t

/-- TANDEM_HB_SEND: every 50 µs the heartbeat leaves on each lane whose link is up, with a HELLO while in SEARCH, and the alive
output has its edge. -/
def State.hbSend (s : State) : State :=
  if s.bit TDM_CTRL_EN = false then s else (s.runTo (s.tdm.hbSent + 50 * unitUs)).hbNow

/-- The offset of the partner's timebase, in ns; passing TDM_TOFS_MAX posts TDM_TIME (R440). -/
def State.hearOffset (s : State) (ofs : Int) : State :=
  let far := decide (s.fld TDM_TOFS_MAX_v < ofs.natAbs)
  let was := s.tdm.skewed
  let s := ({ s with tdm := { s.tdm with skewed := far } } : State).setReg TDM_TOFS (toField 32 ofs)
  if far ∧ was = false then s.postNow 0x6D 0 0 [(20, 4, toField 32 ofs), (24, 4, s.fld TDM_TOFS_MAX_v), (28, 4, s.tick32)] else s

/-- What the state that a heartbeat reports makes of the unit's own (R442): a wheeler in RESYNC is out of step or wants state, and
a leader gone solo leaves its wheeler to RESYNC. -/
def State.hearState (s : State) (m : Heartbeat) : State :=
  if s.role = tdmIsolated then s.toResync 4
  else if s.role = tdmWheeler ∧ m.state = tdmSolo ∧ m.tick = s.tick32 then s.toResync 3
  else if s.role = tdmLeader ∧ m.state = tdmResync ∧ s.tdm.syncing = false then (s.goSolo 3).startSync
  else if s.role = tdmSolo ∧ m.state = tdmResync ∧ s.tdm.syncing = false ∧ s.tdm.retryAt.isNone then s.startSync
  else s

/-- A heartbeat arrives on lane `k` with the two-way mean offset `ofs`. -/
def State.hearHb (s : State) (k : Nat) (m : Heartbeat) (ofs : Int) : State :=
  let s : State := { s with tdm := { s.tdm with hbAt := sput noTime s.tdm.hbAt k (some s.tb.now),
                                                partner := { s.tdm.partner with state := m.state, epoch := some m.epoch, progress := m.progress } } }
  let s := if s.linkUp (12 + k) then s.setLane k true else s
  ((s.raise TDM_STATUS_PARTNER).hearOffset ofs).hearState m

/-- TANDEM_LANE_CHANGE: a lane goes down with its link, or 150 µs after its latest HB; it is up while both hold. -/
def State.laneChange (s : State) (k : Nat) (up : Bool) : State :=
  match sget noTime s.tdm.hbAt k with
  | none => if up then s else s.setLane k false
  | some t =>
    if up then (if s.linkUp (12 + k) ∧ s.tb.now < t + hbLimit then s.setLane k true else s)
    else if s.linkUp (12 + k) then (s.runTo (t + hbLimit)).setLane k false
    else s.setLane k false

/-- PARTNER_LINK_LOST: 150 µs without HB on either lane. -/
def State.partnerLost (s : State) : State :=
  if s.bit TDM_STATUS_PARTNER = false then s
  else
    let s := s.runTo ((s.lastHb).getD s.tb.now + hbLimit)
    let s := (((s.clear TDM_STATUS_PARTNER).setLane 0 false).setLane 1 false).stopSync
    if s.role = tdmLeader then s.goSolo 4
    else if s.role = tdmWheeler then
      (if s.bit TDM_STATUS_ALIVE_IN then (s.setRole tdmIsolated 4).releaseSigned else s.takeover 2 none)
    else s

/-- ALIVE_LINE_STOPPED: no edge for 150 µs.  An isolated wheeler takes over where ISO_TAKEOVER lets it, or where the link was lost
at this same instant, which R442 gives as one condition. -/
def State.aliveStops (s : State) : State :=
  let s := if s.bit TDM_STATUS_ALIVE_IN then (s.clear TDM_STATUS_ALIVE_IN).postLink 2 false else s
  let together := decide (s.tb.now < (s.lastHb).getD 0 + hbLimit + s.tb.eff)
  if s.role = tdmIsolated ∧ (s.bit TDM_CTRL_ISO_TAKEOVER ∨ together) then s.takeover 2 none else s

/-- ALIVE_LINE_RUNNING: two edges 40 µs to 60 µs apart. -/
def State.aliveRuns (s : State) : State := if s.bit TDM_STATUS_ALIVE_IN then s else (s.raise TDM_STATUS_ALIVE_IN).postLink 2 true

/-! ### The journal on the wheeler (R445, R446) -/

/-- Put an entry in its place by index. -/
def insertEntry (e : JournalEntry) : List JournalEntry → List JournalEntry
  | [] => [e]
  | x :: xs => if e.index < x.index then e :: x :: xs else if e.index = x.index then x :: xs else x :: insertEntry e xs

/-- Acknowledge the entries that continue the journal without a gap. -/
def State.ackEntries (s : State) : Nat → State
  | 0 => s
  | n + 1 =>
    match s.tdm.journal.find? fun e => decide (e.index = s.tdm.index + 1) with
    | none => s
    | some e => ((({ s with tdm := { s.tdm with index := e.index } } : State).sendTdm (.jack e.index)).ackEntries n)

/-- A JRN is stored and answered (R445); entries are taken in index order (R436).  A unit in RESYNC begins with the first it gets. -/
def State.takeJrn (s : State) (e : JournalEntry) : State :=
  if s.role ≠ tdmWheeler ∧ s.role ≠ tdmResync then s
  else
    let base := if s.role = tdmResync ∧ s.tdm.journal = [] then e.index - 1 else s.tdm.index
    if e.index ≤ base then s
    else
      let d := { e.d with journal := true, index := e.index, mirrored := false }
      let s : State := { s with tdm := { s.tdm with index := base, journal := insertEntry { e with d := d, commit := none } s.tdm.journal } }
      s.ackEntries (s.tdm.journal.length)

/-- A node command whose CMD_ID the journal brings is outstanding here too (R302, R303). -/
def State.recordCmd (s : State) (d : Running) (id : Nat) : State :=
  let b := d.bytes
  let image := dOpcode b = 0x7C
  let c : NodeCmd := { d := d, id := id, cmd := if image then 0 else dCmd b, args := if image then [] else dArgs b, image := image,
                       sentTick := s.tickNo }
  let ns := if image then s.nodesSeen (leAt b 48 4) (leAt b 52 4) else s.nodesSeen (dNodeFirst b) (dNodeCount b)
  { s with tm := { s.tm with cmdId := id, cmds := s.tm.cmds ++ [{ c with waiting := ns }] } }

/-- What a committed entry does on the wheeler, by origin (R445, R446): a command to nodes is only recorded, with its CMD_ID. -/
def State.applyEntry (s : State) (e : JournalEntry) (c : Nat) : State :=
  let d := { e.d with bound := c }
  match e.origin with
  | 0 =>
    if dOpcode d.bytes = 0x58 ∨ dOpcode d.bytes = 0x7C then s.journalDone e.index
    else
      let s := opReserve s d d.data
      let n := s.staged.length
      let s := s.commitEffect d d.data opEffect
      if s.staged.length = n then s.journalDone e.index else s
  | 1 => (opEffect s d d.data).journalDone e.index
  | 2 => (s.recordCmd d (leAt d.data 0 4)).journalDone e.index
  | 3 => ({ s with php := { s.php with waiting := s.php.waiting ++ [planFrom d.data] } } : State).journalDone e.index
  | _ => (s.setSwapTick (some (leAt d.data 0 8))).journalDone e.index

/-- A commit boundary comes too late (R442): its staging cut-off has passed. -/
def State.commitLate (s : State) (c : Nat) : Bool := decide (c ≠ 0) && s.run && decide (c < s.stageTick)

/-- The entries at the head of the journal whose commit is known act, in index order (R436). -/
def State.applyHeads (s : State) : Nat → State
  | 0 => s
  | n + 1 =>
    match s.tdm.journal with
    | [] => s
    | e :: rest =>
      match e.commit with
      | none => s
      | some c =>
        if e.index ≤ s.tdm.index then ((({ s with tdm := { s.tdm with journal := rest } } : State).applyEntry e c).applyHeads n) else s

/-- A JCMT arrives: too late, and the wheeler is out of step; in RESYNC it is kept for the join (R468). -/
def State.takeJcmt (s : State) (i c : Nat) : State :=
  if s.role ≠ tdmWheeler ∧ s.role ≠ tdmResync then s
  else
    let mark (e : JournalEntry) : JournalEntry := if e.index = i then { e with commit := some c } else e
    let s' : State := { s with tdm := { s.tdm with journal := s.tdm.journal.map mark } }
    if s.role = tdmResync then s'
    else if s.commitLate c then s.toResync 3
    else s'.applyHeads s'.tdm.journal.length

/-! ### The journal on the leader (R446) -/

/-- A JACK arrives: the entry commits and JCMT carries its boundary. -/
def State.takeJack (s : State) (i : Nat) : State :=
  if s.role ≠ tdmLeader then s
  else
    match s.tdm.journal.find? fun e => decide (e.index = i) with
    | none => s
    | some e =>
      let s : State := { s with tdm := { s.tdm with journal := s.tdm.journal.filter fun x => decide (x.index ≠ i) } }
      (s.sendTdm (.jcmt i s.commitTick)).commitEntry e true

/-- JACK_TIMEOUT: the oldest JACK is overdue 1 ms after its JRN went. -/
def State.jackLate (s : State) : State :=
  if s.role ≠ tdmLeader then s
  else
    match s.tdm.journal with
    | [] => s
    | e :: _ => (s.runTo (e.sentAt + unitMs)).goSolo 3

/-! ### FAULT and ROLE -/

/-- FAULT from the partner (R442). -/
def State.takeFault (s : State) (q : TdmProgress) : State :=
  let s : State := { s with tdm := { s.tdm with partner := { s.tdm.partner with state := tdmFaulty, progress := some q } } }
  if s.role = tdmLeader then (s.goSolo 1).stopSync else if s.role = tdmWheeler then s.takeover 1 (some q) else s

/-- ROLE from the leader (R437). -/
def State.takeRole (s : State) (q : Option Nat) : State := if s.follows then s.setSwapTick q else s

/-! ### The commands -/

/-- TANDEM_ENABLE (R442): a TDM_CTRL write with EN 1. -/
def execTandemEnable (v : Word) (s : State) : Res := .next (s.onBlock TDM_CTRL (s.writeTdmCtrl (setBits v.toNat 0 1 1)))

/-- TANDEM_DISABLE (R442): a TDM_CTRL write with EN 0. -/
def execTandemDisable (v : Word) (s : State) : Res := .next (s.onBlock TDM_CTRL (s.writeTdmCtrl (setBits v.toNat 0 1 0)))

/-- TANDEM_HB_SEND (R438). -/
def execTandemHbSend (s : State) : Res := .next s.hbSend

/-- TANDEM_HB_RECEIVED (R438, R440). -/
def execTandemHbReceived (h : TdmHead) (m : Heartbeat) (offset : Word) (s : State) : Res :=
  .next (s.receive h 0x02 fun s => s.hearHb h.lane.val m offset.toInt)

/-- PARTNER_LINK_LOST (R438). -/
def execPartnerLinkLost (s : State) : Res := .next s.partnerLost

/-- TANDEM_LANE_CHANGE (R436). -/
def execTandemLaneChange (lane : Fin 2) (up : Bool) (s : State) : Res := .next (s.laneChange lane.val up)

/-- ALIVE_LINE_STOPPED (R439). -/
def execAliveLineStopped (s : State) : Res := .next s.aliveStops

/-- ALIVE_LINE_RUNNING (R439). -/
def execAliveLineRunning (s : State) : Res := .next s.aliveRuns

/-- ALIVE_READBACK_FAIL (R439). -/
def execAliveReadbackFail (s : State) : Res := .next (s.declareFaulty 3)

/-- TANDEM_HELLO_RECEIVED (R442). -/
def execTandemHelloReceived (h : TdmHead) (m : Hello) (s : State) : Res := .next (s.receive h 0x01 fun s => s.hearHello m)

/-- TANDEM_SEARCH_TIMEOUT (R442). -/
def execTandemSearchTimeout (s : State) : Res := .next s.searchEnds

/-- FRAGMENT_TIMEOUT (R435). -/
def execFragmentTimeout (lane : Fin 2) (s : State) : Res := .next (s.fragmentLate lane.val)

/-- JRN (R445). -/
def execJrn (h : TdmHead) (e : JournalEntry) (s : State) : Res := .next (s.receive h 0x10 fun s => s.takeJrn e)

/-- JACK (R446). -/
def execJack (h : TdmHead) (index : Nat) (s : State) : Res := .next (s.receive h 0x11 fun s => s.takeJack index)

/-- JACK_TIMEOUT (R442). -/
def execJackTimeout (s : State) : Res := .next s.jackLate

/-- JCMT (R446). -/
def execJcmt (h : TdmHead) (index bound : Nat) (s : State) : Res := .next (s.receive h 0x12 fun s => s.takeJcmt index bound)

/-- FAULT (R442). -/
def execFault (h : TdmHead) (_cause : Nat) (progress : TdmProgress) (s : State) : Res :=
  .next (s.receive h 0x24 fun s => s.takeFault progress)

/-- ROLE (R437). -/
def execRole (h : TdmHead) (swap : Option Nat) (s : State) : Res := .next (s.receive h 0x40 fun s => s.takeRole swap)

end Sys2Proof.Machine
end

