-- ==== Sys2Proof/Machine/Latch.lean ====
section
/-! DEFINITION. The latch of a boundary: the frame with its inputs (stage 1 of R22, action (5) of R70), locators and their
announcement (R294 – R296), the latch record of the leader and what a wheeler makes of it (R183, R184, R226, R253, R343, R363, R388,
R448, R450, R512). -/

namespace Sys2Proof.Machine

/-! ### Inputs -/

/-- The inputs that the previous frame latched. -/
def State.lastInputs (s : State) : Option Inputs := (s.frameAt (s.tickNo - 1)).map fun f => f.inputs

/-- Layers as they stand. -/
def State.latLayers (s : State) : Sparse LatLayer := s.fe.layers.filterMap fun kv => kv.2.map fun l => (kv.1, l.lat)

/-- FE_LAYER_GEN of every layer. -/
def State.gensNow (s : State) : Sparse Nat :=
  s.fe.layers.foldl (fun m kv => match kv.2 with | some l => sput zeroNat m kv.1 l.gen | none => m) []

/-- V of R242 for a set of measured feed phases. -/
def voltsOf (limits : Sparse Nat) (vs : List (Nat × Nat)) : Sparse Nat :=
  vs.foldl (fun m v => sput (fun k => sget limitDflt limits (128 * 5 + k / 4)) m v.1 v.2) []

/-- The limits that the latch fixes; in BOOT_MODE 0b010 Curb runs on feeds 0 and 1 only (R592). -/
def State.curbLimits (s : State) : Sparse Nat :=
  if s.mode = 2 then sfilter (fun k => decide (128 ≤ k ∨ k < 8)) s.crb.limits else s.crb.limits

/-- The inputs that a unit latches from its own state; `b0` is the boundary of the tick before.  A wheeler holds the temperatures
that it latched last (R226). -/
def State.inputsNow (s : State) (b0 : Nat) : Inputs :=
  { blocks := s.fe.blocks, layers := s.latLayers, colour := s.fe.colour
    temps := if s.role = tdmWheeler then (match s.lastInputs with | some x => x.temps | none => s.fe.tempsClosed) else s.fe.tempsClosed
    tempDef := s.fld FE_CLR_TEMP_DEF_v, trims := s.fe.trims, retired := s.fe.retired, limits := s.curbLimits, models := s.crb.models
    curbOn := s.bit CRB_CTRL_EN, rise := s.fld CRB_RISE_v, volts := voltsOf s.crb.limits (s.meterVolts b0 s.crb.limits), corr := s.crb.corr
    drive := chans.foldl (fun m ch => sput zeroNat m ch (s.reg (DRV_CH_CFG ch))) [] }

/-! ### Locators (R294 – R296) -/

def noSparse (_ : Nat) : Sparse Locator := []

/-- The locator of node `n` in a port's list. -/
def findLoc (ls : Sparse Locator) (n : Nat) : Option Locator := (ls.find? fun x => decide (x.1 = n)).map fun x => x.2

/-- The nodes whose locators differ between two lists. -/
def movedNodes (old new : Sparse Locator) : List Nat :=
  ((old.map fun x => x.1) ++ new.map fun x => x.1).eraseDups.filter fun n => decide (findLoc old n ≠ findLoc new n)

/-- A PLAN frame with the locator of a node; a node that the port no longer carries has an empty one. -/
def State.planLoc (s : State) (p gen : Nat) (ls : Sparse Locator) (n : Nat) : State :=
  s.queuePlan p n (locatorRecord n gen ((findLoc ls n).getD { first := 0, count := 0, ofs := 0, comps := 0 }))

/-- The locators of port `p` under the map in force at tick `n`: a change raises the generation and is announced until the release
tick of the first frame that uses it. -/
def State.placeLocs (s : State) (n p : Nat) (new : Sparse Locator) : State :=
  let old := sget noLocs s.tm.locs p
  let ms := movedNodes old.2 new
  if ms = [] then s
  else
    let gen := (old.1 + 1) % 256
    let s := s.setFld (TM_TRC_LOC_GEN_v p) gen
    { s with tm := { s.tm with locs := sput noLocs s.tm.locs p (gen, new),
                               moved := (s.tm.moved.filter fun x => decide (x.1 ≠ p ∨ x.2.1 ∉ ms)) ++ ms.map fun k => (p, k, n + s.depth - 1) } }

/-- Locators that still have to be told, and those of map changes that wait for a later boundary. -/
def State.tellLocs (s : State) : State :=
  let coming := s.locatorsAll (s.fe.changes.foldl (fun m c => c.apply m) s.fe.blocks)
  let s := s.tm.moved.foldl (fun (s : State) x => s.planLoc x.1 (sget noLocs s.tm.locs x.1).1 (sget noLocs s.tm.locs x.1).2 x.2.1) s
  if s.fe.changes = [] then s
  else coming.foldl (fun (s : State) kv =>
    let old := sget noLocs s.tm.locs kv.1
    (movedNodes old.2 kv.2).foldl (fun (s : State) n => s.planLoc kv.1 ((old.1 + 1) % 256) kv.2 n) s) s

/-- Every TM_TRC_PLAN_INTV ticks each locator goes again with the hold rule, and with it keys, drive parameters, phase rules and
presence (R296, R301, R346, R361, R389, R507). -/
def State.refreshPlans (s : State) (n : Nat) : State :=
  if n % max 1 (s.fld TM_TRC_PLAN_INTV_v) ≠ 0 then s
  else
    let port (s : State) (p : Nat) : State :=
      let x := sget noLocs s.tm.locs p
      x.2.foldl (fun (s : State) kv => (s.queuePlan p kv.1 (locatorRecord kv.1 x.1 kv.2 ++ s.holdRecord kv.1)).queueKey kv.1) s
    let s := s.portsOn.foldl port s
    ((s.planStored 0 fun _ => true).refreshPhases).refreshPresence

/-- The locators of a latch at tick `n`. -/
def State.latchLocs (s : State) (n : Nat) : State :=
  let s : State := { s with tm := { s.tm with moved := s.tm.moved.filter fun x => decide (n ≤ x.2.2) } }
  let s := (s.locatorsAll s.fe.blocks).foldl (fun (s : State) kv => s.placeLocs n kv.1 kv.2) s
  (s.tellLocs).refreshPlans n

/-! ### Host layers (R184) -/

/-- The XOR over a layer's tiles read of the CRC of tile index and stored pixels. -/
def Frame.readDigest (f : Frame) (id : Nat) : Nat :=
  (f.read.filter fun kv => decide (kv.1 / 2 ^ 20 = id)).foldl (fun x kv =>
    Nat.xor x (crc64 (leBytes 4 (kv.1 % 2 ^ 20) ++ kv.2.flatMap (leBytes 2)))) 0

/-- Generation and read digest of every host layer of the previous tick's frame. -/
def State.hostDigests (s : State) : List (Nat × Nat × Nat) :=
  match s.frameAt (s.tickNo - 1) with
  | none => []
  | some f => f.inputs.layers.filterMap fun kv => match kv.2.content with | .host gen _ => some (kv.1, gen, f.readDigest kv.1) | _ => none

/-- A host layer differs from the partner's: FE_DIVERGE and LAYER_DIVERGED, and the frame stands outside the run of R459. -/
def State.layerDiverged (s : State) (id cause own theirs : Nat) : State :=
  let lead := s.journals
  let s : State := { s with tdm := { s.tdm with exempt := s.tdm.exempt ++ [s.tickNo - 1] } }
  (s.bumpReg FE_DIVERGE 1).postNow 0x22 0 0
    [(16, 2, id), (18, 1, cause), (20, 4, if lead then own else theirs), (24, 4, if lead then theirs else own), (28, 4, s.tick32)]

/-- The partner's host layers against the unit's own. -/
def State.compareHosts (s : State) (theirs : List (Nat × Nat × Nat)) : State :=
  let own := s.hostDigests
  let of (xs : List (Nat × Nat × Nat)) (id : Nat) : Option (Nat × Nat) := (xs.find? fun x => decide (x.1 = id)).map fun x => x.2
  let ids := ((own ++ theirs).map fun x => x.1).eraseDups
  ids.foldl (fun (s : State) id =>
    match of own id, of theirs id with
    | some a, some b => if a.1 ≠ b.1 then s.layerDiverged id 0 a.1 b.1 else if a.2 ≠ b.2 then s.layerDiverged id 1 a.1 b.1 else s
    | some a, none => s.layerDiverged id 0 a.1 0
    | none, some b => s.layerDiverged id 0 0 b.1
    | none, none => s) s

/-! ### The latch record (R448) -/

/-- Entries that differ from those before. -/
def changedTemps (old new : Sparse (Option Nat)) : List (Nat × Option Nat) :=
  let get (m : Sparse (Option Nat)) (k : Nat) : Option Nat := sget (fun _ => (none : Option Nat)) m k
  ((old.map fun x => x.1) ++ new.map fun x => x.1).eraseDups.filterMap fun k => if get old k = get new k then none else some (k, get new k)

def changedTrims (old new : Sparse Int) : List (Nat × Int) :=
  ((old.map fun x => x.1) ++ new.map fun x => x.1).eraseDups.filterMap fun k =>
    if sget zeroInt old k = sget zeroInt new k then none else some (k, sget zeroInt new k)

/-- What a stream layer has latched: capture time + 1, 0 where it is sampled as transparent. -/
def Layer.named (l : Layer) : Nat := if l.clear then 0 else l.captured

/-- What a universe has latched: source, sequence number and CRC of the slots. -/
def State.uniNamed (s : State) (u : Nat) : Nat × Nat × Nat × Nat :=
  let x := s.uni u
  match x.sources.find? fun c => decide (x.selected = some c.cid) with
  | some c => (u, c.cid, c.seq, crc64 x.latched)
  | none => (u, 0, 0, crc64 x.latched)

def State.layersOf (s : State) (typ : Nat) : List (Nat × Layer) :=
  s.fe.layers.filterMap fun kv => match kv.2 with | some l => if l.typ = typ then some (kv.1, l) else none | none => none

/-- The zones whose presence cells a boundary wrote, against the cells before it. -/
def State.cellsWritten (s : State) (before : Sparse Nat) : List (Nat × Nat × Nat) :=
  match s.presenceLayer with
  | none => []
  | some (_, l) => (List.range (min zoneCount l.width)).filterMap fun z =>
      let f := sget zeroNat l.cells (8 * z)
      let c := sget zeroNat l.cells (8 * (l.width + z))
      if sget zeroNat before (8 * z) = f ∧ sget zeroNat before (8 * (l.width + z)) = c then none else some (z, f, c)

/-- The latch record of the boundary just acted on, for the frame with inputs `x` after one with inputs `y`. -/
def State.latchRecord (s : State) (x y : Inputs) (cells : List (Nat × Nat × Nat)) (session : Bool) : LatchRec :=
  { bound := s.tickNo
    streams := (s.layersOf 1).map fun l => (l.1, l.2.named)
    sacn := ((s.layersOf 2).flatMap fun l => l.2.unis).map s.uniNamed
    hosts := s.hostDigests, temps := changedTemps y.temps x.temps, trims := changedTrims y.trims x.trims
    volts := ((List.range 64).filter fun fp => decide (fp % 4 ≠ 3)).map fun fp => (fp, x.volt fp)
    corr := (List.range 64).map fun fp => (fp, sget zeroI x.corr fp), retired := s.fe.retired, nodes := s.drv.nodes
    ladders := chans.map fun ch => (ch, s.reg (DRV_CH_STAT ch), (s.chan ch).w, (s.chan ch).t0)
    phasors := (List.range 16).flatMap fun f => (s.phaseFeed f).corr.map fun kv => (f, kv.1, kv.2.1, kv.2.2)
    cells := cells, session := if session then some s.session else none }

/-! ### The wheeler and the record -/

/-- The frame of a stream layer that the record names, when the wheeler must still latch it. -/
def State.frameNamed (s : State) (l : Layer) (c : Nat) : Option StreamFrame :=
  (s.stream l.srcIndex).frames.find? fun f => decide (f.capture + 1 = c) && f.completeAt.isSome

/-- The data of a universe that the record names. -/
def State.slotsNamed (s : State) (u crc : Nat) : Option (List Byte) :=
  let x := s.uni u
  if crc64 x.latched = crc then some x.latched else ((x.data.map fun d => d.2).filter fun d => decide (crc64 d = crc)).getLast?

def State.streamHas (s : State) (n : Nat × Nat) : Bool :=
  match s.layer n.1 with
  | none => true
  | some l => n.2 = 0 || l.captured = n.2 || (s.frameNamed l n.2).isSome

/-- The wheeler holds all that the record names. -/
def State.holdsNamed (s : State) (r : LatchRec) : Bool :=
  r.streams.all s.streamHas && r.sacn.all fun u => (s.slotsNamed u.1 u.2.2.2).isSome

/-- A stream layer takes the frame that the record names. -/
def State.takeNamed (s : State) (n : Nat × Nat) : State :=
  match s.layer n.1 with
  | none => s
  | some l =>
    if n.2 = 0 then (if l.latched = .none then s else s.setLayer n.1 (some { l with clear := true }))
    else if l.captured = n.2 then s.setLayer n.1 (some { l with clear := false })
    else match s.frameNamed l n.2 with | some f => s.latchFrame n.1 l f | none => s

/-- A universe takes the slots that the record names. -/
def State.takeSlots (s : State) (n : Nat × Nat × Nat × Nat) : State :=
  match s.slotsNamed n.1 n.2.2.2 with
  | none => s
  | some d => let x := s.uni n.1; s.setUni n.1 { x with latched := d, data := x.data.filter fun y => decide (y.2 ≠ d) }

/-- The sACN layers follow what their universes have latched. -/
def State.takeSacn (s : State) (r : LatchRec) : State :=
  let moved := (r.sacn.filter fun u => decide (crc64 (s.uni u.1).latched ≠ u.2.2.2)).map fun u => u.1
  let s := r.sacn.foldl State.takeSlots s
  (s.layersOf 2).foldl (fun (s : State) l => if l.2.unis.any fun u => decide (u ∈ moved) then s.fillSacn l.1 l.2 else s) s

/-- The presence cells of the record enter the layer. -/
def State.takeCells (s : State) (cs : List (Nat × Nat × Nat)) : State :=
  let s := cs.foldl (fun (s : State) c => s.setZone c.1 { s.zone c.1 with ruled := true, f := c.2.1, c := c.2.2, floor := c.2.1, ceil := c.2.2 }) s
  match s.presenceLayer with
  | none => s
  | some (id, l) =>
    if cs = [] then s
    else
      let l' := cs.foldl (fun (l : Layer) c => l.writeZone c.1 c.2.1 c.2.2) l
      (s.setLayer id (some { l' with changed := true })).latchLayer s.tick.begin id

/-- The ladders of the record. -/
def State.takeLadders (s : State) (ls : List (Nat × Nat × Nat × Nat)) : State :=
  ls.foldl (fun (s : State) x =>
    let s := s.setChan x.1 { s.chan x.1 with w := x.2.2.1, t0 := x.2.2.2 }
    let v := x.2.1
    let get (k : Fld) : Nat := bitsOf v k.lo k.w
    let s := ((s.setFld (DRV_CH_STAT_STATE x.1) (get (DRV_CH_STAT_STATE x.1))).setFld (DRV_CH_STAT_R x.1) (get (DRV_CH_STAT_R x.1))).setFld
      (DRV_CH_STAT_CAUSE x.1) (get (DRV_CH_STAT_CAUSE x.1))
    s.setRetired x.1 (decide (s.ladder x.1 = ldRetired))) s

/-- Everything else of the record takes the place of the wheeler's own. -/
def State.takeRecord (s : State) (r : LatchRec) : State :=
  let s := ((r.streams.foldl State.takeNamed s).takeSacn r).takeCells r.cells
  let s := s.takeLadders r.ladders
  let corr := r.corr.foldl (fun m c => sput zeroI m c.1 c.2) s.crb.corr
  let feeds := r.phasors.foldl (fun m x => sput phaseDflt m x.1 { sget phaseDflt m x.1 with corr := [] }) s.php.feeds
  let feeds := r.phasors.foldl (fun m x =>
    let y := sget phaseDflt m x.1
    sput phaseDflt m x.1 { y with corr := sput (fun _ => ((0, 0) : Int × Int)) y.corr x.2.1 x.2.2 }) feeds
  let tkr := match r.session with | none => s.tkr | some n => { s.tkr with leaderBefore := s.tkr.leader, leader := n }
  let fe := { s.fe with retired := r.retired, trims := r.trims.foldl (fun m t => sput zeroInt m t.1 t.2) s.fe.trims }
  { s with fe := fe, crb := { s.crb with corr := corr }, drv := { s.drv with nodes := r.nodes }, php := { s.php with feeds := feeds }, tkr := tkr }

/-- The frame of the boundary takes its inputs from the record. -/
def State.frameFrom (s : State) (r : LatchRec) : State :=
  match s.frameNow with
  | none => s
  | some f =>
    let temps := r.temps.foldl (fun m t => sput (fun _ => (none : Option Nat)) m t.1 t.2) f.inputs.temps
    let x := { f.inputs with layers := s.latLayers, temps := temps, trims := s.fe.trims, retired := s.fe.retired, corr := s.crb.corr }
    s.setFrame { f with gens := s.gensNow, inputs := { x with volts := voltsOf x.limits r.volts } }

/-- The wheeler latches what the record names as soon as it holds it all (R183, R448). -/
def State.settleLatch (s : State) : State :=
  match s.tdm.latest with
  | none => s
  | some r =>
    if s.role ≠ tdmWheeler ∨ s.tdm.latchGot ∨ r.bound ≠ s.tickNo ∨ s.holdsNamed r = false ∨ s.tick.composing = false ∧ s.tick.composed then s
    else ({ (s.takeRecord r).frameFrom r with tdm := { s.tdm with latchGot := true } } : State)

/-- A record of the boundary of the tick in progress: host layers are compared, and a wheeler asks for universes that it lacks. -/
def State.useLatch (s : State) (r : LatchRec) : State :=
  let s := s.compareHosts r.hosts
  if s.role ≠ tdmWheeler then s
  else
    let s := (r.sacn.filter fun u => (s.slotsNamed u.1 u.2.2.2).isNone).foldl (fun (s : State) u => s.sendTdm (.ingest (.askUniverse u.1))) s
    s.settleLatch

/-- LATCH arrives: that of the next boundary waits for it. -/
def State.hearLatch (s : State) (r : LatchRec) : State :=
  let held : State := { s with tdm := { s.tdm with latest := some r } }
  if s.tick.running = false then held
  else if r.bound = s.tickNo then (if s.frameNow.isSome ∧ s.tick.acting = false then held.useLatch r else held)
  else if r.bound = s.tickNo + 1 then held
  else s

/-- A wheeler composes from its own latch: the streams and universes that it left to the record (R450). -/
def State.latchOwn (s : State) : State :=
  let ids := ((s.layersOf 1) ++ s.layersOf 2).map fun l => l.1
  let s := ids.foldl (fun (s : State) id => s.latchLayer s.tick.begin id) s
  match s.frameNow with
  | none => s
  | some f => s.setFrame { f with gens := s.gensNow, inputs := { f.inputs with layers := s.latLayers } }

/-- The frame of tick `n` is unverified (R450). -/
def State.notVerified (s : State) (n : Nat) : State :=
  { s with tdm := { s.tdm with unverified := s.tdm.unverified ++ [n], unverifiedAt := some s.tb.now } }

/-- LATCH_RECORD_TIMEOUT: TDM_LR_TMO after the boundary the wheeler lacks the record. -/
def State.latchLate (s : State) : State :=
  if s.role ≠ tdmWheeler ∨ s.tdm.latchGot ∨ s.tick.running = false ∨ s.tickNo ∈ s.tdm.unverified then s
  else ((s.runTo (s.tick.begin + s.fld TDM_LR_TMO_v * unitUs)).notVerified s.tickNo).latchOwn

/-- OUT_OF_STEP: a frame is unverified and the partner link has stood for 150 µs since (R442). -/
def State.outOfStep (s : State) : State :=
  match s.tdm.unverifiedAt with
  | none => s
  | some t =>
    if s.role ≠ tdmWheeler then s
    else
      let s := s.runTo (t + 150 * unitUs)
      let s : State := { s with tdm := { s.tdm with unverifiedAt := none } }
      if s.bit TDM_STATUS_PARTNER then s.toResync 3 else s

/-! ### The latch (R22, R70) -/

/-- Layers are latched; a wheeler leaves streams and universes to the record (R183). -/
def State.latchLayers (s : State) (b : Nat) : State :=
  let skip (l : Layer) : Bool := decide (s.role = tdmWheeler) && decide (l.typ = 1 ∨ l.typ = 2)
  (s.fe.layers.filterMap fun kv => match kv.2 with | some l => if skip l then none else some kv.1 | none => none).foldl
    (fun (s : State) id => s.latchLayer b id) s

/-- Action (5) at boundary time `b` after a tick that began at `b0`; `session` tells that SESSION has changed. -/
def State.latchAll (s : State) (b0 b : Nat) (session : Bool) : State :=
  let n := s.tickNo
  let before := match s.presenceLayer with | some (_, l) => l.cells | none => []
  let s := (s.presenceStep n)
  let cells := s.cellsWritten before
  let s := s.enterCues
  let s := if s.fe.discard then s.discardMap else s
  let s := s.latchLayers b
  let s := s.latchLocs n
  let ls : Sparse (Sparse Locator) := s.locatorsAll s.fe.blocks
  let s : State := if s.follows then s else { s with fe := { s.fe with retired := s.retirementSet s.fe.blocks ls } }
  let x := s.inputsNow b0
  let y := s.lastInputs.getD {}
  let count := segCount s.fe.blocks
  let first := match s.fe.lastHeld with | g :: _ => if g < count then g else 0 | [] => 0
  let f : Frame := { tick := n, inputs := x, count := count, first := first, gens := s.gensNow, locs := s.tm.locs }
  let s : State := { s with fe := { s.fe with frames := s.fe.frames ++ [f] } }
  let s := s.announcePhases
  if s.role = tdmLeader then s.sendTdm (.latch (s.latchRecord x y cells session))
  else if s.role = tdmWheeler then s.sendTdm (.latch { bound := n, hosts := s.hostDigests }) else s

/-- A record that came before its boundary is used once the frame is there. -/
def State.latchPending (s : State) : State :=
  match s.tdm.latest with
  | some r => if r.bound = s.tickNo then s.useLatch r else s
  | none => s

/-! ### The commands -/

/-- LATCH (R448). -/
def execLatch (h : TdmHead) (r : LatchRec) (s : State) : Res := .next (s.receive h 0x20 fun s => s.hearLatch r)

/-- LATCH_RECORD_TIMEOUT (R450). -/
def execLatchRecordTimeout (s : State) : Res := .next s.latchLate

/-- OUT_OF_STEP (R442). -/
def execOutOfStep (s : State) : Res := .next s.outOfStep

end Sys2Proof.Machine
end

