-- ==== Sys2Proof/Machine/Sync.lean ====
section
/-! DEFINITION. Ingest repair between the units (R181 – R183), completion sets (R449), and resynchronisation (R466 – R468). -/

namespace Sys2Proof.Machine

/-! ### Ingest messages (R170, R181 – R183) -/

/-- The frame of stream `i` with timestamp `ts`; one that has not begun here begins now. -/
def State.frameOf (s : State) (i ts : Nat) : StreamFrame :=
  ((s.stream i).frames.find? fun f => decide (f.ts = ts)).getD { ts := ts, capture := captureTime ts s.tb.now }

/-- Put a frame of stream `i` back. -/
def State.putFrame (s : State) (i : Nat) (f : StreamFrame) : State := s.setStream i ((s.stream i).setFrame f)

/-- A line digest of the partner: a wheeler asks for a line that differs, and either unit for one that an ended frame lacks. -/
def State.hearLine (s : State) (i ts k d : Nat) : State :=
  let f := s.frameOf i ts
  let f := { f with partner := sput zeroNat f.partner k (d + 1) }
  let s := (s.putFrame i f).checkLine i f k
  if s.inPair ∧ f.ended ∧ f.lineDone (s.lineLength i) k = false then s.sendTdm (.ingest (.request i ts k)) else s

/-- The frame digest of the partner confirms the frame (R170). -/
def State.hearFrame (s : State) (i ts d : Nat) : State :=
  s.putFrame i { s.frameOf i ts with confirmed := some (s.tb.now, d) }

/-- A line is asked for. -/
def State.giveLine (s : State) (i ts k : Nat) : State :=
  let f := s.frameOf i ts
  if f.lineDone (s.lineLength i) k then s.sendTdm (.ingest (.repair i ts k (lineBytesOf (sget noChunks f.lines k)))) else s

/-- A line of the partner comes: it replaces one that differs or fills one that is missing (R182). -/
def State.takeLine (s : State) (i ts k : Nat) (bytes : List Byte) : State :=
  let f := s.frameOf i ts
  if bytes.length ≠ s.lineLength i then s
  else
    let held := f.lineDone (s.lineLength i) k
    if held ∧ s.role ≠ tdmWheeler then s
    else
      let f := { f with lines := sput noChunks f.lines k [(0, bytes)] }
      let s := if held then s.bumpReg FE_REP_MISM 1 else (s.bumpReg (FE_STRM_LINE_REP i) 1).lineWhole i f k
      let again := f.completeAt.isSome
      let r := s.frameWhole i f
      let s := r.1.putFrame i r.2
      if again ∧ s.inPair then s.sendTdm (.ingest (.frame i ts (f.digest (s.fld (FE_STRM_SIZE_HEIGHT i))))) else s

/-- The data of a universe that the wheeler lacked. -/
def State.takeUniverse (s : State) (u : Nat) (slots : List Byte) : State :=
  if s.role = tdmWheeler then s.setUni u ((s.uni u).took s.tb.now slots) else s

/-- The data that the leader latched for a universe. -/
def State.giveUniverse (s : State) (u : Nat) : State :=
  if s.role ≠ tdmLeader then s
  else let n := s.uniNamed u; s.sendTdm (.ingest (.universe u n.2.1 n.2.2.1 (s.uni u).latched))

/-- INGEST: what it brings can complete the wheeler's latch. -/
def State.hearIngest (s : State) (m : IngestMsg) : State :=
  match m with
  | .line i ts k d => if i < 16 then (s.hearLine i ts k d).settleLatch else s
  | .frame i ts d => if i < 16 then s.hearFrame i ts d else s
  | .request i ts k => if i < 16 then s.giveLine i ts k else s
  | .repair i ts k bytes => if i < 16 then (s.takeLine i ts k bytes).settleLatch else s
  | .universe u _ _ slots => (s.takeUniverse u slots).settleLatch
  | .askUniverse u => s.giveUniverse u

/-! ### Completion sets (R449, R450) -/

/-- CSET: the partner's set of the frame in compose, or of one whose boundary comes next. -/
def State.hearCset (s : State) (tick : Nat) (done held : List Nat) : State :=
  if s.inPair ∧ s.tickNo ≤ tick then { s with tdm := { s.tdm with cset := some (tick, done, held) } } else s

/-- The unit no longer waits for the partner's CSET (R450). -/
def State.giveUpCset (s : State) : State := { s with tdm := { s.tdm with csetGivenUp := true } }

/-- CSET_WAIT_TIMEOUT: 12 µs after the unit's own CSET stage 5 starts without the partner's. -/
def State.csetLate (s : State) : State :=
  match s.tdm.csetAt with
  | none => s
  | some t =>
    let has : Bool := match s.tdm.cset with | some c => decide (c.1 = s.tickNo) | none => false
    if s.tick.solved ∨ s.inPair = false ∨ has then s
    else (s.runTo (t + 12 * unitUs)).giveUpCset

/-! ### The transferred state (R466) -/

/-- The registers of the transferred state: map regions, gait and period, swap period and epoch, drive configuration and ladders,
phase policies, presence rules. -/
def transferRegs : List Nat :=
  [FE_MAP_DRAM_BASE, FE_MAP_DRAM_BASE + 4, FE_MAP_DRAM_SIZE, FE_MAP_DRAM_SIZE + 4, TK_PERIOD_NS, TK_PERIOD_FRAC, TK_GAIT, TM_TEAM_RST,
    TM_TEAM_RST + 4, TDM_SWAP_PER, TDM_EPOCH, DRV_RETIRED, DRV_RETIRED + 4, DRV_RET_NODE, TLM_PRES_CTRL]
  ++ chans.flatMap (fun ch => [DRV_CH_CFG ch, DRV_CH_DIAG ch, DRV_CH_DIAG2 ch, DRV_CH_STAT ch])
  ++ (List.range 16).flatMap (fun f => [PHP_FEED_STAT f, PHP_FEED_TGT f, PHP_FEED_PLAN f])
  ++ (List.range 32).flatMap (fun r => [TLM_PRES_RULE_A r, TLM_PRES_RULE_B r, TLM_PRES_RULE_C r, TLM_PRES_RULE_D r, TLM_PRES_RULE_E r])
  ++ (List.range (zoneCount / 4)).map TLM_ZONE_MAP

/-- A layer as it is transferred: host and device-filled content stays behind. -/
def Layer.bare (l : Layer) : Layer :=
  if l.typ = 3 then l else { l with latched := .none, gen := 0, bufs := [], copy := [], clear := false }

def bareLayers (m : Sparse (Option Layer)) : Sparse (Option Layer) := m.map fun kv => (kv.1, kv.2.map Layer.bare)

/-- Ladders of the local channels. -/
def ladderOf (x : DrvChan) : DrvChan := { w := x.w, t0 := x.t0 }

/-- The transferred state in its pieces. -/
def State.transferred (s : State) : List StatePart :=
  [.regs (transferRegs.map fun o => (o, s.reg o)), .map s.fe.region s.fe.blocks s.fe.changes,
    .layers (bareLayers s.fe.layers) (bareLayers s.fe.registering), .cues s.fe.cues, .colour s.fe.colour,
    .curb s.crb.limits s.crb.models s.crb.corr, .drive (s.drv.chans.map fun kv => (kv.1, ladderOf kv.2)) s.fe.retired s.drv.nodes s.drv.params,
    .phase s.php.policies s.php.planId s.php.waiting s.php.switching s.php.rules s.php.coming, .presence s.tlm.zones,
    .temps s.fe.temps s.fe.tempsClosed s.fe.trimTarget s.fe.trims, .fences s.hif.fences, .nodes s.tm.nodes, .cmds s.tm.cmds s.tm.cmdId,
    .pending s.tick.change (s.reg TDM_SWAP_PER) s.tdm.swapped s.tdm.index]

/-- Two pieces are of one kind. -/
def StatePart.kind : StatePart → Nat
  | .regs _ => 0
  | .map _ _ _ => 1
  | .layers _ _ => 2
  | .cues _ => 3
  | .colour _ => 4
  | .curb _ _ _ => 5
  | .drive _ _ _ _ => 6
  | .phase _ _ _ _ _ _ => 7
  | .presence _ => 8
  | .temps _ _ _ _ => 9
  | .fences _ => 10
  | .nodes _ => 11
  | .cmds _ _ => 12
  | .pending _ _ _ _ => 13

/-- A transferred layer takes the content that the unit holds for the same layer. -/
def mergeLayer (own : Option Layer) (l : Layer) : Layer :=
  match own with
  | some o => if l.typ = 3 ∨ o.typ ≠ l.typ ∨ o.width ≠ l.width ∨ o.height ≠ l.height ∨ o.format ≠ l.format then l
      else { l with latched := o.latched, gen := o.gen, bufs := o.bufs, copy := o.copy, clear := o.clear }
  | none => l

/-- Install one piece (R468). -/
def State.installPart (s : State) (p : StatePart) : State :=
  match p with
  | .regs ws => ws.foldl (fun (s : State) w => s.setReg w.1 w.2) s
  | .map region blocks changes => { s with fe := { s.fe with region := region, blocks := blocks, changes := changes, discard := false } }
  | .layers ls rs =>
    let old := s.fe.layers
    let take (m : Sparse (Option Layer)) : Sparse (Option Layer) := m.map fun kv => (kv.1, kv.2.map (mergeLayer (sget noLayer old kv.1)))
    { s with fe := { s.fe with layers := take ls, registering := take rs } }
  | .cues cs => { s with fe := { s.fe with cues := cs } }
  | .colour t => { s with fe := { s.fe with colour := t } }
  | .curb limits models corr => { s with crb := { s.crb with limits := limits, models := models, corr := corr } }
  | .drive cs retired nodes params =>
    let s : State := { s with fe := { s.fe with retired := retired }, drv := { s.drv with nodes := nodes, params := params } }
    chans.foldl (fun (s : State) ch => let x := sget chanDflt cs ch; s.setChan ch { s.chan ch with w := x.w, t0 := x.t0 }) s
  | .phase policies planId waiting switching rules coming =>
    { s with php := { s.php with policies := policies, planId := planId, waiting := waiting, switching := switching, rules := rules,
                                 coming := coming } }
  | .presence zones => { s with tlm := { s.tlm with zones := zones } }
  | .temps entries closed targets trims =>
    let base (f : Frame) : Frame := { f with inputs := { f.inputs with temps := closed } }
    { s with fe := { s.fe with temps := entries, tempsClosed := closed, trimTarget := targets, trims := trims, frames := s.fe.frames.map base } }
  | .fences fs => { s with hif := { s.hif with fences := fs } }
  | .nodes ns => { s with tm := { s.tm with nodes := ns } }
  | .cmds cs id => { s with tm := { s.tm with cmds := cs, cmdId := id } }
  | .pending change period swapAt index =>
    let top := match s.tdm.journal with | [] => index | _ :: _ => max index s.tdm.index
    ({ s with tick := { s.tick with change := change }, tdm := { s.tdm with swapped := swapAt, index := top } } : State).setReg TDM_SWAP_PER period

/-! ### The rounds (R468) -/

/-- 4 MiB. -/
def joinMax : Nat := 4194304

/-- The first boundary whose staging cut-off lies after instant `t`. -/
def State.firstAfter (s : State) (t : Nat) : Nat :=
  s.nextNo + (t + 2 * unitUs + s.tick.period - s.tick.next) / s.tick.period

/-- The entries that commit after the join boundary go to the wheeler as they stand. -/
def State.sendLater (s : State) (j : Nat) : State :=
  s.staged.foldl (fun (s : State) x =>
    match x with
    | .desc d data _ (some c) =>
      if d.index ≠ 0 ∧ j < c then (s.sendTdm (.jrn { index := d.index, origin := 0, d := { d with data := data }, sentAt := s.tb.now })).sendTdm (.jcmt d.index c)
      else s
    | .desc _ _ _ none => s
    | .reg .. => s) s

/-- JOIN with its boundary, and a swap that is pending. -/
def State.chooseJoin (s : State) (left : Nat) : State :=
  let j := s.firstAfter (s.tb.now + left * 8 * unitNs / 25 + 12 * unitUs)
  let s := (({ s with tdm := { s.tdm with joinAt := some j } } : State).sendTdm (.join j)).sendLater j
  match s.tdm.swap with
  | some q => s.sendTdm (.role (some q.2))
  | none => s

/-- RESYNC_ROUND: the pieces written since they were last sent go out; `bytes` were sent, `left` became dirty meanwhile, and
`streams` tells that the wheeler will hold the frames of the latch record. -/
def State.resyncRound (s : State) (bytes left : Nat) (streams : Bool) : State :=
  if s.tdm.syncing = false ∨ s.journals = false ∨ s.bit TDM_STATUS_PARTNER = false then s
  else
    let now := s.transferred
    let dirty := now.filter fun p => decide (p ∉ s.tdm.sent)
    let s := dirty.foldl (fun (s : State) p => s.sendTdm (.state (.part p))) s
    let s : State := { s with tdm := { s.tdm with sent := now } }
    let s := s.setReg64 TDM_RS_BYTES (s.reg64 TDM_RS_BYTES + bytes)
    if s.tdm.joinAt.isSome then s
    else
      let s : State := { s with tdm := { s.tdm with rounds := s.tdm.rounds + 1 } }
      if left ≤ joinMax then (if streams ∧ s.tick.running then s.chooseJoin left else s)
      else if 32 ≤ s.tdm.rounds then
        { (s.postResync 2 2).stopSync with tdm := { ((s.postResync 2 2).stopSync).tdm with retryAt := some (s.tb.now + unitSec) } }
      else s

/-- RESYNC_RETRY: a new attempt 1 s after one that failed. -/
def State.resyncAgain (s : State) : State :=
  match s.tdm.retryAt with
  | none => s
  | some t =>
    if s.journals then (s.runTo t).startSync else { s with tdm := { s.tdm with retryAt := none } }

/-- STATE: a piece for a unit in RESYNC, or the partner copy of an image (R546). -/
def State.hearBlock (s : State) (b : StateBlock) (written : Bool) : State :=
  match b with
  | .part p =>
    if s.role ≠ tdmResync then s
    else { s with tdm := { s.tdm with received := (s.tdm.received.filter fun q => decide (q.kind ≠ p.kind)) ++ [p] } }
  | .wantImage slot held total => s.giveImage slot held total
  | .image chunk total crc bytes => s.takeImage chunk total crc bytes written
  | .noImage => s.peerRefused

/-- JOIN. -/
def State.hearJoin (s : State) (j : Nat) : State := if s.role = tdmResync then { s with tdm := { s.tdm with joinAt := some j } } else s

/-- Action (4) of the join boundary `n` (R442, R468). -/
def State.joinAtBoundary (s : State) (n : Nat) : State :=
  if s.tdm.joinAt ≠ some n then s
  else if s.journals then
    let s := if s.role = tdmSolo then s.setRole tdmLeader 0 else s
    ({ (s.postResync 1 0).stopSync with tdm := { ((s.postResync 1 0).stopSync).tdm with own := [], theirs := [], arb := [], divRun := 0 } } : State)
  else if s.role = tdmResync then
    let later (e : JournalEntry) : Bool := match e.commit with | some c => decide (n < c) | none => true
    let s : State := { s with tdm := { s.tdm with journal := s.tdm.journal.filter later, own := [], theirs := [], divRun := 0 } }
    let s := s.tdm.received.foldl State.installPart s
    let s := ({ s with tdm := { s.tdm with received := [], joinAt := none } } : State).setRole tdmWheeler 0
    (s.applyHeads s.tdm.journal.length).postResync 1 0
  else s

/-! ### The commands -/

/-- STREAM_PACKET_RECEIVE (R168). -/
def execStreamPacketReceive (i : Fin 16) (p : StreamPacket) (s : State) : Res :=
  .next (if s.domOn 10 then (s.streamPacket i.val p).settleLatch else s)

/-- SACN_PACKET_RECEIVE (R173). -/
def execSacnPacketReceive (port : Fin 4) (p : SacnPacket) (s : State) : Res :=
  .next (if s.domOn 10 then (s.sacnPacket port.val p).settleLatch else s)

/-- SACN_SYNC_RECEIVE (R174). -/
def execSacnSyncReceive (port : Fin 4) (cid : BitVec 128) (address : Half) (s : State) : Res :=
  .next (if s.domOn 10 then (s.sacnSync port.val cid.toNat address.toNat).settleLatch else s)

/-- INGEST (R182). -/
def execIngest (h : TdmHead) (m : IngestMsg) (s : State) : Res := .next (s.receive h 0x30 fun s => s.hearIngest m)

/-- CSET (R449). -/
def execCset (h : TdmHead) (tick : Nat) (done held : List Nat) (s : State) : Res := .next (s.receive h 0x21 fun s => s.hearCset tick done held)

/-- CSET_WAIT_TIMEOUT (R449). -/
def execCsetWaitTimeout (s : State) : Res := .next s.csetLate

/-- STATE (R468). -/
def execState (h : TdmHead) (b : StateBlock) (written : Bool) (s : State) : Res := .next (s.receive h 0x41 fun s => s.hearBlock b written)

/-- JOIN (R468). -/
def execJoin (h : TdmHead) (bound : Nat) (s : State) : Res := .next (s.receive h 0x42 fun s => s.hearJoin bound)

/-- RESYNC_ROUND (R468). -/
def execResyncRound (bytes left : Nat) (streams : Bool) (s : State) : Res := .next (s.resyncRound bytes left streams)

/-- RESYNC_RETRY (R468). -/
def execResyncRetry (s : State) : Res := .next s.resyncAgain

end Sys2Proof.Machine
end

