-- ==== Sys2Proof/Machine/Check.lean ====
section
/-! DEFINITION. Signatures and the check before release (R451, R452), arbitration (R453 – R459), and scheduled swaps at their
boundary (R464, R465). -/

namespace Sys2Proof.Machine

/-! ### Signatures -/

/-- The segment signature: the digests of its trace-port parts in ascending port order, then that of the residual part. -/
def State.segSignature (s : State) (f : Frame) (g : Nat) : Nat :=
  let ports := s.portsOn.filter fun p => decide (g ∈ s.partSegs f p)
  let rest := if (s.residualFirst g).isSome then leBytes 8 (sget zeroNat s.tm.digests (16 * g + 8)) else []
  crc64 (ports.flatMap (fun p => leBytes 8 (sget zeroNat s.tm.digests (16 * g + p))) ++ rest)

/-- The frame of latch tick `n` is the one in its release tick. -/
def State.releasing (s : State) (n : Nat) : Bool := match s.frameOut with | some f => decide (f.tick = n) | none => false

/-- The check permits segment `g` of frame `n` to leave, while that frame is in its release tick. -/
def State.permit (s : State) (n g : Nat) : State := if s.releasing n then s.clearSegment g else s

/-- Segments that wait for the shadow lane. -/
def State.arbWaiting (s : State) : Nat := (s.tdm.arb.filter fun a => a.ownShadow.isNone).length

/-- A mismatch goes to the shadow lane; one that finds the queue full counts as a match (R453). -/
def State.startArb (s : State) (n g own theirs : Nat) : State :=
  if 16 ≤ s.arbWaiting then (s.bumpReg TDM_ARB_SKIP 1).permit n g
  else
    let left := !s.releasing n || decide (g ∈ s.tm.cleared)
    { s with tdm := { s.tdm with arb := s.tdm.arb ++ [{ tick := n, seg := g, own := own, partner := theirs, left := left, at' := s.tb.now }] } }

/-- Two signatures of segment `g` of frame `n` meet (R452). -/
def State.compareSigs (s : State) (n g own theirs : Nat) : State :=
  if s.mirrorOnly then (if own = theirs then s else s.bump TDM_MISM_MISMATCH 1)
  else if n ∈ s.tdm.unverified then s
  else if own = theirs then s.permit n g
  else s.startArb n g own theirs

/-- The partner's signature of a segment. -/
def State.theirSig (s : State) (n g : Nat) : Option Nat := (s.tdm.theirs.find? fun x => decide (x.1 = n ∧ x.2.1 = g)).map fun x => x.2.2

/-- The unit's own signature of a segment with the time at which it went. -/
def State.ownSig (s : State) (n g : Nat) : Option (Nat × Nat) := (s.tdm.own.find? fun x => decide (x.1 = n ∧ x.2.1 = g)).map fun x => x.2.2

/-- A signed segment of a frame that is not checked leaves at once; the leader counts those of an unverified frame (R450, R452). -/
def State.signUnchecked (s : State) (f : Frame) (g : Nat) : State :=
  if f.tick ∈ s.tdm.unverified then (if s.role = tdmLeader then s.bumpReg TDM_UNCHK 1 else s).clearSegment g
  else if s.mirrorOnly then s.clearSegment g else s

/-- SEGMENT_SIGNED: every part of segment `g` is encoded. -/
def State.signSegment (s : State) (g : Nat) : State :=
  match s.frameOut with
  | none => s
  | some f =>
    if s.role = tdmDown ∨ s.tm.ended ∨ f.count ≤ g ∨ s.segEncoded f g = false ∨ (s.tm.signed.any fun x => decide (x.1 = g)) then s
    else
      let s : State := { s with tm := { s.tm with signed := s.tm.signed ++ [(g, s.tb.now)] } }
      if s.inPair = false then s.clearSegment g
      else
        let v := s.segSignature f g
        let s := ({ s with tdm := { s.tdm with own := s.tdm.own ++ [(f.tick, g, v, s.tb.now)] } } : State).sendTdm (.sig f.tick [(g, v)])
        let s := s.signUnchecked f g
        match s.theirSig f.tick g with
        | none => s
        | some w => s.compareSigs f.tick g v w

/-- One signature of the partner. -/
def State.hearSig (s : State) (n : Nat) (x : Nat × Nat) : State :=
  if (s.theirSig n x.1).isSome then s
  else
    let s : State := { s with tdm := { s.tdm with theirs := s.tdm.theirs ++ [(n, x.1, x.2)] } }
    match s.ownSig n x.1 with
    | none => s
    | some v => s.compareSigs n x.1 v.1 x.2

/-- SIG arrives. -/
def State.hearSigs (s : State) (n : Nat) (xs : List (Nat × Nat)) : State := if s.inPair then xs.foldl (fun (s : State) x => s.hearSig n x) s else s

/-- CHECK_HOLD_TIMEOUT: TDM_HOLD after the unit sent its signature, no signature of the partner has come. -/
def State.holdEnds (s : State) (g : Nat) : State :=
  match s.frameOut with
  | none => s
  | some f =>
    match s.ownSig f.tick g with
    | none => s
    | some v =>
      if s.inPair = false ∨ s.mirrorOnly ∨ g ∈ s.tm.cleared ∨ (s.theirSig f.tick g).isSome ∨ s.tm.ended then s
      else
        let s := s.runTo (v.2 + s.fld TDM_HOLD_v * unitUs)
        (if s.role = tdmLeader then s.bumpReg TDM_UNCHK 1 else s).clearSegment g

/-! ### The shadow lane (R453, R454) -/

/-- The shadow lane's time for one segment: 20 M endpoints/s. -/
def shadowTime : Nat := segSize * 50 * unitNs

/-- Replace the first entry of the arbitration list that `p` holds of. -/
def updateFirst (p : Arbitration → Bool) (g : Arbitration → Arbitration) : List Arbitration → List Arbitration
  | [] => []
  | a :: as => if p a then g a :: as else a :: updateFirst p g as

/-- The row of R455, 0 where the part signatures of both units agree with both shadows. -/
def arbRow (lp ls wp ws : Nat) : Nat :=
  if lp = ls then (if wp = ws then (if ls = ws then 0 else 1) else if ls = ws then 4 else 5)
  else if wp = ws then (if ls = ws then 2 else 3) else if ls = ws then 6 else 7

/-- TDM_MISMATCH, and the outcome kept for swaps and the count of R459. -/
def State.postRow (s : State) (a : Arbitration) (row leadSig : Nat) : State :=
  ({ (s.bump TDM_MISM_MISMATCH 1) with tdm := { (s.bump TDM_MISM_MISMATCH 1).tdm with rows := s.tdm.rows ++ [(a.tick, row)] } } : State).postNow
    0x69 0 0 [(16, 2, a.seg), (18, 1, row), (20, 4, a.tick % 2 ^ 32), (24, 4, leadSig % 2 ^ 32), (28, 4, s.tick32)]

/-- The frames between two ticks are all exempt from the count of R459. -/
def State.onlyExempt (s : State) (a b : Nat) : Bool := (List.range (b - a - 1)).all fun k => decide (a + 1 + k ∈ s.tdm.exempt)

/-- A row 1 outcome on the wheeler (R459): after TDM_DIV_LIMIT frames in a row it is out of step. -/
def State.divergence (s : State) (n : Nat) : State :=
  let s := s.bump TDM_MISM_DIVERGED 1
  if n ∈ s.tdm.exempt ∨ s.tdm.divLast = some n then s
  else
    let run := match s.tdm.divLast with | some u => if u < n ∧ s.onlyExempt u n then s.tdm.divRun + 1 else 1 | none => 1
    let s : State := { s with tdm := { s.tdm with divLast := some n, divRun := run } }
    if max 1 (s.fld TDM_DIV_LIMIT_v) ≤ run then ({ s with tdm := { s.tdm with divLast := none, divRun := 0 } } : State).toResync 3 else s

/-- The shadow lane's drive values replace those of segment `g` in its waiting parts (R264, R455). -/
def State.rewrite (s : State) (g : Nat) (vs : List Nat) : State :=
  match s.frameOut with
  | none => s
  | some f =>
    let keys := (f.segEntries g (g * segSize) ((g + 1) * segSize)).flatMap fun x => (List.range x.comp).map fun c => 8 * x.ep + c
    { s with tm := { s.tm with vals := ((keys.zip vs).foldl (fun m kv => sput zeroNat m kv.1 kv.2) s.tm.vals) } }

/-- Segment `g` is discarded on every port (row 7). -/
def State.dropSegment (s : State) (g : Nat) : State :=
  let s : State := { s with tm := { s.tm with signed := s.tm.signed.filter fun x => decide (x.1 ≠ g) } }
  match s.frameOut with
  | none => s
  | some f => (s.portsOn.filter fun p => decide (g ∈ s.partSegs f p)).foldl (fun (s : State) p =>
      s.setPort p { s.port p with dropped := (s.port p).dropped ++ [g] }) s

/-- What a row does on the leader. -/
def State.leaderRow (s : State) (a : Arbitration) (row : Nat) : State :=
  match row with
  | 1 => s.permit a.tick a.seg
  | 2 => (s.declareFaulty 1).unitFault
  | 3 => (s.declareFaulty 1).unitFault
  | 4 => (s.permit a.tick a.seg).goSolo 1
  | 5 => (s.permit a.tick a.seg).goSolo 1
  | 6 =>
    let s := if a.left = false ∧ s.releasing a.tick then (s.rewrite a.seg a.values).clearSegment a.seg else s
    (s.goSolo 1).unitFault
  | 7 =>
    let s := if a.left = false ∧ s.releasing a.tick then s.dropSegment a.seg else s
    (s.goSolo 1).unitFault
  | _ => s

/-- What a row does on the wheeler; in rows 2 and 3 it takes over when the leader's FAULT comes. -/
def State.wheelerRow (s : State) (a : Arbitration) (row : Nat) : State :=
  match row with
  | 1 => (s.permit a.tick a.seg).divergence a.tick
  | 4 => (s.declareFaulty 1).unitFault
  | 5 => (s.declareFaulty 1).unitFault
  | 6 => (s.declareFaulty 2).unitFault
  | 7 => (s.declareFaulty 2).unitFault
  | _ => s

/-- Both shadow signatures of `a` are known: the table of R455 applies. -/
def State.settleArb (s : State) (a : Arbitration) : State :=
  match a.ownShadow, a.partnerShadow with
  | some o, some p =>
    let s : State := { s with tdm := { s.tdm with arb := s.tdm.arb.filter fun b => decide (b.tick ≠ a.tick ∨ b.seg ≠ a.seg) } }
    if s.role = tdmLeader then
      let row := arbRow a.own o a.partner p
      (s.postRow a row a.own).leaderRow a row
    else if s.role = tdmWheeler then
      let row := arbRow a.partner p a.own o
      (s.postRow a row a.partner).wheelerRow a row
    else s
  | some _, none => s
  | none, _ => s

/-- An entry of the arbitration list as it stands. -/
def State.findArb (s : State) (n g : Nat) : Option Arbitration := s.tdm.arb.find? fun a => decide (a.tick = n ∧ a.seg = g)

/-- The shadow lane has composed the segment of row `a` with signature `v` and values `vals`. -/
def State.shadowResult (s : State) (a : Arbitration) (v : Nat) (vals : List Nat) : State :=
  let hit (b : Arbitration) : Bool := decide (b.tick = a.tick ∧ b.seg = a.seg)
  let arb := updateFirst hit (fun b => { b with ownShadow := some v, values := vals }) s.tdm.arb
  let s : State := { s with tdm := { s.tdm with shadowFree := s.tb.now, arb := arb } }
  let s := s.sendTdm (.shd a.tick a.seg a.own v)
  match s.findArb a.tick a.seg with
  | some b => s.settleArb b
  | none => s

/-- SHADOW_LANE_DONE: the oldest mismatched segment; `upset` is what the shadow lane makes of it where that differs from what the
compose lanes made: its signature and its drive values. -/
def State.shadowDone (s : State) (upset : Option (DWord × List Half)) : State :=
  match s.tdm.arb.find? fun a => a.ownShadow.isNone with
  | none => s
  | some a =>
    let v := match upset with | some u => u.1.toNat | none => a.own
    let vals := match upset with | some u => u.2.map BitVec.toNat | none => []
    (s.runTo (max a.at' s.tdm.shadowFree + shadowTime)).shadowResult a v vals

/-- SHD arrives. -/
def State.hearShd (s : State) (n g sig shadow : Nat) : State :=
  let hit (b : Arbitration) : Bool := decide (b.tick = n ∧ b.seg = g)
  let s : State := { s with tdm := { s.tdm with arb := updateFirst hit (fun b => { b with partner := sig, partnerShadow := some shadow }) s.tdm.arb } }
  match s.findArb n g with
  | some b => s.settleArb b
  | none => s

/-! ### Scheduled swaps (R463 – R465) -/

/-- A swap is put off to the next boundary; after 64 times it is skipped. -/
def State.postponeSwap (s : State) (n : Nat) : State :=
  let k := s.tdm.postponed + 1
  let s : State := { s with tdm := { s.tdm with postponed := k } }
  if 64 < k then
    let s : State := { s with tdm := { s.tdm with postponed := 64 } }
    let s := (s.postSwap 2).endSwap stNoResource
    ({ s with tdm := { s.tdm with swapped := s.tb.now } } : State).setSwapTick none
  else
    let s := if k = 1 then s.postSwap 1 else s
    ({ s with tdm := { s.tdm with swapTick := some (n + 1) } } : State).setReg64 TDM_SWAP_NEXT (n + 1)

/-- The old leader becomes wheeler: management frames not sent are discarded. -/
def State.stepDown (s : State) : State :=
  let s := (s.endSwap stOk).discardJournal
  let s := (List.range 8).foldl (fun (s : State) p => s.setPort p { s.port p with queues := [] }) s
  s.setRole tdmWheeler 0

/-- The new leader: it builds management frames from its state and takes each DMX port once the old leader's packet has ended. -/
def State.stepUp (s : State) : State :=
  let busy := match s.tdm.partner.progress with | some q => q.dmx | none => []
  let s := ((s.discardJournal).setRole tdmLeader 0).ownSession
  let s := (List.range 16).foldl (fun (s : State) n => s.holdDmx (if n ∈ busy then s.tb.now + s.dmxLength n 513 else s.tb.now) n) s
  ((s.endSwap stOk).resendCmds).phaseTakeover

/-- The roles are exchanged at boundary Q. -/
def State.swapRoles (s : State) : State :=
  let s := s.postSwap 0
  let s := if s.role = tdmLeader then s.stepDown else s.stepUp
  ({ s with tdm := { s.tdm with swapped := s.tb.now } } : State).setSwapTick none

/-- A periodic swap is decided one tick ahead by the leader, journalled and announced (R445, R463). -/
def State.duePeriodic (s : State) (n : Nat) : State :=
  let per := s.reg TDM_SWAP_PER
  if s.journals ∧ s.tdm.swapTick = none ∧ per ≠ 0 ∧ s.tdm.swapped + per * unitSec ≤ s.tick.next then
    ((s.setSwapTick (some (n + 1))).journalItem 4 { sq := 0, bytes := [] } (leBytes 8 (n + 1))).sendRole (some (n + 1))
  else s

/-- Boundary `n`: a swap that falls on it proceeds or not as R465 gives. -/
def State.swapStep (s : State) (n : Nat) : State :=
  let gone := n - s.depth
  let s :=
    if s.tdm.swapTick ≠ some n then s
    else if s.tdm.rows.any fun r => decide (2 ≤ r.2) then
      (({ (s.postSwap 3).endSwap stNotPermitted with tdm := { ((s.postSwap 3).endSwap stNotPermitted).tdm with swapped := s.tb.now } } : State).setSwapTick none)
    else if s.inPair = false ∨ (s.tdm.arb.any fun a => decide (a.tick = gone)) ∨ (gone, 1) ∈ s.tdm.rows then s.postponeSwap n
    else s.swapRoles
  { s with tdm := { s.tdm with rows := s.tdm.rows.filter fun r => decide (r.2 = 1 ∧ gone < r.1) } }

/-! ### The commands -/

/-- SEGMENT_SIGNED (R451). -/
def execSegmentSigned (seg : Fin 2560) (s : State) : Res := .next (s.signSegment seg.val)

/-- CHECK_HOLD_TIMEOUT (R452). -/
def execCheckHoldTimeout (seg : Fin 2560) (s : State) : Res := .next (s.holdEnds seg.val)

/-- SIG (R452). -/
def execSig (h : TdmHead) (tick : Nat) (sigs : List (Nat × Nat)) (s : State) : Res := .next (s.receive h 0x22 fun s => s.hearSigs tick sigs)

/-- SHADOW_LANE_DONE (R453). -/
def execShadowLaneDone (upset : Option (DWord × List Half)) (s : State) : Res := .next (s.shadowDone upset)

/-- SHD (R455). -/
def execShd (h : TdmHead) (tick seg sig shadow : Nat) (s : State) : Res := .next (s.receive h 0x23 fun s => s.hearShd tick seg sig shadow)

end Sys2Proof.Machine
end

