-- ==== Sys2Proof/Machine/Power.lean ====
section
/-! DEFINITION. Power domains, resets, start, clocks and the service states (21_power_reset_and_clocks.md;
18_integrity_and_error_handling.md, R484, R491 – R494; 20_images_and_migration.md, R539). -/

namespace Sys2Proof.Machine

/-! ### What the retention store keeps (R560) -/

/-- The bits of a register word that a domain reset, a fail-safe reset and a domain's power-off keep. -/
def retained (off : Nat) : Nat :=
  let d := wordAt off
  Nat.lor (Nat.lor d.rws d.rwl)
    (if off = GLB_LOCK then 1
     else if off = TKR_STAT then 2
     else if off = TDM_EPOCH ∨ off = MEM_FS_CAUSE ∨ off = MEM_RIDER_RST ∨ off = MEM_LOG_LOST ∨ off = GLB_RST_CAUSE then 2 ^ 32 - 1
     else 0)

/-- The bits that a pin warm reset and a host device reset keep (R562): no RWL field and not GLB_LOCK, but what of the timebase and
the clocks lies outside their scope. -/
def warmKept (off : Nat) : Nat :=
  if off = GLB_LOCK then 0
  else if off = TB_STATUS then 7
  else if off = TB_CTRL then 1
  else if off = GLB_CLK_STAT then 0x1FF
  else Nat.land (retained off) (Nat.xor (2 ^ 32 - 1) (wordAt off).rwl)

/-- Every register word that satisfies `hit` takes its reset value outside the bits that `keep` names. -/
def State.resetRegs (s : State) (hit : Nat → Bool) (keep : Nat → Nat) : State :=
  s.regs.foldl (fun (s : State) kv =>
    if hit kv.1 then s.setReg kv.1 (mergeBits (keep kv.1) (resetWord kv.1) kv.2.toNat) else s) s

/-! ### One domain (R558, R561) -/

/-- The ETH windows of domain `d`. -/
def windowsOf (d : Nat) : List Nat := (List.range 15).filter fun w => decide (domainOf (0x1000000 + w * 0x10000) = some d)

/-- The links of the windows in `ws` are down. -/
def State.cutLinks (s : State) (ws : List Nat) : State := ws.foldl (fun (s : State) w => s.setLink w false) s

/-- A stream in reception starts afresh; its loss time and count go on (R171). -/
def Stream.cut (x : Stream) : Stream := { x with frames := [], newest := none, missing := [], pri := none, sec := none }

/-- The logic of domain `d` is lost: what lies in DRAM, in stable SRAM or in the retention store stays (R558, R562). -/
def State.loseLogic (s : State) (d : Nat) : State :=
  match d with
  | 2 => s.enterHoldover 5
  | 3 => { s with hif := { s.hif with sq := [], cq := [], eq := [], running := [], lastRing := [] }, pwr := { s.pwr with pcie := false } }
  | 7 => { s with fe := { s.fe with frames := [], lastHeld := [] }, crb := { s.crb with due := none } }
  | 8 => { s with fe := { s.fe with frames := [], lastHeld := [] } }
  | 9 =>
    { s with tm := { s.tm with ports := [], teams := [], digests := [], residual := [], signed := [], cleared := [], ready := [], readyRun := 0, vals := [], events := [] } }
  | 10 => { s with fe := { s.fe with streams := smap streamDflt Stream.cut s.fe.streams } }
  | 11 => { s with tdm := { ({} : Tandem) with heard := s.tdm.heard } }
  | 13 => { s with tm := { s.tm with dmx := [] } }
  | _ => s

/-- The registers and the logic of domain `d` leave its reset. -/
def State.resetDomain (s : State) (d : Nat) : State :=
  ((s.resetRegs (fun off => decide (domainOf off = some d)) retained).loseLogic d).cutLinks (windowsOf d)

/-- The domain's own ON bit. -/
def State.setOn (s : State) (d : Nat) (v : Bool) : State := s.setReg GLB_PWR_STAT (setBits (s.reg GLB_PWR_STAT) d 1 (b2n v))

/-- A domain goes off: its bit clears and its logic is lost; what it resets to shows when it returns. -/
def State.powerOff (s : State) (d : Nat) : State :=
  let s : State := { s with pwr := { s.pwr with rising := s.pwr.rising.filter fun x => decide (x ≠ d) } }
  (s.resetDomain d).setOn d false

/-- A domain reset (R561); domain 0 holds the retention store and is in no domain reset's scope. -/
def State.domainReset (s : State) (d : Nat) : State := if d = 0 ∨ s.domOn d = false then s else s.resetDomain d

/-- The condition of R556 for switching domain `d` off. -/
def State.mayOff (s : State) (d : Nat) : Bool :=
  match d with
  | 7 => !s.run
  | 8 => !s.run
  | 9 => !s.run
  | 10 => true
  | 11 => decide (s.role = tdmDown)
  | 13 => decide (s.mode ≤ 1) && (List.range 16).all fun n => !s.bit (DMX_CFG_EN n)
  | _ => false

/-- Domains that host software may switch. -/
def hostDomains : List Nat := [7, 8, 9, 10, 11, 13]

/-- One bit of a GLB_PWR_REQ write (R556, R564). -/
def State.requestDomain (s : State) (d : Nat) (on : Bool) : State :=
  if bitB (s.reg GLB_PWR_REQ) d = on then s
  else if s.svc = 4 ∨ (on = false ∧ s.mayOff d = false) then s.raise GLB_PWR_STAT_REFUSED
  else
    let s := s.setReg GLB_PWR_REQ (setBits (s.reg GLB_PWR_REQ) d 1 (b2n on))
    if on then { s with pwr := { s.pwr with rising := s.pwr.rising ++ [d] } } else s.powerOff d

/-- A write of GLB_PWR_REQ. -/
def State.writePwrReq (s : State) (v : Nat) : State := hostDomains.foldl (fun (s : State) d => s.requestDomain d (bitB v d)) s

/-- A domain that is being switched on reaches its on state. -/
def State.powerUp (s : State) (d : Nat) : State :=
  if d ∈ s.pwr.rising then ({ s with pwr := { s.pwr with rising := s.pwr.rising.filter fun x => decide (x ≠ d) } } : State).setOn d true else s

/-- One bit of a GLB_DOM_RST write (R561, R564). -/
def State.hostReset (s : State) (d : Nat) : State :=
  if s.svc = 4 ∨ s.mayOff d = false then s.raise GLB_PWR_STAT_REFUSED else s.domainReset d

/-- A write of GLB_DOM_RST. -/
def State.writeDomRst (s : State) (v : Nat) : State :=
  [10, 11, 13].foldl (fun (s : State) d => if bitB v d then s.hostReset d else s) s

/-! ### Resets of the device (R561 – R565) -/

/-- The machine after power-on reset with what stands in NOR and OTP. -/
def State.coldStart (s : State) : State :=
  { State.reset with
    nor := s.nor
    img := { s.img with slot := none, header := [], other := false }
    tkr := { ({} : TackRoom) with secret := s.tkr.secret, serial := s.tkr.serial, positions := s.tkr.positions, copies := s.tkr.copies, commits := s.tkr.commits, sessionEnd := s.tkr.sessionEnd, bootc := s.tkr.bootc }
    far := { ({} : Calibration) with factory := s.far.factory }
    pwr := { ({} : Power) with refLost := s.pwr.refLost }
    drawn := s.drawn
    out := s.out
    pending := s.pending }

/-- The service state that the strap value gives (R491): GLB_BOOT.MODE reads 3 where the strap is reserved (R6). -/
def strapMode (m : Nat) : Nat := if 4 < m then 3 else m
def strapSvc (m : Nat) : Nat := match strapMode m with | 3 => 3 | 4 => 2 | _ => 0

/-- GLB_BOOT at the release of a reset. -/
def State.strap (s : State) (m old : Nat) : State :=
  let s := ((s.setFld GLB_BOOT_MODE (strapMode m)).setFld GLB_BOOT_STRAP_BAD (b2n (decide (4 < m)))).setFld GLB_BOOT_SVC old
  if old = strapSvc m then s else s.setSvc (strapSvc m) 0

/-- Power-on reset with the sampled strap (R4, R32, R561). -/
def State.powerOn (s : State) (m : Nat) (brown : Bool) : State :=
  let s := (s.coldStart.strap m 0).setReg GLB_RST_CAUSE (256 * b2n brown)
  if strapMode m = 4 then s.raise TKR_STAT_DEBUG else s

/-- The state that a warm reset leaves, but for TB_STATUS.STATE. -/
def State.warmBase (s : State) : State :=
  { s.coldStart with
    regs := (s.resetRegs (fun _ => true) warmKept).regs
    tb := { ({} : Timebase) with now := s.tb.now, eff := s.tb.eff, commit := s.tb.commit, hoFor := if s.tracking then 0 else s.tb.hoFor }
    mem := { ({} : Integrity) with log := s.mem.log, reportFault := s.mem.reportFault }
    tdm := { ({} : Tandem) with heard := s.tdm.heard }
    test := { s.test with looped := false }
    pwr := { s.pwr with pcie := false, follower := false, rising := [] } }

/-- What pin warm reset and host device reset share: everything but the timebase, the cleaner, the retention store, NOR and OTP;
TB_STATUS.STATE leaves ACQUIRE and LOCKED (R37, R562). -/
def State.warmStart (s : State) : State :=
  if s.tracking then (s.warmBase.setFld TB_STATUS_STATE tbHoldover).postTime 0x12 5 (s.fld TB_STATUS_STATE) else s.warmBase

/-- Pin warm reset with the sampled strap (R561, R530). -/
def State.pinWarm (s : State) (m : Nat) : State :=
  let old := s.svc
  let debug := decide (strapMode m = 4) || s.bit TKR_STAT_DBG_ARMED
  let s := (s.warmStart.strap m old).setFld GLB_RST_CAUSE_LAST 1
  if debug then s.raise TKR_STAT_DEBUG else s

/-- GLB_RST_CAUSE.LAST of a host device reset. -/
def HostReset.cause : HostReset → Nat
  | .flr => 2
  | .perst => 3
  | .hot => 4

/-- Host device reset (R561, R563): BOOT_MODE is not sampled, and debug operation that is in force goes on. -/
def State.hostDevice (s : State) (w : HostReset) : State :=
  if w = .perst ∧ s.mode ≠ 0 then s
  else
    let old := s.svc
    let m := s.mode
    let bad := s.bit GLB_BOOT_STRAP_BAD
    let link := s.pwr.pcie && decide (w = .flr)
    let debug := s.debug
    let s := ((s.warmStart.strap m old).setFld GLB_BOOT_STRAP_BAD (b2n bad)).setFld GLB_RST_CAUSE_LAST w.cause
    let s : State := { s with pwr := { s.pwr with pcie := link } }
    if debug then s.raise TKR_STAT_DEBUG else s

/-! ### Start (R539, R555, R634) -/

/-- Switch domains on. -/
def State.switchOn (s : State) (ds : List Nat) : State := ds.foldl (fun (s : State) d => s.setOn d true) s

/-- The clocks are locked (R566). -/
def State.clocksUp (s : State) : State := s.setReg GLB_CLK_STAT (Nat.lor (s.reg GLB_CLK_STAT) 0xFF)

/-- DRAM training ends with `bytes` of DRAM (R190, R557, R634): the domains that start needs are on. -/
def State.trained (s : State) (chB : Bool) (bytes : Nat) : State :=
  if s.pwr.refLost.isSome ∨ s.reg64 GLB_DEVREG_BASE ≠ 0 ∨ bytes < 2 ^ 33 then s
  else
    let s := (s.clocksUp.switchOn [0, 1, 3, 4, 5, 6]).setReg64 GLB_DEVREG_BASE (bytes - devRegion)
    if chB then s else (s.setOn 5 false).setReg GLB_PWR_REQ (setBits (s.reg GLB_PWR_REQ) 5 1 0)

/-- Domains that the Saddle monitor leaves off at boot (R559). -/
def offAtBoot (m : Nat) : List Nat := match m with | 2 => [8, 10, 11] | 3 => [7, 8, 9, 10, 11] | _ => []

/-- The remaining domains come on, and GLB_PWR_REQ shows those that stay off. -/
def State.bootDomains (s : State) : State :=
  let off := offAtBoot s.mode
  let s := off.foldl (fun (s : State) d => s.setReg GLB_PWR_REQ (setBits (s.reg GLB_PWR_REQ) d 1 0)) s
  s.switchOn ((List.range 14).filter fun d => decide (d ∉ off ∧ (d = 5 → s.reg64 GLB_DEVREG_BASE = 0 ∨ bitB (s.reg GLB_PWR_REQ) 5 = true)))

/-- The root input of R505: the fused secret, or the test root in debug operation (R531). -/
def State.rootInput (s : State) : List Byte :=
  if s.debug then sha384 (ascii "ZJM-5120 test root v1" ++ beBytes 16 s.tkr.serial) else beBytes 32 s.tkr.secret

/-- n of P-384, as R505 uses it: a scalar from 56 bytes. -/
def scalarOf (k0 : List Byte) (info : String) : Nat := beAt (hkdfExpand k0 (ascii info) 56) 0 56 % (pN - 1) + 1

/-- The device slots (R505). -/
def State.deviceKeys (s : State) : State :=
  let k0 := hkdfExtract (ascii "ZJM-5120 root v1") s.rootInput
  let (s, r) := s.share (beAt k0 0 48)
  let (s, a) := s.share (scalarOf k0 "ZJM identity")
  let (s, b) := s.share (scalarOf k0 "ZJM agree")
  let (s, c) := s.share (beAt (hkdfExpand k0 (ascii "ZJM storage") 32) 0 32)
  { s with tkr := { s.tkr with root := r, identity := a, agreement := b, storage := c } }

/-- The owner slots from the newest copies (R520), the descendants of a DEAD slot in DRAIN at least (R523), and TKR_CTR; nothing is
read in debug operation (R531). -/
def State.loadSlots (s : State) : State :=
  if s.debug then s
  else
    let one (s : State) (i : Nat) : State :=
      match s.commitOf i with
      | some c => s.setSlot i (sget slotDflt s.tkr.copies (2 * i + c.copy))
      | none => s
    let s := ownerSlots.foldl one s
    let drain (s : State) (i : Nat) : State :=
      if (s.slot i).state = slotDead then
        (s.descendants i).foldl (fun (s : State) j => if (s.slot j).state = slotActive then s.setSlot j { s.slot j with state := slotDrain } else s) s
      else s
    let s := ownerSlots.foldl drain s
    s.setReg64 TKR_CTR (s.tkr.commits.foldl (fun n c => max n c.counter) 0)

/-- The Tack room starts (R505, R509, R516, R520): BOOTC advances, and the next SESSION values are being reserved. -/
def State.startKeys (s : State) : State :=
  let n := s.tkr.bootc + 1
  let s : State := { s with tkr := { s.tkr with bootc := n, reserve := 0, writing := true, groomed := s.tb.now }, tdm := { s.tdm with seq := 0 } }
  ((((s.setReg TKR_BOOTC (n % 2 ^ 32)).setReg TKR_SESSION s.tkr.sessionEnd).deviceKeys).loadSlots).showAuthority

/-- The default bridle table (R500). -/
def defaultBridle : List Byte :=
  leBytes 4 0x5A4A4252 ++ leBytes 1 1 ++ leBytes 3 0 ++ leBytes 8 (0xFF + 2 ^ 8 * 0xFF + 2 ^ 16 * 2 + 2 ^ 32 * 0x40) ++ leBytes 16 0

/-- A table that may be used (R499, R500). -/
def bridleGood (b : List Byte) : Bool :=
  decide (leAt b 0 4 = 0x5A4A4252 ∧ byteAt b 4 = 1) && zeros b 5 3 && zeros b 24 8 && decide (leAt b 16 8 < 2 ^ 34)

/-- The effective masks of a table (R501). -/
def State.putBridle (s : State) (b : List Byte) : State :=
  let mask (k : Nat) : Nat := if k = 3 ∨ k = 5 ∨ (k = 7 ∧ s.debug = false) then 0 else byteAt b (8 + k)
  let s := (List.range 8).foldl (fun (s : State) k => s.setReg (BRD_MASK k) (mask k)) s
  ({ s with tkr := { s.tkr with bridle := b } } : State).setReg64 BRD_PORT_DENY (leAt b 16 8)

/-- The bridle table is loaded and locked (R500). -/
def State.loadBridle (s : State) (table : Option (List Byte)) (signed : Bool) : State :=
  let s := match table with
    | none => ((s.putBridle defaultBridle).raise BRD_STATUS_DEFAULT).secNotice 0
    | some b =>
      if signed && bridleGood b then s.putBridle b
      else (((s.putBridle defaultBridle).raise BRD_STATUS_DEFAULT).raise BRD_STATUS_BAD).secNotice 0
  s.raise BRD_STATUS_LOCKED

/-- In RECOVERY only MGMT may send image commands (R500). -/
def State.recoveryMasks (s : State) : State :=
  (List.range 8).foldl (fun (s : State) k => s.setReg (BRD_MASK k) (if k = 4 then 0x40 else 0)) s

/-- BOOT (R539): once per release, and after DRAM training where a slot is booted. -/
def State.bootUp (s : State) (table : Option (List Byte)) (signed : Bool) : State :=
  if s.pwr.refLost.isSome ∨ s.domOn 12 ∨ (s.mode ≤ 2 ∧ s.reg64 GLB_DEVREG_BASE = 0) then s
  else
    let s := (((s.clocksUp.bootDomains).loadFactory).startKeys).setFld IMG_STATUS_FLOOR s.img.floor
    if s.svc = 3 then s.recoveryMasks
    else if s.svc = 2 then s.loadBridle none signed
    else
      let s := s.chooseSlot
      if s.img.slot = none then (s.setSvc 3 1).recoveryMasks else s.loadBridle table signed

/-- The rider firmware sets READY (R484, R509, R634). -/
def State.setReady (s : State) : State :=
  if s.bit MEM_STATUS_INIT_DONE && s.mem.restored && s.mem.ledger && decide (s.tkr.reserve ≠ 0) && s.img.slot.isSome && decide (s.svc ≠ 4)
  then s.raise HIF_STATUS_READY else s

/-- The PCIe link trains in the boot modes that have one (R563, R572). -/
def State.trainPcie (s : State) : State :=
  if s.mode ≤ 1 ∧ s.domOn 3 ∧ s.pllOk 7 then { s with pwr := { s.pwr with pcie := true, follower := false } } else s

/-- PCIE_PERST_N in BOOT_MODE 0b001 (R563). -/
def State.perstHif (s : State) : State := if s.mode = 1 then s.domainReset 3 else s

/-! ### Clocks (R569, R570) -/

/-- CLOCK_STATE. -/
def State.postClock (s : State) (k : Nat) (since : Option Nat) : State :=
  let us := match since with | some t => min (2 ^ 32 - 1) (s.since t / unitUs) | none => 0
  s.postNow 0x13 6 0 [(16, 1, k), (17, 1, b2n since.isSome), (20, 4, us), (28, 4, s.tick32)]

/-- CLK_REF is lost: the cleaner holds its DCO word. -/
def State.loseRef (s : State) : State :=
  if s.pwr.refLost.isSome then s
  else
    let s : State := { s with pwr := { s.pwr with refLost := some s.tb.now } }
    (((s.raise GLB_CLK_STAT_REF_LOST).raise GLB_CLK_STAT_HOLD).clear GLB_CLK_STAT_REF_OK).postClock 0 none

/-- CLK_REF returns. -/
def State.regainRef (s : State) : State :=
  match s.pwr.refLost with
  | none => s
  | some t =>
    let s : State := { s with pwr := { s.pwr with refLost := none } }
    ((s.clear GLB_CLK_STAT_HOLD).raise GLB_CLK_STAT_REF_OK).postClock 0 (some t)

/-- What the loss of PLL `k` of R570 does beside its record. -/
def State.pllEffect (s : State) (k : Nat) : State :=
  match k with
  | 1 => s.deviceFault 0xFF 2 0 0
  | 2 => s.deviceFault 0xFF 2 0 0
  | 3 => s.deviceFault 0xFF 2 0 0
  | 4 => (chans.foldl (fun (s : State) ch => s.setChan ch { s.chan ch with window := none, start := 0, on := 0, probe := none }) s).unitFault
  | 5 => (List.range 6).foldl (fun (s : State) m => s.deviceFault m 10 0 0) s
  | 6 => s.cutLinks (List.range 15)
  | _ => { s with pwr := { s.pwr with pcie := false } }

/-- PLL `k` loses lock. -/
def State.losePll (s : State) (k : Nat) : State :=
  if s.pllOk k = false then s
  else
    let s : State := { s with pwr := { s.pwr with pllLost := sput noLoss s.pwr.pllLost k (some s.tb.now) } }
    (((s.setReg GLB_CLK_STAT (setBits (s.reg GLB_CLK_STAT) k 1 0)).raise GLB_CLK_STAT_LOCK_LOST).postClock k none).pllEffect k

/-- PLL `k` relocks. -/
def State.regainPll (s : State) (k : Nat) : State :=
  match sget noLoss s.pwr.pllLost k with
  | none => s
  | some t =>
    let s : State := { s with pwr := { s.pwr with pllLost := sput noLoss s.pwr.pllLost k none } }
    (s.setReg GLB_CLK_STAT (setBits (s.reg GLB_CLK_STAT) k 1 1)).postClock k (some t)

/-! ### The rider and the fail-safe sequencer (R484, R493) -/

/-- The latest rider restarts within 3,600 s. -/
def State.recentRestarts (s : State) : List Nat := s.mem.restarts.filter fun t => decide (s.since t ≤ 3600 * unitSec)

/-- A rider restart that is due (R484). -/
def State.restartRider (s : State) : State :=
  if s.mem.riderDue = false then s
  else
    let s := (((s.domainReset 2).clear HIF_STATUS_READY).bumpReg MEM_RIDER_RST 1).trialFails
    let ts := s.recentRestarts ++ [s.tb.now]
    let s : State := { s with mem := { s.mem with riderDue := false, restarts := ts } }
    if 4 ≤ ts.length then s.deviceFault 0xFF 11 0 0 else s

/-- Every LBK field takes its reset value; a DRAM channel that was looped is trained and initialised again, and what lay in it is lost
(R575, log entry 27). -/
def State.endTest (s : State) : State :=
  let s := (List.range 16).foldl (fun (s : State) f =>
    if s.pattern f ∧ s.bit (MTR_FEED_CFG_EN f) = false then
      let s := s.setFeed f { s.feed f with startAt := none }
      if s.meterRuns f then s.stopFeed f else s
    else s) s
  let s := s.resetRegs (fun off => decide (blockOf off = 17)) (fun _ => 0)
  if s.test.looped = false then s
  else
    let bare (l : Layer) : Layer := { l with latched := .none, cells := [], copy := [], changed := false }
    let s : State := { s with test := { s.test with looped := false }, fe := { s.fe with blocks := [], changes := [], layers := s.fe.layers.map fun kv => (kv.1, kv.2.map bare) } }
    s.clear MEM_STATUS_INIT_DONE

/-- FAULT goes out on every up lane (R493). -/
def State.faultBothLanes (s : State) : State :=
  if s.laneUp 0 ∧ s.laneUp 1 ∧ s.bit TDM_CTRL_EN ∧ s.pairLive ∧ s.role ≠ tdmDown ∧ s.role ≠ tdmFaulty then s.sendOn 1 (.fault 4 s.progress) else s

/-- Ticks stop at once with no stop boundary: RUN reads 0, what is staged or pending is discarded, and cue steps are too. -/
def State.haltTicks (s : State) : State :=
  let t := { s.tick with running := false, startAfter := none, stopping := false, acting := false }
  let s : State := { s with tick := t, staged := [], fe := { s.fe with registering := [], changes := [] } }
  (((s.clear TK_CTRL_RUN).dropChange).discardAllCues 1 fun _ => true)

/-- Descriptors in flight are discarded without completion (R123, R492). -/
def State.dropFlight (s : State) : State :=
  { s with hif := { s.hif with running := [], sq := [] }, tm := { s.tm with cmds := [] } }

/-- The fault lies in the security core or the Saddle monitor: secure SRAM, or the handler (R486, R493). -/
def secFault (r : ErrRecord) : Bool := decide (r.memid = 8 ∨ r.kind = 9)

/-- The records that are open go to the log as INCOMPLETE, highest rank first (R487). -/
def State.fileOpen (s : State) : State :=
  [2, 1, 0].foldl (fun (s : State) k =>
    match sget noRecord s.mem.records k with
    | none => s
    | some r => ({ s with mem := { s.mem with records := sput noRecord s.mem.records k none } } : State).fileRecord r 1) s

/-- The drive gates are low, the DMX lines mark, and a packet in progress is cut off. -/
def State.darkOutputs (s : State) : State :=
  let s := s.stopDrive
  { s with tm := { s.tm with dmx := smap dmxDflt (fun x => { x with busy := false, onLine := false }) s.tm.dmx } }

/-- The fail-safe sequencer acts on the DEVICE_FAULT that waits (R493). -/
def State.failSafe (s : State) : State :=
  match s.mem.fault with
  | none => s
  | some r =>
    let s := ((((s.endTest).setSvc 4 4).trialFails).darkOutputs).faultBothLanes.declareFaulty 4
    let s := ((s.haltTicks).dropFlight).clear HIF_STATUS_READY
    let ds := [2, 7, 8, 9, 10, 11] ++ (if secFault r then [1] else [])
    let s := ds.foldl State.domainReset s
    let n := s.tkr.bootc + 1
    let s : State := { s with tkr := { s.tkr with bootc := n }, tdm := { s.tdm with seq := 0 } }
    let s := ((s.setReg TKR_BOOTC (n % 2 ^ 32)).fileOpen).logRecord r
    let s := ((s.setFld MEM_FS_CAUSE_KIND r.kind).setFld MEM_FS_CAUSE_MEMID r.memid).raise MEM_FS_CAUSE_VALID
    { s with mem := { s.mem with fault := none, reportFault := true, riderDue := false } }

/-! ### TEST service (R491, R573, R575) -/

/-- A write of MEM_SVC_REQ with TEST set. -/
def State.enterTest (s : State) (v : Nat) : State := if bitB v 0 ∧ s.svc = 0 ∧ s.run = false then (s.tandemOff).setSvc 2 3 else s

/-- A write of MEM_SVC_REQ with LEAVE set. -/
def State.leaveTest (s : State) (v : Nat) : State := if bitB v 1 ∧ s.svc = 2 then (s.endTest).setSvc 0 3 else s

/-! ### The commands -/

/-- POWER_ON_RESET (R561): with the sampled strap. -/
def execPowerOnReset (mode : Fin 8) (s : State) : Res := .next (s.powerOn mode.val false)

/-- BROWNOUT (R609). -/
def execBrownout (mode : Fin 8) (s : State) : Res := .next (s.powerOn mode.val true)

/-- PIN_WARM_RESET (R561). -/
def execPinWarmReset (mode : Fin 8) (s : State) : Res := .next (s.pinWarm mode.val)

/-- HOST_DEVICE_RESET (R561). -/
def execHostDeviceReset (which : HostReset) (s : State) : Res := .next (s.hostDevice which)

/-- PERST_HIF_DOMAIN_RESET (R563). -/
def execPerstHifDomainReset (s : State) : Res := .next s.perstHif

/-- BOOT (R539): the bridle table of the configuration, whether its signature verifies, and the master layer that the stored
configuration names (R597). -/
def execBoot (table : Option (BitVec 256)) (signed : Bool) (master : Option Half) (s : State) : Res :=
  .next (({ s with shu := { s.shu with master := if s.mode = 2 then master.map BitVec.toNat else none } } : State).bootUp (table.map fun v => leBytes 32 v.toNat) signed)

/-- DRAM_TRAINING_DONE (R634): whether a device answered on channels 3 to 5, and the bytes of DRAM. -/
def execDramTrainingDone (chB : Bool) (bytes : DWord) (s : State) : Res := .next (s.trained chB bytes.toNat)

/-- RIDER_READY (R634). -/
def execRiderReady (s : State) : Res := .next s.setReady

/-- PCIE_LINK_TRAINING (R572). -/
def execPcieLinkTraining (s : State) : Res := .next s.trainPcie

/-- THERM_TRIP (R614). -/
def execThermTrip (s : State) : Res := .next { s with pwr := { s.pwr with thermTrip := true } }

/-- CLK_REF_LOST (R569). -/
def execClkRefLost (s : State) : Res := .next s.loseRef

/-- CLK_REF_RETURNED (R569). -/
def execClkRefReturned (s : State) : Res := .next s.regainRef

/-- PLL_LOCK_LOST (R569): PLL `k` + 1 of R570. -/
def execPllLockLost (k : Fin 7) (s : State) : Res := .next (s.losePll (k.val + 1))

/-- PLL_RELOCK (R569). -/
def execPllRelock (k : Fin 7) (s : State) : Res := .next (s.regainPll (k.val + 1))

/-- DOMAIN_POWER_REQUEST (R556): a write of `v` to GLB_PWR_REQ. -/
def execDomainPowerRequest (v : Word) (s : State) : Res := .next (s.writePwrReq v.toNat)

/-- DOMAIN_POWER_UP_DONE (R558). -/
def execDomainPowerUpDone (d : Fin 14) (s : State) : Res := .next (s.powerUp d.val)

/-- DOMAIN_RESET (R561): by host software through GLB_DOM_RST with value `v`, or of domain `d` by the Saddle monitor. -/
def execDomainReset (d : Fin 14) (v : Option Word) (s : State) : Res :=
  match v with
  | some v => .next (s.writeDomRst v.toNat)
  | none => .next (s.domainReset d.val)

/-- RIDER_RESTART (R484). -/
def execRiderRestart (s : State) : Res := .next s.restartRider

/-- FAILSAFE_SEQUENCE (R493). -/
def execFailsafeSequence (s : State) : Res := .next s.failSafe

/-- SVC_ENTER_TEST (R491): a write of `v` to MEM_SVC_REQ. -/
def execSvcEnterTest (v : Word) (s : State) : Res := .next (s.enterTest v.toNat)

/-- SVC_LEAVE_TEST (R575). -/
def execSvcLeaveTest (v : Word) (s : State) : Res := .next (s.leaveTest v.toNat)

end Sys2Proof.Machine
end

