-- ==== Sys2Proof/Machine/Loopback.lean ====
section
/-! DEFINITION. Loop-backs, pattern checkers and test selections (22_loopbacks_and_test.md, R573 – R585), and the end of
a DMX packet (R314). -/

namespace Sys2Proof.Machine

/-! ### Plain writes (R9) -/

/-- The RW, RWS and unlocked RWL fields of a word take `v`, clamped where the register's table says so; W1C bits written 1 clear. -/
def State.putPlain (s : State) (off v : Nat) : State :=
  let b := baseOf off
  let d := wordAt off
  let x := if b.2.2 = 0 then clampWord b.1 v else v
  let w := mergeBits (Nat.lor d.rw (Nat.lor d.rws d.rwl)) (s.reg off) x
  (s.setReg off (Nat.land w (Nat.xor (2 ^ 32 - 1) (Nat.land d.w1c v)))).noteClamp b.1 v x

/-! ### Lanes (R577 – R580) -/

/-- A pattern or a depth as it acts: 6 and 7 are off, and depths above 4 are 0. -/
def lanePattern (p : Nat) : Nat := if 5 < p then 0 else p
def laneDepth (d : Nat) : Nat := if 4 < d then 0 else d

/-- A generator or a checker is on under a LBK_LANE_CTRL value. -/
def laneBusy (v : Nat) : Bool := decide (lanePattern (bitsOf v 4 3) ≠ 0 ∨ lanePattern (bitsOf v 8 3) ≠ 0)

/-- The generator or checker of lane `l` may be on under LBK_LANE_CTRL value `v` and PCIe depth `d` (R579). -/
def laneFits (l v d : Nat) : Bool :=
  !laneBusy v || (if l < 15 then decide (laneDepth (bitsOf v 0 3) = 0 ∨ laneDepth (bitsOf v 0 3) = 3) else decide (d = 0 ∨ d = 2))

/-- A write of LBK_LANE_CTRL of lane `l`. -/
def State.writeLane (s : State) (l v : Nat) : State :=
  let v := if l < 15 then v else v / 8 * 8
  let old := s.reg (LBK_LANE_CTRL l)
  if laneFits l v (s.fld LBK_PCIE_v) = false then s.raise LBK_STATUS_CONFLICT
  else
    let s := s.putPlain (LBK_LANE_CTRL l) v
    if bitsOf old 8 3 = bitsOf v 8 3 ∧ bitsOf old 12 1 = bitsOf v 12 1 then s
    else (s.setReg (LBK_LANE_STAT l) 0).setReg (LBK_LANE_ERR l) 0

/-- A write of LBK_PCIE (R578); only REGACC may take the link out of L0. -/
def State.writeLbkPcie (s : State) (jtag : Bool) (v : Nat) : State :=
  let d := bitsOf v 0 2
  if d ≠ 0 ∧ jtag = false then s.raise LBK_STATUS_PATH
  else if ((List.range 8).all fun k => laneFits (15 + k) (s.reg (LBK_LANE_CTRL (15 + k))) d) = false then s.raise LBK_STATUS_CONFLICT
  else
    let s := s.putPlain LBK_PCIE v
    if d = 0 then s else { s with pwr := { s.pwr with pcie := false } }

/-! ### DRAM, metering pattern and DMX (R581, R582, R585) -/

/-- A write of LBK_DDR. -/
def State.writeLbkDdr (s : State) (v : Nat) : State :=
  let s := s.putPlain LBK_DDR v
  if (List.range 6).any fun c => bitsOf v (3 * c) 2 ≠ 0 then { s with test := { s.test with looped := true } } else s

/-- The pattern of feed `f` starts or ends. -/
def State.patternFeed (s : State) (f : Nat) (on : Bool) : State :=
  if on then s.setFeed f { s.feed f with startAt := some s.nextSecond }
  else if s.bit (MTR_FEED_CFG_EN f) then s
  else
    let s := s.setFeed f { s.feed f with startAt := none }
    if s.meterRuns f then s.stopFeed f else s

/-- A write of LBK_MPG_CTRL. -/
def State.writeMpg (s : State) (v : Nat) : State :=
  let old := s.reg LBK_MPG_CTRL
  if (List.range 16).any fun f => bitB v f && !bitB old f && s.bit (MTR_FEED_CFG_EN f) then s.raise LBK_STATUS_CONFLICT
  else
    let s := s.putPlain LBK_MPG_CTRL v
    (List.range 16).foldl (fun (s : State) f => if bitB v f = bitB old f then s else s.patternFeed f (bitB v f)) s

/-- The loop-back depth of DMX port `n`; 3 is treated as 0. -/
def State.dmxLoop (s : State) (n : Nat) : Nat :=
  let d := bitsOf (s.reg LBK_DMX) (2 * n) 2
  if s.svc = 2 ∧ d ≠ 3 then d else 0

/-- The slots of a test packet. -/
def testSlots : List Byte := (List.range 512).map fun k => BitVec.ofNat 8 k

/-- A test packet starts on port `n`; at depth 1 the line stays at marking. -/
def State.testPacket (s : State) (n : Nat) : State :=
  let x := s.dmxPort n
  let s := (s.setDmx n { x with busy := true, ends := s.tb.now + s.dmxLength n 512, placed := false }).raise (DMX_STAT_ACTIVE n)
  if s.dmxLoop n = 2 then s.emit (.dmx n 0 testSlots) else s

/-- A write of LBK_DMX. -/
def State.writeLbkDmx (s : State) (v : Nat) : State :=
  let s := s.putPlain LBK_DMX v
  (List.range 16).foldl (fun (s : State) n => if s.dmxLoop n ≠ 0 ∧ (s.dmxPort n).busy = false then s.testPacket n else s) s

/-- The end of a packet on port `n`: a waiting transaction is placed (R314), and a port in loop-back counts the slots received wrong
and sends its next test packet (R585). -/
def State.packetEnd (s : State) (n wrong : Nat) : State :=
  if (s.dmxPort n).busy = false then s
  else
    let s := s.dmxEnd n
    if s.dmxLoop n ≠ 0 then (s.bumpReg (LBK_DMX_ERR n) wrong).testPacket n
    else if s.dmxMay n then s else s.clear (DMX_STAT_ACTIVE n)

/-! ### Writes of LBK (R573) -/

/-- A write of the LBK word at `off`, over BAR0 or by REGACC. -/
def State.writeLbk (s : State) (jtag : Bool) (off v : Nat) : State :=
  if s.svc ≠ 2 then s.raise LBK_STATUS_SVC
  else
    let b := baseOf off
    if b.1 = LBK_PCIE then s.writeLbkPcie jtag v
    else if b.1 = LBK_DDR then s.writeLbkDdr v
    else if b.1 = LBK_MPG_CTRL then s.writeMpg v
    else if b.1 = LBK_DMX then s.writeLbkDmx v
    else if b.1 = LBK_LANE_CTRL 0 then s.writeLane b.2.1 v
    else s.putPlain off v

/-! ### Checkers (R580) -/

/-- 128 bits in a row match. -/
def State.checkerLock (s : State) (l : Nat) : State :=
  if s.svc = 2 ∧ lanePattern (s.fld (LBK_LANE_CTRL_CHK_PAT l)) ≠ 0 then s.setReg (LBK_LANE_STAT l) 1 else s

/-- 64 errors within 1,024 bits; `n` errors were counted since the latest read or lock. -/
def State.checkerLose (s : State) (l n : Nat) : State :=
  if s.svc = 2 ∧ s.reg (LBK_LANE_STAT l) = 1 then (s.bumpReg (LBK_LANE_ERR l) n).setReg (LBK_LANE_STAT l) 0 else s

/-! ### The commands -/

/-- DMX_PACKET_END (R314): `wrong` slots came back wrong in a loop-back (R585). -/
def execDmxPacketEnd (port : Fin 16) (wrong : Fin 514) (s : State) : Res := .next (s.packetEnd port.val wrong.val)

/-- PRBS_CHECKER_LOCKED (R580). -/
def execPrbsCheckerLocked (lane : Fin 23) (s : State) : Res := .next (s.checkerLock lane.val)

/-- PRBS_CHECKER_LOCK_LOST (R580). -/
def execPrbsCheckerLockLost (lane : Fin 23) (errors : Word) (s : State) : Res := .next (s.checkerLose lane.val errors.toNat)

/-- PCIE_LOOPBACK_ENTRY (R578). -/
def execPcieLoopbackEntry (s : State) : Res :=
  .next (if s.pwr.pcie then { s with pwr := { s.pwr with pcie := false, follower := true } } else s)

end Sys2Proof.Machine
end

