-- ==== Sys2Proof/Machine/Close.lean ====
section
/-! DEFINITION. The telemetry close of a tick and the free close (14_telemetry_and_herd_filter.md, R378 – R380). -/

namespace Sys2Proof.Machine

/-- The registers of R212 and FE_CLR_CLIP take the counts of the tick's compose window. -/
def State.loadCounts (s : State) : State :=
  match s.frameNow with
  | none => s
  | some f =>
    let c := f.counts
    let cap (n : Nat) : Nat := min (2 ^ 32 - 1) n
    let s := (s.setReg64 FE_CMP_COST (c.cost % 2 ^ 64)).setReg64 FE_CMP_BYTES (c.bytes % 2 ^ 64)
    let s := (s.setReg FE_CMP_TIME (cap (c.time / unitNs))).setReg FE_STALL_NS (cap c.stall)
    let s := (s.setReg FE_TC_MISS (cap c.dram)).setReg FE_TC_HOST (cap c.host)
    ((s.setReg FE_MAP_ABSENT (cap c.absent)).setReg FE_FILL (cap c.fill)).setReg FE_CLR_CLIP (cap c.clip)

/-- FREEZE and FREEZE_CLEARED wait for the close (R279, R281); TYPE 0x38 comes before 0x39 (R380). -/
def State.closeFreeze (s : State) : State :=
  let es := s.tm.events
  let s : State := { s with tm := { s.tm with events := [] } }
  ((es.filter fun e => decide (e.typ = 0x38)) ++ (es.filter fun e => decide (e.typ ≠ 0x38))).foldl (fun (s : State) e => s.post e) s

/-- PORT_STARVED for the tick before (R261, R281). -/
def State.closeStarved (s : State) : State :=
  (List.range 8).foldl (fun (s : State) p =>
    let x := (s.port p).starvedBefore
    if x.1 = 0 then s
    else
      (s.setPort p { s.port p with starvedBefore := (0, 0) }).postNow 0x3A 0 0
        [(16, 1, p), (20, 4, x.1), (24, 4, x.2), (28, 4, (s.tickNo + 2 ^ 32 - 1) % 2 ^ 32)]) s

/-- MEM_DEVICE_FAULT from the log (R490). -/
def State.closeFault (s : State) : State :=
  match (s.mem.log.filter fun r => decide (r.sev = 3)).getLast? with
  | none => s
  | some r => ({ s with mem := { s.mem with reportFault := false } } : State).post (s.recordEvent 0x73 r r.first)

/-- What every close does (R380): silences, the events of the close in ascending TYPE, herds, and the drain of the queues. -/
def State.closeAll (s : State) : State :=
  let s := (((s.closeSilence).closeTemps).closeCurb).closeFreeze
  let s := ((s.closeStarved).closeReports).closeZones
  let s := (if s.mem.reportFault then s.closeFault else s).flushCorrected
  (s.closeHerds).drainAll

/-- TELEMETRY_CLOSE: once in a tick, at B + TLM_PM × P / 1,000 (R68, R380); it sets the fence bound to it (R137). -/
def State.tickClose (s : State) : State :=
  if s.tick.running = false ∨ s.tick.closed then s
  else
    let s := s.runTo (s.phaseAt (s.fld TK_PHASES_TLM_PM))
    let s : State := { s with tick := { s.tick with closed := true } }
    (s.loadCounts.closeAll).source 0 s.tickNo

/-- The instant of the next free close: every whole millisecond of timebase time (R378). -/
def State.nextFree (s : State) : Nat :=
  let t := gridNext unitMs s.tb.now * unitMs
  if t = s.tick.freeClose then t + unitMs else t

/-- FREE_CLOSE, while TK_CTRL.RUN is 0 and no tick is in progress; every 64th is a key-epoch boundary (R510). -/
def State.freeClose (s : State) : State :=
  if s.run ∨ s.tick.running then s
  else
    let t := s.nextFree
    let s := s.runTo t
    let n := s.tkr.closes + 1
    let s : State := { s with tick := { s.tick with freeClose := t }, tkr := { s.tkr with closes := n % 64 } }
    let s := if n % 64 = 0 then s.keyEpoch else s
    s.closeAll

/-- TELEMETRY_CLOSE (R380). -/
def execTelemetryClose (s : State) : Res := .next s.tickClose

/-- FREE_CLOSE (R378). -/
def execFreeClose (s : State) : Res := .next s.freeClose

end Sys2Proof.Machine
end

