-- ==== Sys2Proof/Machine/Tick.lean ====
section
/-! DEFINITION. Starting and stopping the tick unit, the pipeline depth, and the boundaries of ticks
(03_hoofbeat_ticks_and_gaits.md, R59 – R73, R87 – R90, R638). -/

namespace Sys2Proof.Machine

/-! ### Depth (R65) -/

/-- A layer type whose space depends on the depth. -/
def Layer.deep (l : Layer) : Bool := decide (1 ≤ l.typ)

/-- New places for layers at depth `d`, each in the first free span of the region that holds it; `used` are the places kept. -/
def reallocate (base size d : Nat) : List (Nat × Layer) → List (Nat × Nat) → Option (List (Nat × Layer))
  | [], _ => some []
  | (i, l) :: ls, used =>
    let need := max l.size (layerBytes d l)
    match (freeSpans base size used).find? fun g => decide (need ≤ g.2) with
    | none => none
    | some g =>
      match reallocate base size d ls (used ++ [(g.1, need)]) with
      | none => none
      | some rs => some ((i, { l with addr := g.1, size := need }) :: rs)

/-- The layers of a store that depend on the depth, and the places of the others. -/
def deepLayers (m : Sparse (Option Layer)) : List (Nat × Layer) :=
  m.filterMap fun kv => match kv.2 with | some l => if l.deep then some (kv.1, l) else none | none => none
def shallowPlaces (m : Sparse (Option Layer)) : List (Nat × Nat) :=
  m.filterMap fun kv => match kv.2 with | some l => if l.deep then none else some (l.addr, l.size) | none => none

/-- Put reallocated layers back. -/
def putLayers (m : Sparse (Option Layer)) (ls : List (Nat × Layer)) : Sparse (Option Layer) :=
  ls.foldl (fun m x => sput noLayer m x.1 (some x.2)) m

/-- The depth rises: every layer of type 1 to 3 takes its space at the new depth. -/
def State.raiseDepth (s : State) (d : Nat) : State :=
  let a := deepLayers s.fe.layers
  let b := deepLayers s.fe.registering
  match reallocate s.lyrBase s.lyrSize d (a ++ b) (shallowPlaces s.fe.layers ++ shallowPlaces s.fe.registering) with
  | none => s.raise TK_STATUS_DEPTH_REF
  | some rs =>
    let fe := { s.fe with layers := putLayers s.fe.layers (rs.take a.length), registering := putLayers s.fe.registering (rs.drop a.length) }
    ({ s with fe := fe } : State).setFld TK_CTRL_DEPTH d

/-- The DEPTH field of a TK_CTRL write. -/
def State.writeDepth (s : State) (v : Nat) : State :=
  let x := bitsOf v 4 3
  let d := clampN 2 (s.fld GLB_CAP4_PIPE_MAX) x
  let s := if d = x then s else s.raise TK_STATUS_CLAMP
  if d = s.depth then s
  else if s.run then s.raise TK_STATUS_RUN_WR
  else if s.depth < d then s.raiseDepth d else s.setFld TK_CTRL_DEPTH d

/-! ### RUN (R62, R64, R638) -/

/-- The period that a run uses (R59). -/
def State.runPeriod (s : State) : Nat := clampN periodMin periodMax s.periodRegs

/-- The grid of a run is fixed: the period in force and PHASE reduced modulo it (R60). -/
def State.setGrid (s : State) (t : Nat) : State :=
  let p := s.runPeriod
  let ph := s.fld TK_PHASE_NS_v * unitNs % p
  { s with tick := { s.tick with period := p, phase := ph, next := gridFrom p ph t } }

/-- The first boundary is to be the first grid instant at or after `t` (R62). -/
def State.startAfter (s : State) (t : Nat) : State :=
  let s : State := { s with tick := { s.tick with startAfter := some t }, tlm := { s.tlm with flush := true } }
  (if s.tick.running then s else s.setGrid t).phaseStart

/-- RUN is written 1 while it reads 0 (R59, R62, R82, R509, R638). -/
def State.startRun (s : State) : State :=
  let p := s.runPeriod
  let s := if p = s.periodRegs then s else (s.setPeriodRegs p).raise TK_STATUS_CLAMP
  if s.runRefused p then s.raise TK_STATUS_CLAMP
  else if s.tkr.reserve = 0 then (s.raise TKR_STAT_SES_WAIT).raise TK_STATUS_CLAMP
  else
    (s.raise TK_CTRL_RUN).nextSession.startAfter (s.tb.now + 100 * unitUs)

/-- RUN is written 0 while it reads 1. -/
def State.stopRun (s : State) : State :=
  let s := s.clear TK_CTRL_RUN
  let s : State := { s with tick := { s.tick with startAfter := none } }
  if s.tick.running then { s with tick := { s.tick with stopping := true } } else (s.dropChange).applyAll

/-- A write of TK_CTRL. -/
def State.writeTkCtrl (s : State) (v : Nat) : State :=
  let s := s.writeDepth v
  let want := bitB v 0
  if want = s.run then s else if want then s.startRun else s.stopRun

/-! ### The frame presented (R287, R312) -/

/-- The part of a store whose keys lie in segments for which `p` holds; `w` keys a segment. -/
def segFilter (w : Nat) (p : Nat → Bool) (m : Sparse Nat) : Sparse Nat := sfilter (fun k => p (k / w)) m

/-- The segments that left in time replace what was presented of them. -/
def State.showFrame (s : State) (f : Frame) : State :=
  let r (g : Nat) : Bool := decide (g ∈ s.tm.ready)
  let w := 8 * segSize
  let vals := (segFilter w r s.tm.vals).foldl (fun m kv => sput zeroNat m kv.1 kv.2) (segFilter w (fun g => !r g) s.tm.shown)
  let spans := s.tm.ready.foldl (fun m g => sput noSpans m g (sget noImage f.images g).spans) s.tm.shownSpans
  { s with tm := { s.tm with shown := vals, shownSpans := spans } }

/-- The frame whose release tick has ended is presented at this boundary. -/
def State.present (s : State) (f : Option Frame) : State :=
  match f with
  | none => s
  | some f => ((s.presentDrive f).showFrame f).presentPhase f

/-! ### Action (4) beside the staged changes -/

/-- An entry of endpoint state takes its reset value (R482). -/
def State.resetEntry (s : State) (c : Consumer) : State :=
  match c with
  | .temp k => { s with fe := { s.fe with temps := sput tempDflt s.fe.temps k {}, tempsClosed := sput noTemp s.fe.tempsClosed k none } }
  | .trim k => { s with fe := { s.fe with trims := sput zeroInt s.fe.trims k 0 } }
  | .ladder ch => ((s.setChan ch { s.chan ch with w := 0, t0 := 0 }).toLadder ch ldNormal 0).clear (DRV_CH_STAT_CAUSE ch)
  | .retired ch => s.setRetired ch false
  | .retiredNode n ch =>
    let ns := s.drv.nodes.filter fun x => decide (x ≠ (n, ch))
    ({ s with drv := { s.drv with nodes := ns } } : State).setReg DRV_RET_NODE ns.length
  | .presence z => s.setZone z { s.zone z with f := 0, c := 0, ruled := false, floor := 0, ceil := 65535 }
  | .curbTerm fp => { s with crb := { s.crb with corr := sput zeroI s.crb.corr fp 0 } }
  | .phasor fp =>
    let x := s.phaseFeed (fp / 4)
    s.setPhaseFeed (fp / 4) { x with corr := sfilter (fun k => decide (k / 2 ≠ fp % 4)) x.corr }
  | .other | .mapBlock _ | .layerTile _ | .frameStore _ | .guardCopy _ | .rider | .tileCache | .mapCache | .cue _ | .eventItem _ _
  | .fence _ | .lineBuffer | .releaseBuffer | .secure => s

/-- Every entry that met an uncorrectable word in the tick. -/
def State.resetEntries (s : State) : State :=
  s.mem.resets.foldl State.resetEntry { s with mem := { s.mem with resets := [] } }

/-- The feeds whose PWM period changes at boundary `n` (R323, R354). -/
def State.newPeriods (s : State) (n : Nat) : State :=
  let fs := (s.drv.periods.filter fun c => decide (c.1 ≤ n)).map fun c => c.2.1
  fs.eraseDups.foldl (fun (s : State) f => s.phasePeriod f) (s.changePeriods n)

/-- What was measured of the tick that ended, which began at `b0` (R251, R406). -/
def State.measured (s : State) (b0 b ended : Nat) : State :=
  let s := (List.range 16).foldl (fun (s : State) f => s.tickFeed b0 b f) s
  let s := if s.follows then s else s.correctAll ended (decide (ended = s.tick.began)) (fun fp => s.meterCurrent b0 fp)
  let c := { s.crb with inFlight := s.crb.inFlight.filter fun x => decide (ended < x.1), lateTicks := s.crb.lateTicks.filter fun t => decide (ended < t) }
  { s with crb := c }

/-- The state of keys at boundary `n` (R509, R510, R525). -/
def State.keyBoundary (s : State) (n : Nat) : State :=
  let s := if n % 64 = 0 then s.keyEpoch else s
  let s := (List.range 64).foldl State.expireGrace s
  if n % 2 ^ 32 = 0 then s.sessionBoundary else s

/-- Action (4) at boundary `n`. -/
def State.actionFour (s : State) (n : Nat) : State :=
  let s := (s.applyBoundary n).phaseBoundary n
  let s := if s.follows then s else s.moveTrims
  let s := (((s.resetEntries).applyTrims).settleNodes).keyBoundary n
  let s := (s.newPeriods n).switchPlans n
  ((s.advanceAll n).swapStep n).joinAtBoundary n

/-! ### The new tick (R66, R68) -/

/-- A port at the start of a release tick: the units of its frame, nothing encoded or sent. -/
def TracePort.fresh (x : TracePort) (units : List (Nat × Nat)) : TracePort :=
  { x with units := units, encoded := [], dropped := [], sent := [], sync := false, frameNo := 0, line := 0, deferred := [], rasterDone := false, starvedBefore := x.starved, starved := (0, 0) }

/-- Egress at the start of a release tick. -/
def State.freshEgress (s : State) : State :=
  let f := s.frameOut
  let one (s : State) (p : Nat) : State :=
    let units := match f with | some f => if s.portOn p then s.unitsOf f p else [] | none => []
    s.setPort p ((s.port p).fresh units)
  let s := (List.range 8).foldl one s
  let teams := smap teamDflt (fun x => { x with started := false, fixed := false }) s.tm.teams
  let t := { s.tm with teams := teams, digests := [], residual := [], signed := [], cleared := [], ready := [], readyAt := 0, readyRun := 0 }
  { s with tm := { t with vals := [], ended := false } }

/-- The Tandem unit at the start of tick `n`: what concerned frames that have been presented is forgotten. -/
def State.freshTandem (s : State) (n : Nat) : State :=
  let d := s.depth
  let t := { s.tdm with csetAt := none, csetGivenUp := false, latchGot := false }
  let t := { t with cset := match t.cset with | some c => if c.1 < n then none else some c | none => none }
  let t := { t with own := t.own.filter fun x => decide (n ≤ x.1 + d), theirs := t.theirs.filter fun x => decide (n ≤ x.1 + d) }
  let t := { t with exempt := t.exempt.filter fun x => decide (n ≤ x + 256), unverified := t.unverified.filter fun x => decide (n ≤ x + d) }
  { s with tdm := t }

/-- The tick that starts at `b`: no phase of it has passed. -/
def State.freshTick (s : State) (b : Nat) (realign : Bool) : State :=
  let t := { s.tick with begin := b, realign := realign, overran := false, composing := false, composed := false, solved := false, closed := false }
  { s with tick := t }

/-- OVERLOAD clears at the end of the first tick that is not an overrun tick (R78). -/
def State.endLoad (s : State) : State :=
  if s.tick.overran then s else { s with tick := { s.tick with overruns := 0, overload := false } }

/-- TK_BOUND: the pre-step time of the boundary. -/
def State.setBound (s : State) (b : Nat) : State :=
  (((s.setReg TK_BOUND_FRAC (fracOf b)).setReg TK_BOUND_NS (nsOf b)).setReg TK_BOUND_SEC_LO (secOf b % 2 ^ 32)).setReg TK_BOUND_SEC_HI (secOf b / 2 ^ 32)

/-- Action (1): an accepted step is applied, and every measurement window is void (R44, R354). -/
def State.actionOne (s : State) : State :=
  if s.tb.step.isSome then ({ s with tb := s.tb.applyStep } : State).voidAll else s

/-- The effective instant of boundary `b` (R88). -/
def State.stepped (s : State) (b : Nat) : Nat :=
  match s.tb.step with
  | some v => ((b : Int) + v * (unitNs : Int)).toNat
  | none => b

/-- Action (6): the comparator target of the next boundary (R61, R88). -/
def State.actionSix (s : State) (b : Nat) (realign : Bool) : State :=
  let p := s.tick.period
  let b' := s.tick.begin
  if realign then
    let next := gridFrom p s.tick.phase (b' + p)
    ({ s with tick := { s.tick with next := next } } : State).setReg TK_REALIGN_NS (min (2 ^ 32 - 1) ((next - b') / unitNs))
  else { s with tick := { s.tick with next := b + p } }

/-- The pending gait or period change that takes effect at this boundary (R87). -/
def State.dueChange (s : State) : Option GaitChange := match s.tick.change with | some c => if c.effTick = s.tickNo then some c else none | none => none

/-- Actions (3) and (4) of the boundary at instant `b`, which ended a tick begun at `b0` with number `ended` (none at a first
boundary). -/
def State.actionsIn (s : State) (b0 b : Nat) (ended : Option Nat) (f : Option Frame) (realign : Bool) : State :=
  let n := s.tickNo
  let s := match s.dueChange with | some c => s.applyChange c | none => s
  let s := (s.freshTick s.tick.begin realign).present f
  let fe := { s.fe with frames := s.fe.frames.filter fun g => decide (n < g.tick + s.depth) }
  let s : State := { s with fe := fe }
  let s := match ended with | some e => s.measured b0 b e | none => s
  s.actionFour n

/-- Actions (5) and (6). -/
def State.actionsOut (s : State) (b0 b : Nat) (realign : Bool) : State :=
  let session := decide (s.reg TKR_SESSION ≠ s.tkr.told)
  let s : State := { s with tkr := { s.tkr with told := s.reg TKR_SESSION } }
  (((s.freshTandem s.tickNo).latchAll b0 s.tick.begin session).freshEgress).actionSix b realign

/-- The actions of a boundary are in progress, or over. -/
def State.setActing (s : State) (v : Bool) : State := { s with tick := { s.tick with acting := v } }

/-- Actions (3) to (6); `step` tells that a step was applied. -/
def State.actions (s : State) (b0 b : Nat) (ended : Option Nat) (f : Option Frame) (step : Bool) : State :=
  let due := s.dueChange
  let realign := step || due.isSome
  let s := (((s.setActing true).actionsIn b0 b ended f realign).actionsOut b0 b realign).setActing false
  let s := match due with | some c => s.postGait c | none => s
  ((s.latchPending).duePeriodic s.tickNo).clearFlags

/-! ### The three boundaries -/

/-- The previous composed values at a first boundary: 0x0000 under the map in force (R62). -/
def State.zeroPrevious (s : State) : State :=
  let prev := s.fe.blocks.map fun kv => (kv.1, ({ spans := kv.2.spans } : SegImage))
  { s with fe := { s.fe with prev := prev.filter fun kv => !kv.2.spans.isEmpty } }

/-- Cue steps whose entry boundary has passed are discarded at a first boundary (R72). -/
def State.dropStale (s : State) : State := s.discardAllCues 1 fun c => decide (c.target < s.tickNo + s.depth)

/-- FIRST_BOUNDARY: TICK_NO takes the grid index of its instant (R62, R63). -/
def State.beginRun (s : State) : State :=
  if s.tick.running ∨ s.tick.startAfter.isNone then s
  else
    let b := s.tick.next
    let s := s.runTo b
    let k := (b - s.tick.phase) / s.tick.period
    let b' := s.stepped b
    let step := s.tb.step.isSome
    let s := (s.actionOne).setBound b
    let s := if k ≤ s.tickNo then s.raise TK_STATUS_TICK_BACK else s
    let s := s.setReg64 TK_TICK_NO (k % 2 ^ 64)
    let s := if s.role = tdmDown then s.raiseEpoch else s
    let t := { s.tick with running := true, startAfter := none, stopping := false, begin := b', began := k, overruns := 0, overload := false }
    let m := { s.tm with teams := [], shown := [], shownSpans := [] }
    let s : State := { s with tick := t, tm := m, fe := { s.fe with frames := [], lastHeld := [] }, crb := { s.crb with inFlight := [], lateTicks := [] } }
    ((s.dropStale).actions b' b none none step).zeroPrevious

/-- The errors `errs` met by the reads of a boundary, and the entries that take their reset value at the one after it (R482). -/
def State.boundaryErrors (s : State) (errs : List BadWord) : State × List Consumer :=
  let t := s.memErrors errs
  ({ t with mem := { t.mem with resets := s.mem.resets } }, t.mem.resets.drop s.mem.resets.length)

/-- TICK_BOUNDARY (R70), whose reads met `errs`. -/
def State.boundary (s : State) (errs : List BadWord) : State :=
  if s.tick.running = false ∨ s.tick.stopping then s
  else
    let b := s.tick.next
    let b0 := s.tick.begin
    let s := (s.runTo b).endLoad
    let ended := s.tickNo
    let f := s.frameOut
    let b' := s.stepped b
    let step := s.tb.step.isSome
    let s := ((s.actionOne).setBound b).setReg64 TK_TICK_NO ((ended + 1) % 2 ^ 64)
    let s : State := { s with tick := { s.tick with begin := b' } }
    let x := s.boundaryErrors errs
    let s := x.1.actions b0 b (some ended) f step
    { s with mem := { s.mem with resets := s.mem.resets ++ x.2 } }

/-- STOPPING_BOUNDARY (R64, R73, R131, R235): only action (1); output stops, frames in the pipeline are discarded, and what is staged
takes effect. -/
def State.endRun (s : State) : State :=
  if s.tick.running = false ∨ s.tick.stopping = false then s
  else
    let b := s.tick.next
    let s := (s.runTo b).endLoad
    let b' := s.stepped b
    let s := (s.actionOne).freshTick b' false
    let s := (List.range 8).foldl (fun (s : State) p => s.terminate p) s
    let s : State := { s with tick := { s.tick with running := false, stopping := false }, fe := { s.fe with frames := [], lastHeld := [] } }
    let s := ((s.freshEgress).freshTandem (s.tickNo + 1)).stopDrive
    let s := ((s.dropChange).applyAll).discardAllCues 1 fun _ => true
    let s := if s.fe.discard then s.discardMap else s
    let s := ((s.resetEntries).endTickWaits).voidAll
    match s.tick.startAfter with
    | some t => s.setGrid (max t (b' + 1))
    | none => s

/-! ### The commands -/

/-- TICK_RUN_START (R62): a write of `v` to TK_CTRL with RUN 1. -/
def execTickRunStart (v : Word) (s : State) : Res := .next (s.writeTkCtrl (setBits v.toNat 0 1 1))

/-- TICK_RUN_STOP (R64): a write of `v` to TK_CTRL with RUN 0. -/
def execTickRunStop (v : Word) (s : State) : Res := .next (s.writeTkCtrl (setBits v.toNat 0 1 0))

/-- TK_DEPTH_WRITE (R65): a write of TK_CTRL whose RUN field is RUN as it reads. -/
def execTkDepthWrite (v : Word) (s : State) : Res := .next (s.writeTkCtrl (setBits v.toNat 0 1 (b2n s.run)))

/-- FIRST_BOUNDARY (R62). -/
def execFirstBoundary (s : State) : Res := .next s.beginRun

/-- TICK_BOUNDARY (R70), whose reads met `errs`. -/
def execTickBoundary (errs : List BadWord) (s : State) : Res := .next (s.boundary errs)

/-- STOPPING_BOUNDARY (R64). -/
def execStoppingBoundary (s : State) : Res := .next s.endRun

end Sys2Proof.Machine
end

