-- ==== Sys2Proof/Machine/Shuset.lean ====
section
/-! DEFINITION. Shuset standalone mode (23_shuset_standalone_mode.md): the stored cue list and its play, the master layer, and the
accesses of the SHU window. -/

namespace Sys2Proof.Machine

/-! ### The stored cue list (R593, R594) -/

/-- The cue at the head of `bs` with the bytes after it, when its header and its records are in range for layer `l`. -/
def takeCue (l : Layer) (bs : List Byte) : Option (StoredCue × List Byte) :=
  let hold := leAt bs 0 4
  let n := leAt bs 4 4
  let body := bs.drop 16
  if bs.length < 16 + 16 * n ∨ hold = 0 ∨ zeros bs 8 8 = false then none
  else if (List.range n).any fun k => cueRecBad l (body.drop (16 * k)) then none
  else some (⟨hold, cueRecs n body⟩, body.drop (16 * n))

/-- `n` cues that fill `bs`. -/
def takeCues (l : Layer) : Nat → List Byte → Option (List StoredCue)
  | 0, bs => if bs = [] then some [] else none
  | n + 1, bs =>
    match takeCue l bs with
    | none => none
    | some (c, rest) => (takeCues l n rest).map fun cs => c :: cs

/-- The header of the list is in range for depth `d` (R593). -/
def cueHeadGood (b : List Byte) (d : Nat) : Bool :=
  decide (leAt b 0 4 = 0x5A4A434C ∧ leAt b 4 2 = 1 ∧ leAt b 6 2 < 2 ∧ d + 2 ≤ leAt b 10 2 ∧ 1 ≤ leAt b 12 4 ∧ leAt b 12 4 ≤ 65535 ∧ 32 ≤ leAt b 16 4 ∧ leAt b 16 4 ≤ b.length)
    && zeros b 20 8

/-- CHECK of a list that is LEN bytes long. -/
def cueCheckGood (b : List Byte) : Bool := decide (leAt b 28 4 = crc32 (patchBytes b 28 (leBytes 4 0)))

/-- The list that the area holds, when R594 accepts it. -/
def State.parseCues (s : State) (area : List Byte) : Option CueList :=
  if cueHeadGood area s.depth = false then none
  else
    let b := area.take (leAt area 16 4)
    if cueCheckGood b = false then none
    else
      match s.valueLayer (leAt b 8 2) with
      | none => none
      | some l => (takeCues l (leAt b 12 4) (b.drop 32)).map fun cs => ⟨bitB (leAt b 6 2) 0, leAt b 8 2, leAt b 10 2, cs⟩

/-- The list is read at the first NORMAL entry after a reset. -/
def State.loadCues (s : State) : State :=
  if s.mode ≠ 2 ∨ s.svc ≠ 1 ∨ s.shu.read then s
  else
    let q := s.parseCues s.nor.cues
    let t : State := { s with shu := { s.shu with read := true, list := q } }
    if q.isNone then t.raise SHU_STATUS_LIST_BAD else t

/-! ### Play (R595, R596) -/

/-- Play is in progress: a cue is still to be submitted, or one that was accepted has not been presented (R596). -/
def State.playing (s : State) : Bool := s.shu.next.isSome || s.shu.shown.any fun x => decide (s.tickNo < x.1)

/-- Index of the cue presented last. -/
def State.lastCue (s : State) : Nat := s.shu.shown.foldl (fun n x => if x.1 ≤ s.tickNo then x.2 else n) 0

/-- Of the steps accepted: those that are still to come and the latest one presented. -/
def State.trimShown (s : State) : List (Nat × Nat) :=
  let past := s.shu.shown.filter fun x => decide (x.1 ≤ s.tickNo)
  past.drop (past.length - 1) ++ s.shu.shown.filter fun x => decide (s.tickNo < x.1)

/-- The layer takes a cue step of `n` records that the rider firmware submits now. -/
def State.cueFits (s : State) (id n : Nat) : Bool := (s.valueLayer id).isSome && !s.isPresence id && decide (s.cuePend + n ≤ cueStoreMax)

/-- The cue after cue `k`, with its tick (R595). -/
def CueList.after (l : CueList) (k x : Nat) (c : StoredCue) : Option (Nat × Nat) :=
  if k + 1 < l.cues.length then some (k + 1, x + c.hold) else if l.loop then some (0, x + c.hold) else none

/-- The rider firmware submits the next cue once its target is at most LEAD ticks away. -/
def State.submitCue (s : State) : State :=
  match s.shu.list, s.shu.next with
  | some l, some (k, x) =>
    match l.cues[k]? with
    | none => s
    | some c =>
      if s.tickNo + l.lead < x then s
      else
        let t : State := { s with shu := { s.shu with next := l.after k x c, newest := some x } }
        if s.cueLate x s.stageTick then t.bump SHU_STATUS_LATE 1
        else if s.cueFits l.layer c.recs.length then
          { t with shu := { t.shu with shown := s.trimShown ++ [(x, k)] } }.holdCue l.layer x c.recs
        else t
  | _, _ => s

/-- GO: play starts at cue `k` LEAD ticks from now, or, during play, at the first tick after the latest submitted target. -/
def State.goCue (s : State) (k : Nat) : State :=
  match s.shu.list with
  | none => s
  | some l =>
    if l.cues.length ≤ k then s
    else
      let x := match s.playing, s.shu.newest with
        | true, some n => n + 1
        | _, _ => s.tickNo + l.lead
      { s with shu := { s.shu with next := some (k, x), newest := if s.playing then s.shu.newest else none } }

/-- STOP: submission ends. -/
def State.stopCues (s : State) : State := { s with shu := { s.shu with next := none } }

/-! ### The master layer (R597) -/

/-- The rider firmware writes the master cell by a cue step d + 2 ticks ahead. -/
def State.writeMaster (s : State) : State :=
  match s.shu.master with
  | none => s
  | some id =>
    match s.valueLayer id with
    | none => s
    | some l =>
      let x := s.tickNo + s.depth + 2
      let v := if s.bit SHU_CTRL_BLACKOUT then 0 else s.fld SHU_MASTER_v
      if s.cueLate x s.stageTick ∨ s.cueFits id 1 = false then s
      else s.holdCue id x [⟨0, 2 ^ l.format - 1, List.replicate 6 v⟩]

/-! ### The window (R598, R599) -/

/-- A write of SHU_CTRL; GO with STOP acts as STOP. -/
def State.writeShuCtrl (s : State) (v : Nat) : State :=
  let old := s.bit SHU_CTRL_BLACKOUT
  let s := s.setReg SHU_CTRL (mergeBits 0xFFFF0004 (s.reg SHU_CTRL) v)
  let s := if s.bit SHU_CTRL_BLACKOUT = old then s else s.writeMaster
  if bitB v 1 then s.stopCues else if bitB v 0 then s.goCue (bitsOf v 16 16) else s

/-- A write of SHU_MASTER. -/
def State.writeShuMaster (s : State) (v : Nat) : State :=
  let old := s.fld SHU_MASTER_v
  let s := s.setFld SHU_MASTER_v (v % 65536)
  if s.fld SHU_MASTER_v = old then s else s.writeMaster

/-- A write of SHU_REINST word `i`. -/
def State.writeShuReinst (s : State) (i v : Nat) : State :=
  (List.range (if i = 0 then 32 else 16)).foldl (fun (s : State) k => if bitB v k then s.reinstateLocal (32 * i + k) else s) s

/-- A write of the window at BAR0 offset `off` takes effect. -/
def State.writeShu (s : State) (off v : Nat) : State :=
  if off = SHU_CTRL then s.writeShuCtrl v
  else if off = SHU_MASTER then s.writeShuMaster v
  else if off = SHU_REINST 0 then s.writeShuReinst 0 v
  else if off = SHU_REINST 1 then s.writeShuReinst 1 v
  else s

/-- The port index and the class of R498. -/
def ShuPort.index : ShuPort → Nat × Nat
  | .spi _ => (32, 6)
  | .mg0 _ _ => (15, 4)

/-- The reply to an access that came over MG0: its own fields with a status in place of OP. -/
def State.shuReply (s : State) (p : ShuPort) (off status data : Nat) : State :=
  match p with
  | .spi _ => s
  | .mg0 ip port =>
    let body := leBytes 4 0x5A4A5348 ++ leBytes 1 status ++ leBytes 1 0 ++ leBytes 2 ((off - SHU_ID) / 4) ++ leBytes 4 data
    s.emit (.frame 14 .reply (Config.ipHead [4, 14, ip.toNat, port.toNat, 12] ++ body))

/-- The access reaches the device: the window exists in BOOT_MODE 0b010 only, and an SPI write has exactly 56 bits. -/
def State.shuReaches (s : State) (p : ShuPort) : Bool :=
  decide (s.mode = 2) && s.domOn 13 && (match p with | .spi n => decide (n = 56) | .mg0 _ _ => s.linkUp 14)

/-- A write from one of the two ports, a command of class 2. -/
def State.shuWrite (s : State) (p : ShuPort) (off v : Nat) : State :=
  let i := p.index
  if s.shuReaches p = false then s
  else if s.bridleOk i.1 i.2 2 = false then (s.bridleDeny i.1 2).shuReply p off stNotPermitted v
  else (s.writeShu off v).shuReply p off stOk v

/-- The IDLE item is latched in queue 0. -/
def State.latchIdle (s : State) : State := s.setQueue 0 { s.queue 0 with latched := s.idleItem }

/-- A read of SHU_EVT word 0, a command of class 7; a refused one returns the IDLE item. -/
def State.shuEvent (s : State) (p : ShuPort) : State :=
  let i := p.index
  let word (s : State) : Nat := leAt (s.queue 0).latched 0 4
  if s.shuReaches (match p with | .spi _ => .spi 56 | q => q) = false then s
  else if s.bridleOk i.1 i.2 7 = false then
    let t := (s.bridleDeny i.1 7).latchIdle
    t.shuReply p (SHU_EVT 0) stNotPermitted (word t)
  else
    let t := s.readQueue 0
    t.shuReply p (SHU_EVT 0) stOk (word t)

/-! ### The commands -/

/-- CUE_LIST_LOAD (R594). -/
def execCueListLoad (s : State) : Res := .next s.loadCues

/-- SHU_CUE_SUBMIT (R595). -/
def execShuCueSubmit (s : State) : Res := .next s.submitCue

/-- SHU_GO (R595): a write of SHU_CTRL with GO and without STOP. -/
def execShuGo (p : ShuPort) (v : Word) (s : State) : Res :=
  .next (if bitB v.toNat 0 ∧ bitB v.toNat 1 = false then s.shuWrite p SHU_CTRL v.toNat else s)

/-- SHU_STOP (R596): a write of SHU_CTRL with STOP. -/
def execShuStop (p : ShuPort) (v : Word) (s : State) : Res := .next (if bitB v.toNat 1 then s.shuWrite p SHU_CTRL v.toNat else s)

/-- SHU_BLACKOUT (R597): a write of SHU_CTRL that changes BLACKOUT. -/
def execShuBlackout (p : ShuPort) (v : Word) (s : State) : Res :=
  .next (if bitB v.toNat 2 = s.bit SHU_CTRL_BLACKOUT then s else s.shuWrite p SHU_CTRL v.toNat)

/-- SHU_MASTER_WRITE (R597). -/
def execShuMasterWrite (p : ShuPort) (v : Word) (s : State) : Res := .next (s.shuWrite p SHU_MASTER v.toNat)

/-- SHU_REINST (R599): the word of channels 0 to 31 or that of channels 32 to 47. -/
def execShuReinst (p : ShuPort) (high : Bool) (v : Word) (s : State) : Res := .next (s.shuWrite p (SHU_REINST (b2n high)) v.toNat)

/-- SHU_EVT_READ (R599). -/
def execShuEvtRead (p : ShuPort) (s : State) : Res := .next (s.shuEvent p)

end Sys2Proof.Machine
end

