-- ==== Sys2Proof/Machine/Views.lean ====
section
/-! DEFINITION. What a read of a register returns: the register file, or a view of the state that the register shows (R9, R12,
25_register_summary.md). -/

namespace Sys2Proof.Machine

/-! ### Views, by block -/

/-- A ring is stopped with a nonzero CAUSE. -/
def State.ringErrors (s : State) : Bool :=
  ((List.range 32).any fun i => s.bit (HIF_SQ_STAT_CAUSE i) || s.bit (HIF_CQ_STAT_CAUSE i)) || (List.range 8).any fun e => s.bit (HIF_EQ_STAT_CAUSE e)

/-- A descriptor of submission ring `i` is fetched or in flight. -/
def State.sqBusy (s : State) (i : Nat) : Bool :=
  let r := s.sq i
  !r.store.isEmpty || r.waiting.isSome || s.hif.running.any (fun d => decide (d.sq = i ∧ d.journal = false))
    || s.staged.any fun x => match x with | .desc d _ _ _ => decide (d.sq = i ∧ d.journal = false) | .reg .. => false

/-- Host interface. -/
def State.viewHif (s : State) (base i w off : Nat) : Option Nat :=
  if base = HIF_STATUS then some (setBits (s.reg off) 3 1 (b2n s.ringErrors))
  else if base = HIF_SQ_STAT 0 then some (setBits (setBits (s.reg off) 1 1 (b2n (s.sq i).waiting.isSome)) 0 1 (b2n (!s.sqBusy i)))
  else if base = HIF_CQ_STAT 0 then some (setBits (s.reg off) 0 1 (b2n (!s.cqOn i)))
  else if base = HIF_EQ_STAT 0 then some (setBits (s.reg off) 0 1 (b2n (!s.eqOn i)))
  else if base = HIF_FENCE_VAL 0 then some (s.fenceShown i / 2 ^ (32 * w) % 2 ^ 32)
  else none

/-- Timebase. -/
def State.viewTb (s : State) (base off : Nat) : Option Nat :=
  if base = TB_STATUS then some (setBits (setBits (s.reg off) 9 1 (b2n s.tb.step.isSome)) 8 1 (b2n (decide (s.tb.pend ≠ 0))))
  else if base = TB_ADJ_PEND then some (toField 32 (Int.tdiv s.tb.pend unitNs))
  else if base = TB_HO_TIME then some (min (2 ^ 32 - 1) (s.tb.hoFor / unitSec))
  else if base = TB_PPS_IN_SEC_LO ∨ base = TB_PPS_IN_SEC_HI then some (sget zeroWord s.timeLatch off).toNat
  else none

/-- Tick unit. -/
def State.viewTk (s : State) (base off : Nat) : Option Nat :=
  if base = TK_STATUS then
    some (setBits (setBits (setBits (s.reg off) 2 1 (b2n s.tick.realign)) 1 1 (b2n s.tick.overload)) 0 1 (b2n s.tick.running))
  else if base = TK_STAGED then
    let desc (x : Staged) : Bool := match x with | .desc .. => true | .reg .. => false
    some (4 * b2n s.tick.change.isSome + 2 * b2n (s.staged.any desc) + b2n (s.staged.any fun x => !desc x))
  else if base = TK_BOUND_NS ∨ base = TK_BOUND_SEC_LO ∨ base = TK_BOUND_SEC_HI then some (sget zeroWord s.timeLatch off).toNat
  else none

/-- Front end. -/
def State.viewFe (s : State) (base i w : Nat) : Option Nat :=
  let half (v : Nat) : Option Nat := some (v / 2 ^ (32 * w) % 2 ^ 32)
  if base = FE_LYR_DRAM_FREE then half (largestFree s.lyrBase s.lyrSize s.lyrUsed)
  else if base = FE_MAP_DRAM_FREE then half (totalFree s.fe.region.1 s.fe.region.2 s.fe.mapUsed)
  else if base = FE_MAP_DRAM_LARGEST then half (largestFree s.fe.region.1 s.fe.region.2 s.fe.mapUsed)
  else if base = FE_SEG_COUNT then some (segCount s.fe.blocks)
  else if base = FE_COMP_USED then some (compSum s.fe.blocks)
  else if base = FE_CUE_PEND then some s.cuePend
  else if base = FE_LAYER_GEN 0 then some (match s.layer i with | some l => l.gen % 2 ^ 32 | none => 0)
  else none

/-- Nodes whose endpoints interleave on their port (R294): another node has an endpoint between two of its own. -/
def State.splitNodes (s : State) : Nat :=
  let xs := s.fe.blocks.flatMap fun kv => (kv.2.spans.filter fun x => decide (x.entry.comp ≠ 0)).map fun x => (x.first, attrNode x.entry.attr)
  let on (p : Nat) : List Nat := (xs.filter fun x => decide (s.fld (TM_PORT_EP_FIRST_v p) ≤ x.1 ∧ x.1 < s.fld (TM_PORT_EP_FIRST_v p) + s.fld (TM_PORT_EP_COUNT_v p))).map fun x => x.2
  let runs (l : List Nat) : List Nat := (l.foldl (fun (a : List Nat) n => if a.head? = some n then a else n :: a) [])
  let split (l : List Nat) : List Nat := l.eraseDups.filter fun n => decide (1 < (l.filter fun m => decide (m = n)).length)
  (((List.range 8).filter fun p => s.bit (TM_PORT_CFG_EN p)).flatMap fun p => split (runs (on p))).eraseDups.length

/-- Egress. -/
def State.viewTm (s : State) (base i : Nat) : Option Nat :=
  if base = TM_PORT_OVH 0 then some (256 * ovhTail + s.ovhHdr i)
  else if base = TM_TRC_SPLIT then some s.splitNodes
  else if base = TM_TRC_NODE_INFO then
    let x := s.node (s.fld TM_TRC_NODE_SEL_v)
    some (2 ^ 31 * b2n x.seen + 2 ^ 29 * x.level + 2 ^ 26 * x.port)
  else none

/-- Concentrator: herds, event queues and the selected zone. -/
def State.viewTlm (s : State) (base i : Nat) : Option Nat :=
  let z := s.zone (s.fld TLM_ZONE_SEL_v)
  if base = TLM_HERD_OPEN then some (s.tlm.herds.filter fun h => !h.alone).length
  else if base = TLM_EQ_FILL 0 then some (s.queue i).items.length
  else if base = TLM_EQ_GAP 0 then some (b2n (s.queue i).gap.isSome)
  else if base = TLM_EQ_RD 0 0 then some (leAt (s.queue (i / 8)).latched (4 * (i % 8)) 4)
  else if base = TLM_ZONE_PED then some z.pedAll
  else if base = TLM_ZONE_CYC then some z.cycAll
  else if base = TLM_ZONE_VEH then some z.vehAll
  else if base = TLM_ZONE_STATE then some (z.ceil * 65536 + z.floor)
  else if base = TLM_ZONE_ACT then some (b2n (match z.until' with | some n => decide (s.tickNo ≤ n) | none => false))
  else none

/-- The tick of the next swap: the one that is set, or the boundary at which a periodic swap of the pair falls (R463). -/
def State.nextSwap (s : State) : Nat :=
  let per := s.reg TDM_SWAP_PER
  match s.tdm.swapTick with
  | some n => n
  | none => if per ≠ 0 ∧ s.inPair ∧ s.tick.running then s.nextNo + cdiv (s.tdm.swapped + per * unitSec - s.tick.next) s.tick.period else 0

/-- Error log. -/
def State.viewMem (s : State) (base i off : Nat) : Option Nat :=
  if base = MEM_STATUS then some (setBits (s.reg off) 3 1 (b2n (!s.mem.log.isEmpty)))
  else if base = MEM_LOG_COUNT then some s.mem.log.length
  else if base = MEM_LOG_DATA 0 then
    some (match s.mem.log.reverse[s.fld MEM_LOG_SEL_v]? with | some r => leAt r.bytes (4 * i) 4 | none => 0)
  else none

/-- Tack room: slots 0 to 3 are the device slots, always ACTIVE (R503, R504). -/
def State.viewTkr (s : State) (base i : Nat) : Option Nat :=
  let k := s.fld TKR_SLOT_SEL_v
  let x := s.slot k
  if base = TKR_SLOT_INFO then
    some (if k < 4 then 65536 * slotActive + 256 * k + 255 else 65536 * x.state + 256 * x.kind + x.parent.getD 255)
  else if base = TKR_SLOT_GEN then some (if k < 4 then 0 else x.gen)
  else if base = TKR_SLOT_GRACE then some (if 4 ≤ k ∧ x.state = slotGrace then cdiv (x.deadline - s.tb.now) unitSec else 0)
  else if base = TKR_ID_HASH 0 then some (leAt s.deviceId (4 * i) 4)
  else none

/-- Images. -/
def State.viewImg (s : State) (base i : Nat) : Option Nat :=
  let x := s.image i
  let h := x.header
  if base = IMG_SLOT_STATE 0 then
    some ((if x.whole then 2 ^ 24 * hdrCgen h + 65536 * hdrSvn h else 0) + 16 * x.cause + 8 * b2n (decide (s.img.active = some i)) + x.state)
  else if base = IMG_SLOT_VER 0 then some (if x.whole then hdrRiderVer h else 0)
  else if base = IMG_SLOT_TOTAL 0 then some x.total
  else if base = IMG_SLOT_MISSING 0 then some x.missing
  else if base = IMG_MIG then some (65536 * s.img.ver + s.img.migState)
  else if base = IMG_NODE_VER then some (s.node (s.fld TM_TRC_NODE_SEL_v)).image
  else none

/-- The SHU window, in BOOT_MODE 0b010 (R598, R599). -/
def State.viewShu (s : State) (base i off : Nat) : Option Nat :=
  if s.mode ≠ 2 then some 0
  else if base = SHU_STATUS then
    let alarm := (List.range 2).any fun f => s.bit (MTR_FEED_STAT_SEQ_BAD f) || s.bit (MTR_FEED_STAT_NEU_LOST f)
    let fault := chans.any fun ch => decide (s.ladder ch ≠ ldNormal)
    let loop := match s.shu.list with | some l => l.loop | none => false
    some (setBits (s.reg off) 0 4 (8 * b2n alarm + 4 * b2n fault + 2 * b2n loop + b2n s.playing))
  else if base = SHU_CUE then some s.lastCue
  else if base = SHU_CH 0 then some ((s.chan i).value * 65536 + s.ladder i)
  else if base = SHU_E 0 0 then some (s.reg (MTR_PH_E (i / 3) (i % 3) 0))
  else if base = SHU_EVT 0 then some (leAt (s.queue 0).latched (4 * i) 4)
  else none

/-- What a register shows beside its own bits. -/
def State.view (s : State) (base i w off : Nat) : Option Nat :=
  match blockOf off with
  | 2 => s.viewHif base i w off
  | 3 => s.viewTb base off
  | 4 => s.viewTk base off
  | 5 => s.viewFe base i w
  | 7 => s.viewTm base i
  | 8 => if base = TDM_SWAP_NEXT then some (s.nextSwap / 2 ^ (32 * w) % 2 ^ 32) else none
  | 9 => s.viewTlm base i
  | 10 => if base = DRV_RET_EP then some s.fe.retired.length else none
  | 11 => if base = MTR_LATCH_SEC_LO 0 ∨ base = MTR_LATCH_SEC_HI 0 then some (sget zeroWord s.timeLatch off).toNat else none
  | 13 => s.viewMem base i off
  | 14 => s.viewTkr base i
  | 15 => s.viewImg base i
  | 17 => if s.svc = 2 then none else some (resetWord off)
  | 19 => s.viewShu base i off
  | _ => none

/-- The word that a register shows: a view, the staged value of an RWT register, or the register itself. -/
def State.shows (s : State) (d : RegDesc) (i w off : Nat) : Nat :=
  match s.view d.base i w off with
  | some v => v
  | none => if (d.words.getD w {}).rwt = 0 then s.reg off else clampWord d.base (s.stagedWord off)

/-- The data that a read of the register word at `off` returns: 0 where no register stands (R10) and while its domain is off (R558);
the high word of a 64-bit register is the one that the latest low-word read latched (R12). -/
def State.readData (s : State) (off : Nat) : Nat :=
  if (match domainOf off with | some d => !s.domOn d | none => true) then 0
  else
    match regAt off with
    | none => 0
    | some (d, i, w) => if w = 1 then (sget zeroWord s.readLatch off).toNat else s.shows d i w off

end Sys2Proof.Machine
end

