-- ==== Sys2Proof/Machine/Access.lean ====
section
/-! DEFINITION. Accesses to BAR0 (00_scope.md): sizes and alignment, access codes, the lock, 64-bit registers, and for each register
what a write or a read of it does (R8 – R14). -/

namespace Sys2Proof.Machine

/-! ### Writes -/

/-- A write of RWT fields: it is staged while RUN is 1 and acts at once while RUN is 0 (R9, R72). -/
def State.writeRwt (s : State) (base off v : Nat) : State :=
  if s.run then (let y := clampWord base v; (s.noteClamp base v y).stageReg off y) else s.putRwt off v

/-- A write that RUN 1 makes the device drop (R256). -/
def State.whileStopped (s : State) (t : State) : State := if s.run then s.raise TM_STATUS_RUN_WR else t

/-- A write in which one field takes no new value while RUN is 1. -/
def State.putHeld (s : State) (off v : Nat) (x : Fld) : State :=
  if s.run ∧ bitsOf v x.lo x.w ≠ s.fld x then (s.raise TM_STATUS_RUN_WR).putPlain off (setBits v x.lo x.w (s.fld x)) else s.putPlain off v

/-- Raster set `r` serves a team with an enabled port, or a pending GAIT_CHANGE names it (R282). -/
def State.rasterBusy (s : State) (r : Nat) : Bool :=
  s.run && (((List.range 8).any fun p => s.bit (TM_PORT_CFG_EN p) && decide (s.rasterOf (s.fld (TM_PORT_CFG_TEAM p)) = r))
    || (match s.tick.change with | some c => (List.range 16).any fun t => bitB c.mask t && decide (bitsOf c.raster (4 * t) 4 = r) | none => false))

/-- The global block. -/
def State.writeGlb (s : State) (base off v : Nat) : State :=
  if base = GLB_LOCK then (if bitB v 0 then s.raise GLB_LOCK_v else s)
  else if base = GLB_PWR_REQ then s.writePwrReq v
  else if base = GLB_DOM_RST then s.writeDomRst v
  else s.putPlain off v

/-- The host interface: the size of a ring is kept while its EN is 1 (R95). -/
def State.writeHif (s : State) (base i off v : Nat) : State :=
  if base = HIF_SVC_REQ then (if bitB v 0 then s.requestNormal else s)
  else if base = HIF_SQ_SIZE 0 then (if s.bit (HIF_SQ_CTRL_EN i) then s else s.putPlain off v)
  else if base = HIF_CQ_SIZE 0 then (if s.bit (HIF_CQ_CTRL_EN i) then s else s.putPlain off v)
  else if base = HIF_EQ_SIZE 0 then (if s.bit (HIF_EQ_CTRL_EN i) then s else s.putPlain off v)
  else if base = HIF_SQ_CTRL 0 then s.writeSqCtrl i v
  else if base = HIF_CQ_CTRL 0 then s.writeCqCtrl i v
  else if base = HIF_EQ_CTRL 0 then s.writeEqCtrl i v
  else if base = HIF_FBIND 0 then s.writeFbind i v
  else s.putPlain off v

/-- The timebase, written by host software. -/
def State.writeTb (s : State) (base off v : Nat) : State :=
  if base = TB_CTRL then s.writeTbCtrl .host v
  else if base = TB_ADJ_NS then s.writeAdj .host v
  else if base = TB_SNAP_CTRL then (if bitB v 0 then s.snapshot else s)
  else if base = TB_PTP_CFG then s.writePtp false v
  else if base = TB_PTP_INTV then s.writePtp true v
  else if base = TB_PPS_CTRL then s.writePps v
  else s.putPlain off v

/-- The tick unit: period, phase and gaits are written while RUN is 0. -/
def State.writeTk (s : State) (base off v : Nat) : State :=
  if base = TK_CTRL then s.writeTkCtrl v
  else if base = TK_PERIOD_NS ∨ base = TK_PERIOD_FRAC ∨ base = TK_PHASE_NS ∨ base = TK_GAIT then (if s.run then s.raise TK_STATUS_RUN_WR else s.putPlain off v)
  else s.putPlain off v

/-- The front end: the registers of a stream are written while its EN is 0. -/
def State.writeFe (s : State) (base i off v : Nat) : State :=
  if base = FE_STRM_CTRL 0 then s.writeStrmCtrl i v
  else if base = FE_STRM_FMT 0 ∨ base = FE_STRM_SIZE 0 ∨ base = FE_STRM_UDP 0 ∨ base = FE_STRM_SRC 0 ∨ base = FE_STRM_LAT 0 ∨ base = FE_STRM_SKEW 0 then
    (if s.bit (FE_STRM_CTRL_EN i) then s else s.putPlain off v)
  else if base = FE_STRM_DST 0 0 then (if s.bit (FE_STRM_CTRL_EN (i / 4)) then s else s.putPlain off v)
  else s.putPlain off v

/-- Egress (R256, R282). -/
def State.writeTm (s : State) (base i off v : Nat) : State :=
  if base = TM_PORT_CFG 0 ∨ base = TM_PORT_EP_FIRST 0 ∨ base = TM_PORT_EP_COUNT 0 ∨ base = TM_TRC_DIP 0 0 then s.whileStopped (s.putPlain off v)
  else if base = TM_RST_H0 0 ∨ base = TM_RST_H1 0 ∨ base = TM_RST_V0 0 ∨ base = TM_RST_V1 0 ∨ base = TM_RST_EPL 0 ∨ base = TM_RST_VBLK 0 then
    (if s.rasterBusy i then s.raise TM_STATUS_RST_BUSY else s.putPlain off v)
  else if base = TM_TRC_PORT 0 then s.putHeld off v (TM_TRC_PORT_VID i)
  else if base = TM_SACN_CFG 0 then s.putHeld off v (TM_SACN_CFG_UNIV_FIRST i)
  else s.putPlain off v

/-- Capture control: START, STOP and the fields beside them (R425, R427). -/
def State.writeCap (s : State) (v : Nat) : State :=
  let s := if bitB v 0 then s.capStart v else s.capFields v
  if bitB v 1 then s.capStop v else s

/-- Partner copy: STOP comes before GO. -/
def State.writePeer (s : State) (v : Nat) : State := if bitB v 9 then s.peerStop v else s.peerGo v

/-- DMX ports. -/
def State.writeDmx (s : State) (base i off v : Nat) : State :=
  if base = DMX_CFG 0 then s.putHeld off v (DMX_CFG_EN i)
  else if base = DMX_EP_FIRST 0 ∨ base = DMX_EP_COUNT 0 then s.whileStopped (s.putPlain off v)
  else s.putPlain off v

/-- A write of a 32-bit register word. -/
def State.write32 (s : State) (jtag : Bool) (base i off v : Nat) : State :=
  if (wordAt off).rwt ≠ 0 then (if base = CRB_CTRL ∧ bitB v 2 then s.clearCorr else s).writeRwt base off v
  else
    match blockOf off with
    | 0 => s.writeGlb base off v
    | 2 => s.writeHif base i off v
    | 3 => s.writeTb base off v
    | 4 => s.writeTk base off v
    | 5 => s.writeFe base i off v
    | 7 => s.writeTm base i off v
    | 8 => if base = TDM_CTRL then s.writeTdmCtrl v else s.putPlain off v
    | 12 => if base = FAR_CAP_CTRL then s.writeCap v else s.putPlain off v
    | 13 => if base = MEM_SVC_REQ then (s.enterTest v).leaveTest v else s.putPlain off v
    | 14 => if base = TKR_PORT_DOM 0 then (if s.run then s else s.putPlain off v) else s.putPlain off v
    | 15 => if base = IMG_PEER then s.writePeer v else s.putPlain off v
    | 17 => s.writeLbk jtag off v
    | 18 => s.writeDmx base i off v
    | 19 => if s.mode = 2 then s.writeShu off v else s
    | _ => s.putPlain off v

/-- Both words of a 64-bit register, whose low word stands at `off`, are committed (R13). -/
def State.write64 (s : State) (jtag : Bool) (base i off v : Nat) : State :=
  let put (s : State) : State := (s.putPlain off (v % 2 ^ 32)).putPlain (off + 4) (v / 2 ^ 32 % 2 ^ 32)
  if base = TB_INCR then s.writeIncr .host v
  else if base = TB_STEP then s.writeStep .host v
  else if base = FE_MAP_DRAM_BASE ∨ base = FE_MAP_DRAM_SIZE then s.writeMapRegion off v
  else if base = HIF_SQ_BASE 0 then (if s.bit (HIF_SQ_CTRL_EN i) then s else put s)
  else if base = HIF_CQ_BASE 0 then (if s.bit (HIF_CQ_CTRL_EN i) then s else put s)
  else if base = HIF_EQ_BASE 0 then (if s.bit (HIF_EQ_CTRL_EN i) then s else put s)
  else if base = TM_TEAM_RST ∨ base = TM_TRC_DMAC 0 then s.whileStopped (put s)
  else if blockOf off = 17 then (s.writeLbk jtag off (v % 2 ^ 32)).writeLbk jtag (off + 4) (v / 2 ^ 32 % 2 ^ 32)
  else put s

/-- The low word held for the 64-bit register at `off`. -/
def State.heldLow (s : State) (off : Nat) : Nat := match s.writeLatch.find? fun x => decide (x.1 = off) with | some x => x.2.toNat | none => 0

/-- The write latch of the register at `off` is emptied, or takes a low word. -/
def State.holdLow (s : State) (off : Nat) (v : Option Nat) : State :=
  let rest := s.writeLatch.filter fun x => decide (x.1 ≠ off)
  { s with writeLatch := match v with | some v => rest ++ [(off, BitVec.ofNat 32 v)] | none => rest }

/-- A write of the high word (R13). -/
def State.writeHigh (s : State) (jtag : Bool) (base i off v : Nat) : State :=
  (s.holdLow (off - 4) none).write64 jtag base i (off - 4) (s.heldLow (off - 4) + 2 ^ 32 * v)

/-- A 4-byte write of the aligned word at `off` (R9, R10, R13, R558). -/
def State.writeWord (s : State) (jtag : Bool) (off v : Nat) : State :=
  match domainOf off, regAt off with
  | some d, r =>
    if s.domOn d = false then s.raise GLB_PWR_STAT_OFF_ACC
    else
      match r with
      | none => s
      | some (x, i, w) =>
        if (x.words.getD w {}).rwl ≠ 0 ∧ s.bit GLB_LOCK_v then s.raise GLB_STATUS_LOCK_VIOL
        else if x.words.length = 2 then (if w = 0 then s.holdLow off (some v) else s.writeHigh jtag x.base i off v)
        else s.write32 jtag x.base i off v
  | none, _ => s

/-- A BAR0 write of `size` bytes (R11). -/
def State.writeBar (s : State) (off size v : Nat) : State :=
  if size = 4 ∧ off % 4 = 0 then s.writeWord false off (v % 2 ^ 32)
  else if size = 8 ∧ off % 8 = 0 then (s.writeWord false off (v % 2 ^ 32)).writeWord false (off + 4) (v / 2 ^ 32 % 2 ^ 32)
  else s.raise GLB_STATUS_SIZE_ERR

/-! ### Reads -/

/-- What reading the word at `off` of register `base` does beside returning it: a counter is cleared, a low word latches the high
one, a capture latches its companions, an event queue gives its head (R11, R12, R53, R383, R408). -/
def State.readEffect (s : State) (d : RegDesc) (i w off : Nat) : State :=
  let b := d.base
  let cor := (d.words.getD w {}).cor
  if b = TB_PPS_IN_NS then s.latchRegs (captureRegs .ppsIn)
  else if b = TK_BOUND_FRAC then s.latchRegs (captureRegs .tkBound)
  else if b = MTR_LATCH_NS 0 then s.latchRegs [MTR_LATCH_SEC_LO i, MTR_LATCH_SEC_HI i]
  else if b = MTR_PH_E 0 0 0 then (if w = 0 then s.readEnergy (i / 18) (i / 6 % 3) (i % 6) else s)
  else if b = TLM_EQ_RD 0 0 then (if i % 8 = 0 then s.readQueue (i / 8) else s)
  else if (blockOf off = 19 ∧ s.mode ≠ 2) ∨ (blockOf off = 17 ∧ s.svc ≠ 2) then s
  else if b = SHU_E 0 0 then s.readEnergy (i / 3) (i % 3) 0
  else if b = SHU_EVT 0 then (if i = 0 then s.readQueue 0 else s)
  else if d.words.length = 2 ∧ w = 0 then { s with readLatch := sput zeroWord s.readLatch (off + 4) (BitVec.ofNat 32 (s.shows d i 1 (off + 4))) }
  else if cor = 0 then s
  else s.setReg off (Nat.land (s.reg off) (Nat.xor (2 ^ 32 - 1) cor))

/-- The data of a read of the aligned word at `off`, and the state after it. -/
def State.readWord (s : State) (off : Nat) : State × Nat :=
  match domainOf off, regAt off with
  | some dom, r =>
    if s.domOn dom = false then (s.raise GLB_PWR_STAT_OFF_ACC, 0)
    else
      match r with
      | none => (s, 0)
      | some (d, i, w) =>
        let t := s.readEffect d i w off
        (t, if d.base = TLM_EQ_RD 0 0 ∨ d.base = SHU_EVT 0 then t.readData off else s.readData off)
  | none, _ => (s, 0)

/-- The errors that a checker or a DRAM loop-back has counted since the latest read stand in its counter (R580, R581). -/
def State.countErrors (s : State) (off n : Nat) : State :=
  let b := baseOf off
  if s.svc ≠ 2 then s
  else if b.1 = LBK_LANE_ERR 0 ∧ s.reg (LBK_LANE_STAT b.2.1) = 1 then s.bumpReg off n
  else if b.1 = LBK_DDR_ERR 0 ∧ bitsOf (s.reg LBK_DDR) (3 * b.2.1) 2 ≠ 0 then s.bumpReg off n
  else s

/-- A read of the `size` bytes at `off`, which lie within one aligned word: the whole word is read, and the addressed bytes are returned
(R11). -/
def State.readPart (s : State) (off size : Nat) : State :=
  let r := s.readWord (off / 4 * 4)
  r.1.emit (.readData off (bitsOf r.2 (8 * (off % 4)) (8 * size)))

/-- A BAR0 read: 8 aligned bytes are two reads of 4, a misaligned read returns 0 (R11). -/
def State.readBar (s : State) (off size : Nat) : State :=
  if size = 8 ∧ off % 8 = 0 then (s.readPart off 4).readPart (off + 4) 4
  else if 0 < size ∧ off % 4 + size ≤ 4 then s.readPart off size
  else s.emit (.readData off 0)

/-! ### The commands -/

/-- REGISTER_WRITE (R11). -/
def execRegisterWrite (off size : Nat) (v : DWord) (s : State) : Res := .next (s.writeBar off size v.toNat)

/-- REG64_LOW_WORD_READ (R12). -/
def execReg64LowWordRead (off size : Nat) (s : State) : Res := .next (s.readBar off size)

/-- REG64_HIGH_WORD_WRITE (R13). -/
def execReg64HighWordWrite (off : Nat) (v : Word) (s : State) : Res := .next (s.writeBar off 4 v.toNat)

/-- CLEAR_ON_READ (R11): `counted` errors have been counted since the latest read of an LBK error counter. -/
def execClearOnRead (off size : Nat) (counted : Word) (s : State) : Res := .next ((s.countErrors (off / 4 * 4) counted.toNat).readBar off size)

/-- GLB_LOCK_SET (R8). -/
def execGlbLockSet (s : State) : Res := .next (s.raise GLB_LOCK_v)

/-- MAP_REGION_WRITE (R640): the committed write of FE_MAP_DRAM_SIZE or FE_MAP_DRAM_BASE. -/
def execMapRegionWrite (size : Bool) (v : DWord) (s : State) : Res :=
  let off := if size then FE_MAP_DRAM_SIZE else FE_MAP_DRAM_BASE
  .next (s.onBlock off (if s.bit GLB_LOCK_v then s.raise GLB_STATUS_LOCK_VIOL else s.writeMapRegion off v.toNat))

end Sys2Proof.Machine
end

