-- ==== Sys2Proof/Machine/Jtag.lean ====
section
/-! DEFINITION. The TAP (22_loopbacks_and_test.md, R586 – R589, R623): each command loads an instruction and makes one scan of its
data register. -/

namespace Sys2Proof.Machine

/-- The instruction register takes a code of R586. -/
def State.loadIr (s : State) (code : Nat) : State := { s with test := { s.test with ir := code } }

/-- Capture-DR puts `v` into the selected data register. -/
def State.capture (s : State) (v : Nat) : State := { s with test := { s.test with captured := v } }

/-- The 32 bits of IDCODE (R623). -/
def idcode : Nat := 0x25120D97

/-- A scan of the boundary register. -/
def State.scan (s : State) (op : BoundaryOp) : State :=
  match op with
  | .capture balls => s.capture balls
  | .update cells => { s with test := { s.test with cells := cells } }

/-- The instructions that drive balls. -/
def drivingCodes : List Nat := [0x00, 0x03, 0x04, 0x08, 0x09]

/-- The boundary register, or high impedance, governs the balls: only in TEST (R576, R586). -/
def State.jtagDrives (s : State) : Bool := decide (s.svc = 2 ∧ s.test.ir ∈ drivingCodes)

/-- An instruction that drives balls: outside TEST it acts as SAMPLE/PRELOAD and sets JTAG_BLK; in TEST `t` is its scan. -/
def State.drive (s : State) (code : Nat) (op : BoundaryOp) (t : State → State) : State :=
  let s := s.loadIr code
  if s.svc = 2 then t s else (s.scan op).raise LBK_STATUS_JTAG_BLK

/-- REGACC may act (R588). -/
def State.regaccMay (s : State) : Bool := decide (s.svc = 2) || s.debug

/-- A scan of REGACC: Capture-DR returns the data of the read before, Update-DR performs one 4-byte access; what follows a write is
left open (log entry 2). -/
def State.regacc (s : State) (write : Bool) (off data counted : Nat) : State :=
  let s := s.loadIr 0x20
  if s.regaccMay = false then ({ s with test := { s.test with regacc := 0 } } : State).capture 0
  else
    let s := s.capture s.test.regacc
    if off % 4 ≠ 0 then (let s : State := { s with test := { s.test with regacc := 0 } }; if write then s.raise GLB_STATUS_SIZE_ERR else s)
    else if write then
      let s : State := { s with test := { s.test with regacc := s.freeVal (2 ^ 32) } }
      s.drew.writeWord true off data
    else
      let r := (s.countErrors off counted).readWord off
      { r.1 with test := { r.1.test with regacc := r.2 } }

/-- A scan of OTP_AUTH0 (R589): `ok` tells that the word programmed reads back with its check word. -/
def State.otpAuth (s : State) (go : Bool) (hash check : Nat) (ok : Bool) : State :=
  let s := (s.loadIr 0x21).capture s.test.otp
  let result (s : State) (n : Nat) : State := { s with test := { s.test with otp := n } }
  let h := beBytes 48 hash
  if go = false then s
  else if s.svc = 2 ∧ sget (fun _ => none) s.tkr.positions 0 = none ∧ check = crc32 h then result (s.setPosition 0 h ok) (if ok then 1 else 3)
  else result s 2

/-! ### The commands -/

/-- JTAG_TEST_LOGIC_RESET (R586). -/
def execJtagTestLogicReset (s : State) : Res := .next (s.loadIr 0x02)

/-- JTAG_EXTEST (R586). -/
def execJtagExtest (op : BoundaryOp) (s : State) : Res := .next (s.drive 0x00 op fun s => s.scan op)

/-- JTAG_SAMPLE_PRELOAD (R586). -/
def execJtagSamplePreload (op : BoundaryOp) (s : State) : Res := .next ((s.loadIr 0x01).scan op)

/-- JTAG_IDCODE (R623). -/
def execJtagIdcode (s : State) : Res := .next ((s.loadIr 0x02).capture idcode)

/-- JTAG_CLAMP (R586): the bypass register captures 0. -/
def execJtagClamp (op : BoundaryOp) (s : State) : Res := .next (s.drive 0x03 op fun s => s.capture 0)

/-- JTAG_HIGHZ (R586). -/
def execJtagHighz (op : BoundaryOp) (s : State) : Res := .next (s.drive 0x04 op fun s => s.capture 0)

/-- JTAG_EXTEST_PULSE (R586, R587). -/
def execJtagExtestPulse (op : BoundaryOp) (s : State) : Res := .next (s.drive 0x08 op fun s => s.scan op)

/-- JTAG_EXTEST_TRAIN (R586, R587). -/
def execJtagExtestTrain (op : BoundaryOp) (s : State) : Res := .next (s.drive 0x09 op fun s => s.scan op)

/-- JTAG_REGACC (R588). -/
def execJtagRegacc (write : Bool) (off data counted : Word) (s : State) : Res := .next (s.regacc write off.toNat data.toNat counted.toNat)

/-- JTAG_OTP_AUTH0 (R589). -/
def execJtagOtpAuth0 (go : Bool) (hash : BitVec 384) (check : Word) (ok : Bool) (s : State) : Res :=
  .next (s.otpAuth go hash.toNat check.toNat ok)

/-- JTAG_BYPASS (R586): BYPASS and every code that the table does not give. -/
def execJtagBypass (code : BitVec 6) (s : State) : Res :=
  .next (if code.toNat ∈ [0x00, 0x01, 0x02, 0x03, 0x04, 0x08, 0x09, 0x20, 0x21] then s else (s.loadIr 0x3F).capture 0)

end Sys2Proof.Machine
end

