-- ==== Sys2Proof/Machine/Dispatch.lean ====
section
/-! DEFINITION. `exec`: one arm per command, each one direct call of its meaning. -/

namespace Sys2Proof.Machine

def exec (i : Instr) (s : State) : Host.Outcome State Fault Refusal :=
  match i with
  | .powerOnReset mode => Sys2Proof.Machine.execPowerOnReset mode s
  | .brownout mode => Sys2Proof.Machine.execBrownout mode s
  | .pinWarmReset mode => Sys2Proof.Machine.execPinWarmReset mode s
  | .hostDeviceReset which => Sys2Proof.Machine.execHostDeviceReset which s
  | .perstHifDomainReset => Sys2Proof.Machine.execPerstHifDomainReset s
  | .boot table signed master => Sys2Proof.Machine.execBoot table signed master s
  | .dramTrainingDone chB bytes => Sys2Proof.Machine.execDramTrainingDone chB bytes s
  | .memoryInitDone => Sys2Proof.Machine.execMemoryInitDone s
  | .meterRestore => Sys2Proof.Machine.execMeterRestore s
  | .ledgerRead => Sys2Proof.Machine.execLedgerRead s
  | .riderReady => Sys2Proof.Machine.execRiderReady s
  | .pcieLinkTraining => Sys2Proof.Machine.execPcieLinkTraining s
  | .thermTrip => Sys2Proof.Machine.execThermTrip s
  | .clkRefLost => Sys2Proof.Machine.execClkRefLost s
  | .clkRefReturned => Sys2Proof.Machine.execClkRefReturned s
  | .pllLockLost k => Sys2Proof.Machine.execPllLockLost k s
  | .pllRelock k => Sys2Proof.Machine.execPllRelock k s
  | .domainPowerRequest v => Sys2Proof.Machine.execDomainPowerRequest v s
  | .domainPowerUpDone d => Sys2Proof.Machine.execDomainPowerUpDone d s
  | .domainReset d v => Sys2Proof.Machine.execDomainReset d v s
  | .registerWrite off size v => Sys2Proof.Machine.execRegisterWrite off size v s
  | .reg64LowWordRead off size => Sys2Proof.Machine.execReg64LowWordRead off size s
  | .reg64HighWordWrite off v => Sys2Proof.Machine.execReg64HighWordWrite off v s
  | .clearOnRead off size counted => Sys2Proof.Machine.execClearOnRead off size counted s
  | .glbLockSet => Sys2Proof.Machine.execGlbLockSet s
  | .svcRequestNormal v => Sys2Proof.Machine.execSvcRequestNormal v s
  | .svcEnterTest v => Sys2Proof.Machine.execSvcEnterTest v s
  | .svcLeaveTest v => Sys2Proof.Machine.execSvcLeaveTest v s
  | .tbTrackSet p => Sys2Proof.Machine.execTbTrackSet p s
  | .tbTrackClear p => Sys2Proof.Machine.execTbTrackClear p s
  | .tbLockSet p => Sys2Proof.Machine.execTbLockSet p s
  | .tbLockClear p => Sys2Proof.Machine.execTbLockClear p s
  | .tbHoExit p => Sys2Proof.Machine.execTbHoExit p s
  | .tbServoChange p hostOwns => Sys2Proof.Machine.execTbServoChange p hostOwns s
  | .tbIncrCommit p v => Sys2Proof.Machine.execTbIncrCommit p v s
  | .tbAdj p v => Sys2Proof.Machine.execTbAdj p v s
  | .tbStepCommit p v => Sys2Proof.Machine.execTbStepCommit p v s
  | .tbSnapshot v => Sys2Proof.Machine.execTbSnapshot v s
  | .tbPtpCfgWrite intv v => Sys2Proof.Machine.execTbPtpCfgWrite intv v s
  | .tbGmIdWrite id => Sys2Proof.Machine.execTbGmIdWrite id s
  | .announceTimeout => Sys2Proof.Machine.execAnnounceTimeout s
  | .syncTimeout => Sys2Proof.Machine.execSyncTimeout s
  | .ppsLossTimeout => Sys2Proof.Machine.execPpsLossTimeout s
  | .ptpMessageReceive w m => Sys2Proof.Machine.execPtpMessageReceive w m s
  | .ptpEventTransmit w kind body => Sys2Proof.Machine.execPtpEventTransmit w kind body s
  | .ppsOutEdge => Sys2Proof.Machine.execPpsOutEdge s
  | .ppsOutPulseEnd => Sys2Proof.Machine.execPpsOutPulseEnd s
  | .ppsInEdge falling pulseNs => Sys2Proof.Machine.execPpsInEdge falling pulseNs s
  | .tickRunStart v => Sys2Proof.Machine.execTickRunStart v s
  | .tickRunStop v => Sys2Proof.Machine.execTickRunStop v s
  | .tkDepthWrite v => Sys2Proof.Machine.execTkDepthWrite v s
  | .firstBoundary => Sys2Proof.Machine.execFirstBoundary s
  | .tickBoundary errs => Sys2Proof.Machine.execTickBoundary errs s
  | .stoppingBoundary => Sys2Proof.Machine.execStoppingBoundary s
  | .composeStart headers => Sys2Proof.Machine.execComposeStart headers s
  | .segmentCompose seg stallNs aloneNs host dram errs => Sys2Proof.Machine.execSegmentCompose seg stallNs aloneNs host dram errs s
  | .composeDeadline => Sys2Proof.Machine.execComposeDeadline s
  | .curbSolve => Sys2Proof.Machine.execCurbSolve s
  | .telemetryClose => Sys2Proof.Machine.execTelemetryClose s
  | .freeClose => Sys2Proof.Machine.execFreeClose s
  | .partEncode path starvedNs l3 level errs => Sys2Proof.Machine.execPartEncode path starvedNs l3 level errs s
  | .segmentSigned seg => Sys2Proof.Machine.execSegmentSigned seg s
  | .partReady seg => Sys2Proof.Machine.execPartReady seg s
  | .checkHoldTimeout seg => Sys2Proof.Machine.execCheckHoldTimeout seg s
  | .rasterStart team => Sys2Proof.Machine.execRasterStart team s
  | .rasterLine port => Sys2Proof.Machine.execRasterLine port s
  | .rasterEnd team => Sys2Proof.Machine.execRasterEnd team s
  | .looseUpperBound team => Sys2Proof.Machine.execLooseUpperBound team s
  | .dataFrameTransmit port errs => Sys2Proof.Machine.execDataFrameTransmit port errs s
  | .managementFrameTransmit port => Sys2Proof.Machine.execManagementFrameTransmit port s
  | .releaseDeadline => Sys2Proof.Machine.execReleaseDeadline s
  | .ethLinkChange w up => Sys2Proof.Machine.execEthLinkChange w up s
  | .sacnDiscoverySend port => Sys2Proof.Machine.execSacnDiscoverySend port s
  | .dmxPacketStart port => Sys2Proof.Machine.execDmxPacketStart port s
  | .rdmResponseReceive port reply => Sys2Proof.Machine.execRdmResponseReceive port reply s
  | .rdmResponseTimeout port => Sys2Proof.Machine.execRdmResponseTimeout port s
  | .sqDoorbell r ofs size v => Sys2Proof.Machine.execSqDoorbell r ofs size v s
  | .cqDoorbell r ofs size v => Sys2Proof.Machine.execCqDoorbell r ofs size v s
  | .eqDoorbell r ofs size v => Sys2Proof.Machine.execEqDoorbell r ofs size v s
  | .ringEnable r ctrl => Sys2Proof.Machine.execRingEnable r ctrl s
  | .ringDisable r ctrl => Sys2Proof.Machine.execRingDisable r ctrl s
  | .descriptorFetch r data => Sys2Proof.Machine.execDescriptorFetch r data s
  | .descriptorStart => Sys2Proof.Machine.execDescriptorStart s
  | .fenceWaitRelease => Sys2Proof.Machine.execFenceWaitRelease s
  | .fenceWaitTimeout r => Sys2Proof.Machine.execFenceWaitTimeout r s
  | .completionPost c written => Sys2Proof.Machine.execCompletionPost c written s
  | .msixCoalesceTimeout r => Sys2Proof.Machine.execMsixCoalesceTimeout r s
  | .fenceBind k v => Sys2Proof.Machine.execFenceBind k v s
  | .nop r => Sys2Proof.Machine.execNop r s
  | .fence r => Sys2Proof.Machine.execFence r s
  | .layerRegister r => Sys2Proof.Machine.execLayerRegister r s
  | .layerUpdate r => Sys2Proof.Machine.execLayerUpdate r s
  | .layerRetire r => Sys2Proof.Machine.execLayerRetire r s
  | .mapLoad r payload => Sys2Proof.Machine.execMapLoad r payload s
  | .mapPatch r payload => Sys2Proof.Machine.execMapPatch r payload s
  | .colourLoad r payload => Sys2Proof.Machine.execColourLoad r payload s
  | .cueStep r payload => Sys2Proof.Machine.execCueStep r payload s
  | .gaitChange r => Sys2Proof.Machine.execGaitChange r s
  | .curbLimits r payload => Sys2Proof.Machine.execCurbLimits r payload s
  | .phasePolicy r payload => Sys2Proof.Machine.execPhasePolicy r payload s
  | .driveConfig r payload => Sys2Proof.Machine.execDriveConfig r payload s
  | .nodeCommand r => Sys2Proof.Machine.execNodeCommand r s
  | .rdmRequest r => Sys2Proof.Machine.execRdmRequest r s
  | .rdmDiscovery r => Sys2Proof.Machine.execRdmDiscovery r s
  | .nodeCommandRetryTimeout id => Sys2Proof.Machine.execNodeCommandRetryTimeout id s
  | .meterConfig r payload => Sys2Proof.Machine.execMeterConfig r payload s
  | .reinstate r => Sys2Proof.Machine.execReinstate r s
  | .keyInstall r payload nor => Sys2Proof.Machine.execKeyInstall r payload nor s
  | .keyInvalidate r payload nor => Sys2Proof.Machine.execKeyInvalidate r payload nor s
  | .keyArmDebug r payload nor => Sys2Proof.Machine.execKeyArmDebug r payload nor s
  | .keyRotateAuthority r payload nor otp => Sys2Proof.Machine.execKeyRotateAuthority r payload nor otp s
  | .attestRequest r => Sys2Proof.Machine.execAttestRequest r s
  | .imageChunk r payload written => Sys2Proof.Machine.execImageChunk r payload written s
  | .nodeImageChunk r payload => Sys2Proof.Machine.execNodeImageChunk r payload s
  | .tandemRoleSwap r => Sys2Proof.Machine.execTandemRoleSwap r s
  | .tandemRolePeriod r => Sys2Proof.Machine.execTandemRolePeriod r s
  | .tandemRoleCancel r => Sys2Proof.Machine.execTandemRoleCancel r s
  | .regStage r => Sys2Proof.Machine.execRegStage r s
  | .networkCueReceive port dstPort datagram => Sys2Proof.Machine.execNetworkCueReceive port dstPort datagram s
  | .streamPacketReceive k p => Sys2Proof.Machine.execStreamPacketReceive k p s
  | .streamLossTimeout k => Sys2Proof.Machine.execStreamLossTimeout k s
  | .sacnPacketReceive port p => Sys2Proof.Machine.execSacnPacketReceive port p s
  | .sacnSyncReceive port cid address => Sys2Proof.Machine.execSacnSyncReceive port cid address s
  | .sacnSourceTimeout u cid => Sys2Proof.Machine.execSacnSourceTimeout u cid s
  | .mapRegionWrite size v => Sys2Proof.Machine.execMapRegionWrite size v s
  | .localTempWrite sensor v => Sys2Proof.Machine.execLocalTempWrite sensor v s
  | .trimTargetSet node c t => Sys2Proof.Machine.execTrimTargetSet node c t s
  | .curbCorrClear => Sys2Proof.Machine.execCurbCorrClear s
  | .pwmPeriodStart feed cycles => Sys2Proof.Machine.execPwmPeriodStart feed cycles s
  | .qualifyWindowEnd ch lowUv highUv adc => Sys2Proof.Machine.execQualifyWindowEnd ch lowUv highUv adc s
  | .measurementWindowEnd feed => Sys2Proof.Machine.execMeasurementWindowEnd feed s
  | .phasePlanCommit feed => Sys2Proof.Machine.execPhasePlanCommit feed s
  | .tlmFrameReceive port frame => Sys2Proof.Machine.execTlmFrameReceive port frame s
  | .eventQueueRead e => Sys2Proof.Machine.execEventQueueRead e s
  | .meterSecond feed clocks => Sys2Proof.Machine.execMeterSecond feed clocks s
  | .meterFeedStart feed => Sys2Proof.Machine.execMeterFeedStart feed s
  | .meterClockLost feed => Sys2Proof.Machine.execMeterClockLost feed s
  | .meterClockReturn feed => Sys2Proof.Machine.execMeterClockReturn feed s
  | .lineCycleEnd feed => Sys2Proof.Machine.execLineCycleEnd feed s
  | .meterLatch feed ledgerOk => Sys2Proof.Machine.execMeterLatch feed ledgerOk s
  | .meterMtrPhERead feed p a => Sys2Proof.Machine.execMeterMtrPhERead feed p a s
  | .meterSave ledgerOk => Sys2Proof.Machine.execMeterSave ledgerOk s
  | .meterSaveComplete result => Sys2Proof.Machine.execMeterSaveComplete result s
  | .factoryTrimUpdate raw => Sys2Proof.Machine.execFactoryTrimUpdate raw s
  | .farCaptureStart ctrl => Sys2Proof.Machine.execFarCaptureStart ctrl s
  | .farCaptureStop ctrl => Sys2Proof.Machine.execFarCaptureStop ctrl s
  | .farCaptureEnd => Sys2Proof.Machine.execFarCaptureEnd s
  | .tandemEnable v => Sys2Proof.Machine.execTandemEnable v s
  | .tandemDisable v => Sys2Proof.Machine.execTandemDisable v s
  | .tandemHbSend => Sys2Proof.Machine.execTandemHbSend s
  | .tandemHbReceived h m offset => Sys2Proof.Machine.execTandemHbReceived h m offset s
  | .partnerLinkLost => Sys2Proof.Machine.execPartnerLinkLost s
  | .tandemLaneChange lane up => Sys2Proof.Machine.execTandemLaneChange lane up s
  | .aliveLineStopped => Sys2Proof.Machine.execAliveLineStopped s
  | .aliveLineRunning => Sys2Proof.Machine.execAliveLineRunning s
  | .aliveReadbackFail => Sys2Proof.Machine.execAliveReadbackFail s
  | .tandemHelloReceived h m => Sys2Proof.Machine.execTandemHelloReceived h m s
  | .tandemSearchTimeout => Sys2Proof.Machine.execTandemSearchTimeout s
  | .fragmentTimeout lane => Sys2Proof.Machine.execFragmentTimeout lane s
  | .jrn h e => Sys2Proof.Machine.execJrn h e s
  | .jack h index => Sys2Proof.Machine.execJack h index s
  | .jackTimeout => Sys2Proof.Machine.execJackTimeout s
  | .jcmt h index bound => Sys2Proof.Machine.execJcmt h index bound s
  | .latch h r => Sys2Proof.Machine.execLatch h r s
  | .latchRecordTimeout => Sys2Proof.Machine.execLatchRecordTimeout s
  | .cset h tick done held => Sys2Proof.Machine.execCset h tick done held s
  | .csetWaitTimeout => Sys2Proof.Machine.execCsetWaitTimeout s
  | .sig h tick sigs => Sys2Proof.Machine.execSig h tick sigs s
  | .shadowLaneDone upset => Sys2Proof.Machine.execShadowLaneDone upset s
  | .shd h tick seg sig shadow => Sys2Proof.Machine.execShd h tick seg sig shadow s
  | .fault h cause progress => Sys2Proof.Machine.execFault h cause progress s
  | .role h swap => Sys2Proof.Machine.execRole h swap s
  | .state h b written => Sys2Proof.Machine.execState h b written s
  | .join h bound => Sys2Proof.Machine.execJoin h bound s
  | .ingest h m => Sys2Proof.Machine.execIngest h m s
  | .resyncRound bytes left streams => Sys2Proof.Machine.execResyncRound bytes left streams s
  | .resyncRetry => Sys2Proof.Machine.execResyncRetry s
  | .scrubStep onChip err => Sys2Proof.Machine.execScrubStep onChip err s
  | .watchListRead errs => Sys2Proof.Machine.execWatchListRead errs s
  | .errorRecordClose => Sys2Proof.Machine.execErrorRecordClose s
  | .handlerWatchdogTimeout => Sys2Proof.Machine.execHandlerWatchdogTimeout s
  | .rowSpare => Sys2Proof.Machine.execRowSpare s
  | .riderRestart => Sys2Proof.Machine.execRiderRestart s
  | .failsafeSequence => Sys2Proof.Machine.execFailsafeSequence s
  | .sessionReserveWrite ok => Sys2Proof.Machine.execSessionReserveWrite ok s
  | .keyGraceExpiry slot => Sys2Proof.Machine.execKeyGraceExpiry slot s
  | .keyGraceNotice slot => Sys2Proof.Machine.execKeyGraceNotice slot s
  | .remaskRound => Sys2Proof.Machine.execRemaskRound s
  | .entropyFailure => Sys2Proof.Machine.execEntropyFailure s
  | .trialConfirm => Sys2Proof.Machine.execTrialConfirm s
  | .configMigration => Sys2Proof.Machine.execConfigMigration s
  | .mg0ImageChunk ip port dst dport datagram written => Sys2Proof.Machine.execMg0ImageChunk ip port dst dport datagram written s
  | .arpRequest target ip mac => Sys2Proof.Machine.execArpRequest target ip mac s
  | .imgPeerGo v => Sys2Proof.Machine.execImgPeerGo v s
  | .imgPeerStop v => Sys2Proof.Machine.execImgPeerStop v s
  | .cueListLoad => Sys2Proof.Machine.execCueListLoad s
  | .shuCueSubmit => Sys2Proof.Machine.execShuCueSubmit s
  | .shuGo p v => Sys2Proof.Machine.execShuGo p v s
  | .shuStop p v => Sys2Proof.Machine.execShuStop p v s
  | .shuBlackout p v => Sys2Proof.Machine.execShuBlackout p v s
  | .shuMasterWrite p v => Sys2Proof.Machine.execShuMasterWrite p v s
  | .shuReinst p high v => Sys2Proof.Machine.execShuReinst p high v s
  | .shuEvtRead p => Sys2Proof.Machine.execShuEvtRead p s
  | .jtagTestLogicReset => Sys2Proof.Machine.execJtagTestLogicReset s
  | .jtagExtest op => Sys2Proof.Machine.execJtagExtest op s
  | .jtagSamplePreload op => Sys2Proof.Machine.execJtagSamplePreload op s
  | .jtagIdcode => Sys2Proof.Machine.execJtagIdcode s
  | .jtagClamp op => Sys2Proof.Machine.execJtagClamp op s
  | .jtagHighz op => Sys2Proof.Machine.execJtagHighz op s
  | .jtagExtestPulse op => Sys2Proof.Machine.execJtagExtestPulse op s
  | .jtagExtestTrain op => Sys2Proof.Machine.execJtagExtestTrain op s
  | .jtagRegacc write off data counted => Sys2Proof.Machine.execJtagRegacc write off data counted s
  | .jtagOtpAuth0 go hash check ok => Sys2Proof.Machine.execJtagOtpAuth0 go hash check ok s
  | .jtagBypass code => Sys2Proof.Machine.execJtagBypass code s
  | .slewComplete => Sys2Proof.Machine.execSlewComplete s
  | .timeCaptureRead c => Sys2Proof.Machine.execTimeCaptureRead c s
  | .outOfStep => Sys2Proof.Machine.execOutOfStep s
  | .dmxPacketEnd port wrong => Sys2Proof.Machine.execDmxPacketEnd port wrong s
  | .meteringSample feed high codes plain => Sys2Proof.Machine.execMeteringSample feed high codes plain s
  | .prbsCheckerLocked lane => Sys2Proof.Machine.execPrbsCheckerLocked lane s
  | .prbsCheckerLockLost lane errors => Sys2Proof.Machine.execPrbsCheckerLockLost lane errors s
  | .pcieLoopbackEntry => Sys2Proof.Machine.execPcieLoopbackEntry s
  | .sessionReserveDone => Sys2Proof.Machine.execSessionReserveDone s

end Sys2Proof.Machine
end

