-- ==== Sys2Proof/Machine/Idle.lean ====
section
/-! DEFINITION. What passes while no command waits: one cycle of the 200 MHz timebase clock (R30, R31; log entry 1). -/

namespace Sys2Proof.Machine

/-- One timebase cycle. -/
def State.idle (s : State) : State :=
  { s with tb := s.tb.cycle (s.fld TB_SLEW_v) s.holdover s.awaitsTick }

end Sys2Proof.Machine
end

