-- ==== Sys2Proof/Safety.lean ====
section
/-! DEFINITION. What counts as a safe run: the invariant of the machine, and a run that no command stops. -/

namespace Sys2Proof

/-- The invariant that every step keeps: the register file is in its one canonical form, so that equal machines are
equal data; no event queue holds more than its 16,384 events (R381); and the error log holds at most its 64 records
(R488). -/
def Machine.State.Inv (s : Machine.State) : Prop :=
  Machine.swf Machine.regDflt s.regs = true ∧ (∀ p ∈ s.evq, p.2.items.length ≤ Machine.queueSize) ∧ s.mem.log.length ≤ 64

/-- The descriptor `d` that ring `r` executes with opcode `op` passes every check, its payload `data` among them, and acts now: once its
reservation has left `u`, it is neither journalled nor staged. -/
def Machine.State.Acts (s : Machine.State) (r op : Nat) (payload : Option (List Byte)) (checks : Machine.State → List Byte → Machine.OpChecks)
    (reserve : Machine.State → Machine.Running → List Byte → Machine.State) (d : Machine.Running) (data : List Byte) (u : Machine.State) : Prop :=
  s.takeRunning r op = some d ∧ payload = some data ∧ (s.dropRunning d).firstCheck d (checks (s.dropRunning d) d.bytes) = none ∧
    (checks (s.dropRunning d) d.bytes).payload data = none ∧ u = reserve (s.dropRunning d) d data ∧
    u.journalled (Machine.opRow (Machine.dOpcode d.bytes)) d.bytes = false ∧ u.willStage d.bytes = false

/-- The Tandem message of type `typ` whose last fragment carries the header `h` is heard: the tandem is enabled, the pair slot's key lives, the tag
verifies, its number is fresh and it is whole; `u` notes the number and the assembly of its lane. -/
def Machine.State.Hears (s : Machine.State) (h : Machine.TdmHead) (typ : Nat) (u : Machine.State) : Prop :=
  s.bit Machine.TDM_CTRL_EN = true ∧ s.pairLive = true ∧ h.tag = true ∧ ∃ w x, h.fresh s.tdm.rx (decide (typ = 0x01)) = some w ∧
    h.assemble typ s.tb.now (Machine.sget Machine.noPartial s.tdm.asm h.lane.val) = (x, true) ∧
    u = ({ s with tdm := { s.tdm with rx := some w } } : Machine.State).setAsm h.lane.val x

/-- `n` steps from `s` meet neither a fault nor a refusal. -/
def SafeFor (s : Machine.State) (n : Nat) : Prop := ∃ t, core.run n s = .next t

end Sys2Proof
end

