-- ==== Sys2Proof/Certificates/Slice0/Obligations.lean ====
section
/-! DEFINITION. The statements for the provers. -/

open Sys2Proof Sys2Proof.Machine

/-- A step takes the command at the front of the queue and runs it. For every command, state and rest of the queue: a step
of the state with the command in front of its queue is exec of the command on the state with the queue's rest. -/
def Obligations.StepRunsTheFrontCommand : Prop :=
  ∀ (c : Instr) (s : State) (q : List Instr), step { s with pending := c :: q } = exec c { s with pending := q }

/-- With no command waiting, one timebase cycle passes. The model's choice (log entry 1): a step on an empty queue changes
the timebase alone, by one cycle of the timebase clock; the registers, the event queues and the queue of commands stay
as they are. -/
def Obligations.IdleLetsOneCyclePass : Prop :=
  ∀ s : State, s.pending = [] → step s = .next { s with tb := s.tb.cycle (s.fld TB_SLEW_v) s.holdover s.awaitsTick }

/-- The machine after reset meets the invariant. After reset the register file is in its canonical form, no event queue
holds more than its 16,384 items, and the error log holds at most its 64 records. -/
def Obligations.ResetMeetsTheInvariant : Prop :=
  State.reset.Inv

/-- Every step keeps the invariant. From every state that meets the invariant (the register file in canonical form, at
most 16,384 items in each event queue, at most 64 records in the error log), whatever commands wait, a step that
answers a next state answers one that meets it. -/
def Obligations.EveryStepKeepsTheInvariant : Prop :=
  ∀ s t : State, s.Inv → step s = .next t → t.Inv

/-- No command touches the queue of commands. In every state that meets the invariant, a command that answers a next state
leaves the queue of waiting commands as it was. -/
def Obligations.CommandsLeaveTheQueueAlone : Prop :=
  ∀ (c : Instr) (s t : State), s.Inv → exec c s = .next t → t.pending = s.pending

/-- No command and no run meets a fault or a refusal. Every command completes: in every state, exec of every command of
the opcode table answers a next state. And so every run, of any number of steps from any state, reaches its end. -/
def Obligations.NoRunIsStopped : Prop :=
  (∀ (c : Instr) (s : State), ∃ t, exec c s = .next t) ∧ (∀ (n : Nat) (s : State), SafeFor s n)

/-- A descriptor that fails a check only completes with the status of that check. For a ring's running descriptor d of the
command's opcode that fails one of the checks made before its payload is read, the command only takes d from what runs
and completes it with the status and result of the first check that fails: none of its own effect happens. A command
with no such descriptor running changes nothing. -/
def Obligations.FailedDescriptorsHaveNoEffect : Prop :=
  (∀ (r : Fin 32) (s : State) (d : Running) (st res : Nat) (p : Option (List Byte)) (w : Bool),
    (s.takeRunning r.val 0x02 = some d → (s.dropRunning d).firstCheck d (fenceChecks (s.dropRunning d) d.bytes) = some (st, res) → exec (.fence r) s = .next ((s.dropRunning d).failDesc d st res)) ∧
    (s.takeRunning r.val 0x10 = some d → (s.dropRunning d).firstCheck d (registerChecks (s.dropRunning d) d.bytes) = some (st, res) → exec (.layerRegister r) s = .next ((s.dropRunning d).failDesc d st res)) ∧
    (s.takeRunning r.val 0x28 = some d → (s.dropRunning d).firstCheck d (colourChecks (s.dropRunning d) d.bytes) = some (st, res) → exec (.colourLoad r p) s = .next ((s.dropRunning d).failDesc d st res)) ∧
    (s.takeRunning r.val 0x30 = some d → (s.dropRunning d).firstCheck d (cueStepChecks (s.dropRunning d) d.bytes) = some (st, res) → exec (.cueStep r p) s = .next ((s.dropRunning d).failDesc d st res)) ∧
    (s.takeRunning r.val 0x38 = some d → (s.dropRunning d).firstCheck d (gaitChecks (s.dropRunning d) d.bytes) = some (st, res) → exec (.gaitChange r) s = .next ((s.dropRunning d).failDesc d st res)) ∧
    (s.takeRunning r.val 0x40 = some d → (s.dropRunning d).firstCheck d (curbChecks (s.dropRunning d) d.bytes) = some (st, res) → exec (.curbLimits r p) s = .next ((s.dropRunning d).failDesc d st res)) ∧
    (s.takeRunning r.val 0x50 = some d → (s.dropRunning d).firstCheck d (driveChecks (s.dropRunning d) d.bytes) = some (st, res) → exec (.driveConfig r p) s = .next ((s.dropRunning d).failDesc d st res)) ∧
    (s.takeRunning r.val 0x60 = some d → (s.dropRunning d).firstCheck d (meterChecks (s.dropRunning d) d.bytes) = some (st, res) → exec (.meterConfig r p) s = .next ((s.dropRunning d).failDesc d st res)) ∧
    (s.takeRunning r.val 0x78 = some d → (s.dropRunning d).firstCheck d (chunkChecks (s.dropRunning d) d.bytes) = some (st, res) → exec (.imageChunk r p w) s = .next ((s.dropRunning d).failDesc d st res))) ∧
  (∀ (r : Fin 32) (s : State) (p : Option (List Byte)), (s.takeRunning r.val 0x02 = none → exec (.fence r) s = .next s) ∧ (s.takeRunning r.val 0x38 = none → exec (.gaitChange r) s = .next s) ∧
    (s.takeRunning r.val 0x60 = none → exec (.meterConfig r p) s = .next s))

/-- A descriptor bound to a tick is staged once it has passed its checks. While ticks run, a descriptor that passes every
check, is not journalled, and is bound to a tick by its opcode or its TICK_BOUND flag, joins the end of what is staged
with its payload, held over where it comes at or after the staging cut-off, and has no effect yet. Nothing else
changes. -/
def Obligations.StagedDescriptorsWaitForTheirTick : Prop :=
  ∀ (r : Fin 32) (s u : State) (d : Running) (data : List Byte), u = s.dropRunning d → u.journalled (opRow (dOpcode d.bytes)) d.bytes = false → u.willStage d.bytes = true →
    (s.takeRunning r.val 0x28 = some d → u.firstCheck d (colourChecks u d.bytes) = none → (colourChecks u d.bytes).payload data = none →
      exec (.colourLoad r (some data)) s = .next { u with staged := u.staged ++ [.desc { d with staged := dTickBound d.bytes || dOpcode d.bytes = 0xF0 } data u.pastCutoff none] }) ∧
    (s.takeRunning r.val 0x40 = some d → u.firstCheck d (curbChecks u d.bytes) = none → (curbChecks u d.bytes).payload data = none →
      exec (.curbLimits r (some data)) s = .next { u with staged := u.staged ++ [.desc { d with staged := dTickBound d.bytes || dOpcode d.bytes = 0xF0 } data u.pastCutoff none] }) ∧
    (s.takeRunning r.val 0x50 = some d → u.firstCheck d (driveChecks u d.bytes) = none → (driveChecks u d.bytes).payload data = none →
      exec (.driveConfig r (some data)) s = .next { u with staged := u.staged ++ [.desc { d with staged := dTickBound d.bytes || dOpcode d.bytes = 0xF0 } data u.pastCutoff none] })

/-- A signal leaves its fence at the larger value, and fence 0 is TICK_NO. A signal of value v, of 64 bits, leaves a fence
of 1 to 4,095 that is not broken at the larger of v and what it was, and every other fence as it was; no signal
changes fence 0, which reads TICK_NO, a broken fence, or anything else. -/
def Obligations.FencesTakeTheLargerValue : Prop :=
  ∀ (s : State) (f v : Nat), swf zeroNat s.hif.fences = true → v < 18446744073709551616 →
    (1 ≤ f → f < 4096 → f ∉ s.hif.broken → (s.signal f v).fence f = max (s.fence f) v) ∧ (∀ g, g ≠ f → (s.signal f v).fence g = s.fence g) ∧
    (s.signal f v).fence 0 = s.tickNo ∧ (f = 0 ∨ 4096 ≤ f ∨ f ∈ s.hif.broken → s.signal f v = s) ∧ s.signal f v = { s with hif := { s.hif with fences := (s.signal f v).hif.fences } }

/-- Power-on reset and brownout leave every register and all logic at reset and keep the non-volatile stores. For a strap
value of 0 to 2, from any state: every register takes its reset value and all logic restarts, but GLB_BOOT shows the
strap with STRAP_BAD 0 and service START, and GLB_RST_CAUSE is 0, or has its brownout bit. What stands in the NOR and
in OTP stays: metering saves, ledger, relay records, images, the device secret, authority positions, stored keys,
commit records, BOOTC and factory calibration, and a lost reference is still lost. The free values drawn, the output
and the queue are the model's own and go on. -/
def Obligations.PowerOnResetStartsAfresh : Prop :=
  ∀ (m : Fin 8) (s u : State), m.val ≤ 2 →
    u = { State.reset with
      nor := s.nor, img := { s.img with slot := none, header := [], other := false }
      tkr := { ({} : TackRoom) with secret := s.tkr.secret, serial := s.tkr.serial, positions := s.tkr.positions, copies := s.tkr.copies, commits := s.tkr.commits, sessionEnd := s.tkr.sessionEnd, bootc := s.tkr.bootc }
      far := { ({} : Calibration) with factory := s.far.factory }, pwr := { ({} : Power) with refLost := s.pwr.refLost }
      drawn := s.drawn, out := s.out, pending := s.pending } →
    exec (.powerOnReset m) s = .next ((((u.setFld GLB_BOOT_MODE m.val).setFld GLB_BOOT_STRAP_BAD 0).setFld GLB_BOOT_SVC 0).setReg GLB_RST_CAUSE 0) ∧
    exec (.brownout m) s = .next ((((u.setFld GLB_BOOT_MODE m.val).setFld GLB_BOOT_STRAP_BAD 0).setFld GLB_BOOT_SVC 0).setReg GLB_RST_CAUSE 256)

/-- Pin warm reset and host device reset keep the timebase, the error log and the non-volatile stores, and lose the rest.
Pin warm reset always, and a host device reset except PERST outside boot mode 0, leave a next state in which the
counter, its effective increment and its pending commit, the NOR contents, the factory calibration, the error log and
the highest epoch heard stand as before, while layers, maps, frames, rings, executing descriptors, fences, staged
changes, ticks, ports, nodes, drive, phase, metering and presence logic are as after power-on. -/
def Obligations.WarmResetsKeepWhatTheyMust : Prop :=
  ∀ (s : State) (c : Instr), (∃ m, c = .pinWarmReset m) ∨ c = .hostDeviceReset .flr ∨ c = .hostDeviceReset .hot ∨ (c = .hostDeviceReset .perst ∧ s.mode = 0) →
    ∃ t, exec c s = .next t ∧ t.tb.now = s.tb.now ∧ t.tb.eff = s.tb.eff ∧ t.tb.commit = s.tb.commit ∧ t.nor = s.nor ∧ t.far.factory = s.far.factory ∧ t.mem.log = s.mem.log ∧
      t.tdm.heard = s.tdm.heard ∧ t.tkr.bootc = s.tkr.bootc ∧ t.fe = {} ∧ t.hif = {} ∧ t.staged = [] ∧ t.tick = {} ∧ t.tm = {} ∧ t.drv = {} ∧ t.php = {} ∧ t.mtr = {} ∧ t.crb = {}

/-- Domain requests, resets and arrivals change one domain each. A request for a domain that is off, outside FAILSAFE,
sets its GLB_PWR_REQ bit and starts its rise; one to switch off a domain that R556 lets go off clears the bit and
switches it off; one that may not only sets REFUSED. A rising domain that is up is no longer rising and its ON bit
reads 1. A domain reset by the Saddle monitor resets the registers of the domain outside what is retained and loses
its logic and links. PERST in boot mode 1 resets the host interface domain; in other modes PERST_HIF does nothing.
Nothing else changes. -/
def Obligations.DomainsSwitchAndReset : Prop :=
  (∀ (v : Word) (s : State), exec (.domainPowerRequest v) s = .next ([7, 8, 9, 10, 11, 13].foldl (fun t d => t.requestDomain d (bitB v.toNat d)) s)) ∧
  (∀ (d : Nat) (on : Bool) (s : State),
    (bitB (s.reg GLB_PWR_REQ) d = on → s.requestDomain d on = s) ∧
    (bitB (s.reg GLB_PWR_REQ) d = false → on = true → s.svc ≠ 4 →
      s.requestDomain d on = { s.setReg GLB_PWR_REQ (setBits (s.reg GLB_PWR_REQ) d 1 1) with pwr := { s.pwr with rising := s.pwr.rising ++ [d] } }) ∧
    (bitB (s.reg GLB_PWR_REQ) d = true → on = false → s.svc ≠ 4 → s.mayOff d = true →
      s.requestDomain d on = (s.setReg GLB_PWR_REQ (setBits (s.reg GLB_PWR_REQ) d 1 0)).powerOff d) ∧
    (bitB (s.reg GLB_PWR_REQ) d ≠ on → (s.svc = 4 ∨ (on = false ∧ s.mayOff d = false)) → s.requestDomain d on = s.raise GLB_PWR_STAT_REFUSED)) ∧
  (∀ (d : Fin 14) (s : State), d.val ∈ s.pwr.rising → exec (.domainPowerUpDone d) s =
      .next (({ s with pwr := { s.pwr with rising := s.pwr.rising.filter fun x => decide (x ≠ d.val) } } : State).setReg GLB_PWR_STAT (setBits (s.reg GLB_PWR_STAT) d.val 1 1))) ∧
  (∀ (d : Fin 14) (s : State), d.val ≠ 0 → s.domOn d.val = true →
      exec (.domainReset d none) s = .next (((s.resetRegs (fun off => decide (domainOf off = some d.val)) retained).loseLogic d.val).cutLinks (windowsOf d.val))) ∧
  (∀ (d : Fin 14) (v : Word) (s : State), bitB v.toNat 10 = true → bitB v.toNat 11 = false → bitB v.toNat 13 = false → s.svc ≠ 4 → s.domOn 10 = true →
      exec (.domainReset d (some v)) s = .next (s.resetDomain 10)) ∧
  (∀ s : State, s.mode = 1 → s.domOn 3 = true → exec .perstHifDomainReset s = .next (s.resetDomain 3)) ∧
  (∀ s : State, s.mode ≠ 1 → exec .perstHifDomainReset s = .next s)

/-- DRAM training, boot, the rider's READY and link training bring the device up. With the reference present and no DRAM
known, training with at least 8 GiB locks the clocks, switches domains 0, 1, 3, 4, 5 and 6 on and loads
GLB_DEVREG_BASE, and without the second channel domain 5 stays off and unrequested. Boot with its conditions met locks
the clocks, switches the domains on, loads the factory calibration, starts the keys and shows the floor; in TEST the
default bridle table is loaded, in RECOVERY its masks, and otherwise a slot is chosen first and the signed table
loaded. READY sets when initialisation, restore, ledger, session reserve and a booted slot are there outside FAILSAFE.
The PCIe link trains in modes 0 and 1. Nothing else changes. -/
def Obligations.StartTrainsBootsAndReadies : Prop :=
  (∀ (n : DWord) (s u : State), s.pwr.refLost = none → s.reg64 GLB_DEVREG_BASE = 0 → 8589934592 ≤ n.toNat →
      u = (((s.setReg GLB_CLK_STAT (Nat.lor (s.reg GLB_CLK_STAT) 255)).switchOn [0, 1, 3, 4, 5, 6]).setReg64 GLB_DEVREG_BASE (n.toNat - 536870912)) →
      exec (.dramTrainingDone true n) s = .next u ∧
      exec (.dramTrainingDone false n) s = .next ((u.setOn 5 false).setReg GLB_PWR_REQ (setBits ((u.setOn 5 false).reg GLB_PWR_REQ) 5 1 0))) ∧
  (∀ (table : Option (BitVec 256)) (signed : Bool) (m : Option Half) (s r u : State),
      r = { s with shu := { s.shu with master := if s.mode = 2 then m.map BitVec.toNat else none } } →
      s.pwr.refLost = none → s.domOn 12 = false → (2 < s.mode ∨ s.reg64 GLB_DEVREG_BASE ≠ 0) →
      u = (((r.clocksUp.bootDomains).loadFactory).startKeys).setFld IMG_STATUS_FLOOR r.img.floor →
      (u.svc = 3 → exec (.boot table signed m) s = .next u.recoveryMasks) ∧
      (u.svc = 2 → exec (.boot table signed m) s = .next (u.loadBridle none signed)) ∧
      (u.svc ≠ 3 → u.svc ≠ 2 → u.chooseSlot.img.slot ≠ none → exec (.boot table signed m) s = .next (u.chooseSlot.loadBridle (table.map fun v => leBytes 32 v.toNat) signed)) ∧
      (u.svc ≠ 3 → u.svc ≠ 2 → u.chooseSlot.img.slot = none → exec (.boot table signed m) s = .next (u.chooseSlot.setSvc 3 1).recoveryMasks)) ∧
  (∀ s : State, s.bit MEM_STATUS_INIT_DONE = true → s.mem.restored = true → s.mem.ledger = true → s.tkr.reserve ≠ 0 → s.img.slot.isSome = true → s.svc ≠ 4 →
      exec .riderReady s = .next (s.raise HIF_STATUS_READY)) ∧
  (∀ s : State, s.mode ≤ 1 → s.domOn 3 = true → s.pllOk 7 = true → exec .pcieLinkTraining s = .next { s with pwr := { s.pwr with pcie := true, follower := false } }) ∧
  (∀ s : State, s.pwr.pcie = true → exec .pcieLoopbackEntry s = .next { s with pwr := { s.pwr with pcie := false, follower := true } }) ∧
  (∀ s : State, exec .thermTrip s = .next { s with pwr := { s.pwr with thermTrip := true } })

/-- Clocks are lost and return, service states follow their requests, and the rider restarts. When CLK_REF goes while it
is present, its loss time is kept, REF_LOST and HOLD set, REF_OK clears, and CLOCK_STATE is posted; when it returns,
HOLD clears, REF_OK sets and CLOCK_STATE is posted with the time of the loss. When a PLL that is locked goes, its loss
time is kept, its lock bit clears, LOCK_LOST sets, CLOCK_STATE is posted and what depends on the PLL fails; when it
relocks, its bit sets and CLOCK_STATE is posted. Nothing else changes. With TEST written in START while RUN is 0,
Tandem goes off and the service becomes TEST; with LEAVE written in TEST, the loop-backs end and the service becomes
START. A due rider restart resets domain 2, clears READY, counts in MEM_RIDER_RST, counts against a trial image and
keeps its time, and the fourth within an hour is a DEVICE_FAULT. The fail-safe sequencer acts on the fault that waits
in the order of R493 and leaves MEM_FS_CAUSE valid with its kind and memory, and no fault waiting. Nothing else
changes. -/
def Obligations.ClocksServiceStatesAndRestarts : Prop :=
  (∀ s : State, s.pwr.refLost = none → exec .clkRefLost s = .next (((((({ s with pwr := { s.pwr with refLost := some s.tb.now } } : State).raise GLB_CLK_STAT_REF_LOST).raise GLB_CLK_STAT_HOLD).clear
      GLB_CLK_STAT_REF_OK).postClock 0 none))) ∧
  (∀ (t : Nat) (s : State), s.pwr.refLost = some t → exec .clkRefReturned s = .next (((({ s with pwr := { s.pwr with refLost := none } } : State).clear GLB_CLK_STAT_HOLD).raise GLB_CLK_STAT_REF_OK).postClock 0 (some t))) ∧
  (∀ (k : Fin 7) (s : State), s.pllOk (k.val + 1) = true → exec (.pllLockLost k) s = .next ((((({ s with pwr := { s.pwr with pllLost := sput noLoss s.pwr.pllLost (k.val + 1) (some s.tb.now) } } : State).setReg GLB_CLK_STAT
      (setBits (s.reg GLB_CLK_STAT) (k.val + 1) 1 0)).raise GLB_CLK_STAT_LOCK_LOST).postClock (k.val + 1) none).pllEffect (k.val + 1))) ∧
  (∀ (k : Fin 7) (t : Nat) (s : State), sget noLoss s.pwr.pllLost (k.val + 1) = some t → exec (.pllRelock k) s = .next ((({ s with pwr := { s.pwr with pllLost := sput noLoss s.pwr.pllLost (k.val + 1) none } } : State).setReg GLB_CLK_STAT
      (setBits (s.reg GLB_CLK_STAT) (k.val + 1) 1 1)).postClock (k.val + 1) (some t))) ∧
  (∀ (v : Word) (s : State), bitB v.toNat 0 = true → s.svc = 0 → s.run = false → exec (.svcEnterTest v) s = .next (s.tandemOff.setSvc 2 3)) ∧
  (∀ (v : Word) (s : State), bitB v.toNat 1 = true → s.svc = 2 → exec (.svcLeaveTest v) s = .next (s.endTest.setSvc 0 3)) ∧
  (∀ (s u : State) (ts : List Nat), s.mem.riderDue = true → u = (((s.domainReset 2).clear HIF_STATUS_READY).bumpReg MEM_RIDER_RST 1).trialFails → ts = u.recentRestarts ++ [u.tb.now] →
      (ts.length < 4 → exec .riderRestart s = .next { u with mem := { u.mem with riderDue := false, restarts := ts } }) ∧
      (4 ≤ ts.length → exec .riderRestart s = .next (({ u with mem := { u.mem with riderDue := false, restarts := ts } } : State).deviceFault 0xFF 11 0 0))) ∧
  (∀ (s u v : State) (r : ErrRecord), s.mem.fault = some r →
      u = ((([2, 7, 8, 9, 10, 11] ++ (if secFault r then [1] else [])).foldl State.domainReset (((((((((s.endTest).setSvc 4 4).trialFails).darkOutputs).faultBothLanes).declareFaulty 4).haltTicks).dropFlight).clear HIF_STATUS_READY))) →
      v = ((((((({ u with tkr := { u.tkr with bootc := u.tkr.bootc + 1 }, tdm := { u.tdm with seq := 0 } } : State).setReg TKR_BOOTC ((u.tkr.bootc + 1) % 4294967296)).fileOpen).logRecord r).setFld MEM_FS_CAUSE_KIND r.kind).setFld
        MEM_FS_CAUSE_MEMID r.memid).raise MEM_FS_CAUSE_VALID) →
      exec .failsafeSequence s = .next { v with mem := { v.mem with fault := none, reportFault := true, riderDue := false } })

/-- A doorbell that fits sets the index of its ring and nothing else. For a ring that is enabled and not stopped, an
aligned 4-byte write to offset 0 of its doorbell page with a value that lies ahead of the index, by no more than the
ring or its written entries allow, sets that ring's tail (submission) or head (completion, event) to the value. The
state is otherwise the same. -/
def Obligations.DoorbellsMoveTheIndices : Prop :=
  (∀ (r : Fin 32) (v : Word) (s : State), s.sqOn r.val = true → idxDiff v.toNat (s.reg (HIF_SQ_TAIL r.val)) < 2147483648 →
      idxDiff v.toNat (s.reg (HIF_SQ_HEAD r.val)) ≤ s.sqSize r.val →
      exec (.sqDoorbell r 0 4 v) s = .next (s.setReg (HIF_SQ_TAIL r.val) v.toNat)) ∧
  (∀ (r : Fin 32) (v : Word) (s : State), s.cqOn r.val = true → idxDiff v.toNat (s.reg (HIF_CQ_HEAD r.val)) < 2147483648 →
      idxDiff v.toNat (s.reg (HIF_CQ_HEAD r.val)) ≤ idxDiff (s.reg (HIF_CQ_TAIL r.val)) (s.reg (HIF_CQ_HEAD r.val)) →
      exec (.cqDoorbell r 0 4 v) s = .next (s.setReg (HIF_CQ_HEAD r.val) v.toNat)) ∧
  (∀ (r : Fin 8) (v : Word) (s : State), s.eqOn r.val = true → idxDiff v.toNat (s.reg (HIF_EQ_HEAD r.val)) < 2147483648 →
      idxDiff v.toNat (s.reg (HIF_EQ_HEAD r.val)) ≤ idxDiff (s.reg (HIF_EQ_TAIL r.val)) (s.reg (HIF_EQ_HEAD r.val)) →
      exec (.eqDoorbell r 0 4 v) s = .next (s.setReg (HIF_EQ_HEAD r.val) v.toNat))

/-- A doorbell that does not fit moves no index. A doorbell write that is not an aligned 4-byte write to offset 0 sets
HIF_STATUS.SIZE_ERR; one of a ring that is not enabled or has stopped sets HIF_STATUS.DB_DIS; a submission tail that
goes backwards counts in DB_BACK. A submission tail that runs more than the ring's size ahead of the head stops the
ring with CAUSE 1. Nothing else changes: the index of the ring keeps its value. -/
def Obligations.DoorbellsThatDoNotFit : Prop :=
  (∀ (r : Fin 32) (ofs size : Nat) (v : Word) (s : State), (ofs ≠ 0 ∨ size ≠ 4) →
      exec (.sqDoorbell r ofs size v) s = .next (s.raise HIF_STATUS_SIZE_ERR) ∧
      exec (.cqDoorbell r ofs size v) s = .next (s.raise HIF_STATUS_SIZE_ERR)) ∧
  (∀ (r : Fin 32) (v : Word) (s : State), s.sqOn r.val = false → exec (.sqDoorbell r 0 4 v) s = .next (s.raise HIF_STATUS_DB_DIS)) ∧
  (∀ (r : Fin 32) (v : Word) (s : State), s.cqOn r.val = false → exec (.cqDoorbell r 0 4 v) s = .next (s.raise HIF_STATUS_DB_DIS)) ∧
  (∀ (r : Fin 8) (v : Word) (s : State), s.eqOn r.val = false → exec (.eqDoorbell r 0 4 v) s = .next (s.raise HIF_STATUS_DB_DIS)) ∧
  (∀ (r : Fin 32) (v : Word) (s : State), s.sqOn r.val = true → 2147483648 ≤ idxDiff v.toNat (s.reg (HIF_SQ_TAIL r.val)) →
      exec (.sqDoorbell r 0 4 v) s = .next (s.bump (HIF_SQ_STAT_DB_BACK r.val) 1)) ∧
  (∀ (r : Fin 32) (v : Word) (s : State), s.sqOn r.val = true → idxDiff v.toNat (s.reg (HIF_SQ_TAIL r.val)) < 2147483648 →
      s.sqSize r.val < idxDiff v.toNat (s.reg (HIF_SQ_HEAD r.val)) →
      exec (.sqDoorbell r 0 4 v) s = .next (s.stopSq r.val 1 v.toNat))

/-- Enabling a ring clears its indices and CAUSE; disabling a submission ring discards what it fetched. While the host
interface domain is on: setting EN of a ring whose EN is 0 loads its CTRL register and clears both indices and CAUSE;
clearing EN of a submission ring loads CTRL with the completion ring kept and discards the descriptors that have not
started; clearing EN of a completion or event ring loads CTRL. Nothing else changes. -/
def Obligations.RingControlStartsAndStopsRings : Prop :=
  (∀ (i : Fin 32) (v : Word) (s : State), s.domOn 3 = true → s.bit (HIF_SQ_CTRL_EN i.val) = false → bitB v.toNat 0 = true →
      exec (.ringEnable (.sq i) v) s = .next ((((s.setReg (HIF_SQ_CTRL i.val) (bitsOf (setBits v.toNat 0 1 1) 0 3 +
        bitsOf (setBits v.toNat 0 1 1) 8 5 * 256 + bitsOf (setBits v.toNat 0 1 1) 16 3 * 65536)).setReg (HIF_SQ_HEAD i.val) 0).setReg
        (HIF_SQ_TAIL i.val) 0).clear (HIF_SQ_STAT_CAUSE i.val))) ∧
  (∀ (c : Fin 32) (v : Word) (s : State), s.domOn 3 = true → s.bit (HIF_CQ_CTRL_EN c.val) = false → bitB v.toNat 0 = true →
      exec (.ringEnable (.cq c) v) s = .next ((((s.setReg (HIF_CQ_CTRL c.val) (bitsOf (setBits v.toNat 0 1 1) 0 1 +
        bitsOf (setBits v.toNat 0 1 1) 8 6 * 256 + bitsOf (setBits v.toNat 0 1 1) 16 16 * 65536)).setReg (HIF_CQ_HEAD c.val) 0).setReg
        (HIF_CQ_TAIL c.val) 0).clear (HIF_CQ_STAT_CAUSE c.val))) ∧
  (∀ (e : Fin 8) (v : Word) (s : State), s.domOn 3 = true → s.bit (HIF_EQ_CTRL_EN e.val) = false → bitB v.toNat 0 = true →
      exec (.ringEnable (.eq e) v) s = .next ((((s.setReg (HIF_EQ_CTRL e.val) (bitsOf (setBits v.toNat 0 1 1) 0 1 +
        bitsOf (setBits v.toNat 0 1 1) 8 6 * 256 + bitsOf (setBits v.toNat 0 1 1) 16 16 * 65536)).setReg (HIF_EQ_HEAD e.val) 0).setReg
        (HIF_EQ_TAIL e.val) 0).clear (HIF_EQ_STAT_CAUSE e.val))) ∧
  (∀ (i : Fin 32) (v : Word) (s : State), s.domOn 3 = true → s.bit (HIF_SQ_CTRL_EN i.val) = true →
      exec (.ringDisable (.sq i) v) s = .next ((s.setReg (HIF_SQ_CTRL i.val) (bitsOf (setBits v.toNat 0 1 0) 0 3 +
        s.fld (HIF_SQ_CTRL_CQ i.val) * 256 + bitsOf (setBits v.toNat 0 1 0) 16 3 * 65536)).setSq i.val { s.sq i.val with store := [] })) ∧
  (∀ (c : Fin 32) (v : Word) (s : State), s.domOn 3 = true →
      exec (.ringDisable (.cq c) v) s = .next (s.setReg (HIF_CQ_CTRL c.val) (bitsOf (setBits v.toNat 0 1 0) 0 1 +
        bitsOf (setBits v.toNat 0 1 0) 8 6 * 256 + bitsOf (setBits v.toNat 0 1 0) 16 16 * 65536))) ∧
  (∀ (e : Fin 8) (v : Word) (s : State), s.domOn 3 = true →
      exec (.ringDisable (.eq e) v) s = .next (s.setReg (HIF_EQ_CTRL e.val) (bitsOf (setBits v.toNat 0 1 0) 0 1 +
        bitsOf (setBits v.toNat 0 1 0) 8 6 * 256 + bitsOf (setBits v.toNat 0 1 0) 16 16 * 65536)))

/-- A descriptor is fetched into its ring's store, and starts or waits from there. With READY 1 outside RECOVERY and
FAILSAFE, a running ring with a descriptor outstanding and no stalled completion ring appends the 64 bytes read to its
store and advances its head. The ring that the priorities and the round robin pick takes the oldest descriptor of its
store: one that passes the head checks and waits on no unsatisfied fence joins the executing ones and its ring is the
last at that priority; one whose wait condition does not hold becomes the ring's wait. -/
def Obligations.DescriptorsAreFetchedAndStarted : Prop :=
  (∀ (r : Fin 32) (d : BitVec 512) (s : State), s.bit HIF_STATUS_READY = true → s.svc ≠ 3 → s.svc ≠ 4 → s.sqOn r.val = true →
      s.reg (HIF_SQ_HEAD r.val) ≠ s.reg (HIF_SQ_TAIL r.val) → (s.cq (s.fld (HIF_SQ_CTRL_CQ r.val))).stalled = false →
      exec (.descriptorFetch r (some d)) s = .next ((s.setSq r.val { s.sq r.val with store := (s.sq r.val).store ++ [leBytes 64 d.toNat] }).setReg
        (HIF_SQ_HEAD r.val) ((s.reg (HIF_SQ_HEAD r.val) + 1) % 4294967296))) ∧
  (∀ (i : Nat) (b : List Byte) (rest : List (List Byte)) (s : State), s.pickRing s.sqReady = some i → (s.sq i).store = b :: rest →
      s.headCheck b = none → (dWait b = false ∨ s.waitDone b = true) →
      exec .descriptorStart s = .next { s with hif := { s.hif with
        sq := sput sqDflt s.hif.sq i { s.sq i with store := rest }
        running := s.hif.running ++ [{ sq := i, bytes := b }]
        lastRing := sput lastDflt s.hif.lastRing (s.fld (HIF_SQ_CTRL_PRIO i)) i } }) ∧
  (∀ (i : Nat) (b : List Byte) (rest : List (List Byte)) (s : State), s.pickRing s.sqReady = some i → (s.sq i).store = b :: rest →
      s.headCheck b = none → dWait b = true → s.waitDone b = false →
      exec .descriptorStart s = .next ((s.setSq i { s.sq i with store := rest }).setSq i { store := rest, waiting := some { bytes := b, since := s.tb.now, tmo := s.reg (HIF_SQ_FTMO i) } }))

/-- A satisfied wait starts its descriptor; a wait that reaches its timeout counts it. While no boundaries are generated,
a release with one wait satisfied removes that ring's wait and starts its descriptor. A wait with a timeout on a fence
that is not broken and whose condition does not hold ends at its timeout: HIF_FENCE_STAT.TIMEOUTS counts it, its
descriptor leaves the ring, and one that passes the remaining checks ends with FENCE_TIMEOUT and the value of the
fence. -/
def Obligations.WaitsEndSatisfiedOrTimedOut : Prop :=
  (∀ (i : Nat) (w : Waiting) (s : State), s.tick.running = false → s.pickRing s.waitSatisfied = some i → (s.sq i).waiting = some w →
      ((s.setSq i { s.sq i with waiting := none }).startExec i w.bytes).pickRing
        ((s.setSq i { s.sq i with waiting := none }).startExec i w.bytes).waitSatisfied = none →
      exec .fenceWaitRelease s = .next ((s.setSq i { s.sq i with waiting := none }).startExec i w.bytes)) ∧
  (∀ (r : Fin 32) (w : Waiting) (s t : State), (s.sq r.val).waiting = some w → dFenceId w.bytes ∉ s.hif.broken → s.waitTimes w = true →
      s.waitDone w.bytes = false → w.since + w.tmo * unitMs ≤ s.tb.now →
      t = (s.setSq r.val { s.sq r.val with waiting := none }).bump HIF_FENCE_STAT_TIMEOUTS 1 →
      t.firstCheck { sq := r.val, bytes := w.bytes } (opChecks t w.bytes) = none →
      exec (.fenceWaitTimeout r) s = .next (t.failDesc { sq := r.val, bytes := w.bytes } stFenceTimeout (t.fenceShown (dFenceId w.bytes))))

/-- Completions are posted and reported, and sources signal the fences bound to them. For a completion ring that is
enabled, not stopped and has space, with an entry held that signals no fence: a successful post writes the 16 bytes of
the oldest entry to the slot of the producer index, advances the index, counts the entry and reports it as the
coalescing fields say; a failed one stops the ring with CAUSE 2. Nothing else changes. At the timer of a ring with
unreported entries time has run to COAL_US after the oldest of them, the count is 0 and the ring's vector is sent.
While the host interface domain is on, a HIF_FBIND write that enables a binding loads EN and FENCE when the fence is
not 0 and bound under no other source, and otherwise only sets BIND_DROP; one that disables loads them. Nothing else
changes. -/
def Obligations.CompletionsCoalescingAndBinding : Prop :=
  (∀ (c : Fin 32) (e : Completion) (rest : List Completion) (s : State), s.cqOn c.val = true → s.cqSpace c.val = true → (s.cq c.val).held = e :: rest → e.signal = none →
      exec (.completionPost c true) s = .next ((((s.emit (.hostWrite (s.reg64 (HIF_CQ_BASE c.val) + s.reg (HIF_CQ_TAIL c.val) % 2 ^ s.cqLg c.val * 16)
        (e.bytes (s.reg (HIF_SQ_HEAD e.sq)) (phaseBit (s.reg (HIF_CQ_TAIL c.val)) (s.cqLg c.val))))).setReg (HIF_CQ_TAIL c.val) ((s.reg (HIF_CQ_TAIL c.val) + 1) % 4294967296)).setCq c.val
        ({ s.cq c.val with held := rest, stalled := (s.cq c.val).stalled && decide (64 ≤ rest.length) }.wrote s.tb.now)).cqReport c.val)) ∧
  (∀ (c : Fin 32) (e : Completion) (rest : List Completion) (s : State), s.cqOn c.val = true → s.cqSpace c.val = true → (s.cq c.val).held = e :: rest →
      exec (.completionPost c false) s = .next (s.stopCq c.val 2 (s.reg (HIF_CQ_TAIL c.val)))) ∧
  (∀ (c : Fin 32) (s : State), (s.cq c.val).unreported ≠ 0 →
      exec (.msixCoalesceTimeout (.cq c)) s = .next (((s.runTo ((s.cq c.val).oldest + max 1 (s.fld (HIF_CQ_CTRL_COAL_US c.val)) * unitUs)).setCq c.val
        { s.cq c.val with unreported := 0 }).sendVec (s.fld (HIF_CQ_CTRL_VEC c.val)))) ∧
  (∀ (e : Fin 8) (s : State), (s.eq e.val).unreported ≠ 0 →
      exec (.msixCoalesceTimeout (.eq e)) s = .next (((s.runTo ((s.eq e.val).oldest + max 1 (s.fld (HIF_EQ_CTRL_COAL_US e.val)) * unitUs)).setEq e.val
        { s.eq e.val with unreported := 0 }).sendVec (s.fld (HIF_EQ_CTRL_VEC e.val)))) ∧
  (∀ (k : Fin 22) (v : Word) (s : State), s.domOn 3 = true →
      (bitB v.toNat 31 = false ∨ (bitsOf v.toNat 0 12 ≠ 0 ∧ ∀ j : Fin 22, j ≠ k → s.boundAt j.val (bitsOf v.toNat 0 12) = false)) →
      exec (.fenceBind k v) s = .next (s.setReg (HIF_FBIND k.val) (bitsOf v.toNat 31 1 * 2147483648 + bitsOf v.toNat 0 12))) ∧
  (∀ (k : Fin 22) (v : Word) (s : State), s.domOn 3 = true → bitB v.toNat 31 = true →
      (bitsOf v.toNat 0 12 = 0 ∨ ∃ j : Fin 22, j ≠ k ∧ s.boundAt j.val (bitsOf v.toNat 0 12) = true) →
      exec (.fenceBind k v) s = .next (s.raise HIF_FENCE_STAT_BIND_DROP))

/-- NOP, FENCE and the layer descriptors act once they have passed their checks. A NOP that passes its checks only
completes OK with RESULT 0. A FENCE signals the fence of its body unless that is 0xFFFF_FFFF, and completes OK with
RESULT 0. The state that each leaves is otherwise the state without the executing descriptor. Each for a descriptor
that passes its checks and acts now. LAYER_REGISTER: the registration accepted under the layer number becomes the
layer and leaves the accepted ones. LAYER_UPDATE: the generation, address and release fence join the buffers accepted
for the layer. LAYER_RETIRE while RUN is 0: the leases of the buffers end, the layer is free, the release fence of the
descriptor is set, and its cue steps are discarded. Each completes OK; the state is otherwise the same. -/
def Obligations.PlainAndLayerDescriptorsAct : Prop :=
  (∀ (r : Fin 32) (s u : State) (d : Running) (data : List Byte), s.Acts r.val 0x01 noPayload (fun _ _ => {}) noReserve d data u →
      exec (.nop r) s = .next (u.finish d stOk 0)) ∧
  (∀ (r : Fin 32) (s u : State) (d : Running) (data : List Byte), s.Acts r.val 0x02 noPayload fenceChecks noReserve d data u →
      leAt d.bytes 16 4 ≠ 0xFFFFFFFF → exec (.fence r) s = .next ((u.signal (leAt d.bytes 16 4) (leAt d.bytes 24 8)).finish d stOk 0)) ∧
  (∀ (r : Fin 32) (s u : State) (d : Running) (data : List Byte), s.Acts r.val 0x02 noPayload fenceChecks noReserve d data u →
      leAt d.bytes 16 4 = 0xFFFFFFFF → exec (.fence r) s = .next (u.finish d stOk 0)) ∧
  (∀ (r : Fin 32) (s u : State) (d : Running) (data : List Byte) (l : Layer), s.Acts r.val 0x10 noPayload registerChecks State.registerReserve d data u →
      sget noLayer u.fe.registering (leAt d.bytes 16 2) = some l →
      exec (.layerRegister r) s = .next (((u.setLayer (leAt d.bytes 16 2) (some l)).setRegistering (leAt d.bytes 16 2) none).done d)) ∧
  (∀ (r : Fin 32) (s u : State) (d : Running) (data : List Byte) (l : Layer), s.Acts r.val 0x11 noPayload updateChecks noReserve d data u →
      u.layer (leAt d.bytes 16 2) = some l →
      exec (.layerUpdate r) s = .next ((u.setLayer (leAt d.bytes 16 2) (some { l with bufs := l.bufs ++ [{ gen := leAt d.bytes 20 4, addr := leAt d.bytes 32 8, rel := relOf d.bytes, late := u.run && u.pastCutoff }] })).finish d stOk 0)) ∧
  (∀ (r : Fin 32) (s u : State) (d : Running) (data : List Byte) (l : Layer), s.Acts r.val 0x12 noPayload retireChecks State.retireReserve d data u →
      u.layer (leAt d.bytes 16 2) = some l → u.run = false →
      exec (.layerRetire r) s = .next (((((l.bufs.foldl (fun t h => t.signalRel h.rel) u).setLayer (leAt d.bytes 16 2) none).signalRel (relOf d.bytes)).discardCues
        (leAt d.bytes 16 2) 0 fun _ => true).done d))

/-- MAP_LOAD, MAP_PATCH, COLOUR_LOAD and CUE_STEP change the map, the colour tables and the cue store. Each for a
descriptor that passes its checks and acts now. MAP_LOAD and MAP_PATCH: the oldest planned map change is applied to
the segment blocks and leaves the plan. COLOUR_LOAD: COUNT entries of the table that it names take the payload's
entries from FIRST on. CUE_STEP: a step that is not late joins the cue store with its layer, target and records, and
its RESULT is the target. Each completes OK; the state is otherwise the same. -/
def Obligations.MapColourAndCueDescriptorsAct : Prop :=
  (∀ (r : Fin 32) (p : Option (List Byte)) (s u : State) (d : Running) (data : List Byte) (c : MapChange) (cs : List MapChange),
      s.Acts r.val 0x20 p mapChecks State.mapReserve d data u → u.fe.changes = c :: cs →
      exec (.mapLoad r p) s = .next (({ u with fe := { u.fe with blocks := c.apply u.fe.blocks, changes := cs } } : State).done d)) ∧
  (∀ (r : Fin 32) (p : Option (List Byte)) (s u : State) (d : Running) (data : List Byte) (c : MapChange) (cs : List MapChange),
      s.Acts r.val 0x21 p mapChecks State.mapReserve d data u → u.fe.changes = c :: cs →
      exec (.mapPatch r p) s = .next (({ u with fe := { u.fe with blocks := c.apply u.fe.blocks, changes := cs } } : State).done d)) ∧
  (∀ (r : Fin 32) (p : Option (List Byte)) (s u : State) (d : Running) (data : List Byte), s.Acts r.val 0x28 p colourChecks noReserve d data u →
      exec (.colourLoad r p) s = .next (({ u with fe := { u.fe with colour := (List.range (leAt d.bytes 28 4)).foldl (fun m k =>
        sput colourDflt m (128 * byteAt d.bytes 16 + (leAt d.bytes 20 4 + k)) (payloadEntry (byteAt d.bytes 16) data k)) u.fe.colour } } : State).done d)) ∧
  (∀ (r : Fin 32) (p : Option (List Byte)) (s u : State) (d : Running) (data : List Byte), s.Acts r.val 0x30 p cueStepChecks noReserve d data u →
      u.cueLate (leAt d.bytes 40 8) (u.boundFor d) = false →
      exec (.cueStep r p) s = .next (({ u with fe := { u.fe with cues := u.fe.cues ++ [{ layer := leAt d.bytes 16 2, target := leAt d.bytes 40 8, recs := cueRecs (leAt d.bytes 20 4) data }] } } : State).finish d stOk (leAt d.bytes 40 8)))

/-- GAIT_CHANGE, CURB_LIMITS and PHASE_POLICY change the pending gait, the limits and the policies. Each for a descriptor
that passes its checks and acts now. GAIT_CHANGE while RUN is 1 with no change pending and its tick in range: the
change is pending for tick E, the tick that it names or two after the boundary, TK_CHG_TICK and RESULT are E.
CURB_LIMITS of kind 0 to 2: the limits of the phases in the mask, of the breaker, or of the site take the value.
PHASE_POLICY while no boundaries are generated: the policy is put into force for the present tick. Each completes OK;
the state is otherwise the same. -/
def Obligations.GaitCurbAndPhaseDescriptorsAct : Prop :=
  (∀ (r : Fin 32) (s u : State) (d : Running) (data : List Byte) (e : Nat), s.Acts r.val 0x38 noPayload gaitChecks noReserve d data u → u.run = true →
      gTickBad d.bytes (u.boundFor d) = false → u.tick.change = none → e = (if gTick d.bytes = 0 then u.boundFor d + 2 else gTick d.bytes) →
      exec (.gaitChange r) s = .next ((({ u with tick := { u.tick with change := some { mask := gMask d.bytes, gait := gGait d.bytes, periodNs := leAt d.bytes 20 4, periodFrac := leAt d.bytes 24 4, raster := leAt d.bytes 40 8, effTick := e, fixTick := u.boundFor d } } } : State).setReg64 TK_CHG_TICK e).finish d stOk e)) ∧
  (∀ (r : Fin 32) (p : Option (List Byte)) (s u : State) (d : Running) (data : List Byte), s.Acts r.val 0x40 p curbChecks noReserve d data u →
      (byteAt d.bytes 16 = 0 → exec (.curbLimits r p) s = .next (((List.range 4).foldl (fun t q => if bitB (byteAt d.bytes 18) q then
        t.setLimit 0 (4 * byteAt d.bytes 17 + q) (leAt d.bytes 20 4) else t) u).done d)) ∧
      (byteAt d.bytes 16 = 1 → exec (.curbLimits r p) s = .next ((u.setLimit 1 (byteAt d.bytes 17) (leAt d.bytes 20 4)).done d)) ∧
      (byteAt d.bytes 16 = 2 → exec (.curbLimits r p) s = .next ((u.setLimit 2 0 (leAt d.bytes 20 4)).done d))) ∧
  (∀ (r : Fin 32) (p : Option (List Byte)) (s u : State) (d : Running) (data : List Byte), s.Acts r.val 0x48 p phaseChecks noReserve d data u →
      u.tick.running = false → exec (.phasePolicy r p) s = .next ((u.putPolicy { boundary := u.tickNo, feed := byteAt d.bytes 16, mode := byteAt d.bytes 17, target := leAt d.bytes 20 4, recs := if byteAt d.bytes 17 = 1 then data.take (leAt d.bytes 24 4) else [] }).done d))

/-- DRIVE_CONFIG, METER_CONFIG and REINSTATE change channels, feeds and retirements. Each for a descriptor that passes its
checks and acts now. DRIVE_CONFIG: COUNT channels, or node records, from FIRST on take the payload's records.
METER_CONFIG of a kind other than 0 is held for the latch of its feed; one of kind 0 for a feed that does not run
takes effect at once. REINSTATE of local channels, or of one component of nodes, brings each back from its ladder. The
state is otherwise the same. -/
def Obligations.DriveMeterAndReinstateDescriptorsAct : Prop :=
  (∀ (r : Fin 32) (p : Option (List Byte)) (s u : State) (d : Running) (data : List Byte), s.Acts r.val 0x50 p driveChecks noReserve d data u →
      (byteAt d.bytes 16 = 0 → exec (.driveConfig r p) s = .next (((List.range (leAt d.bytes 28 4)).foldl (fun t k =>
        t.configChan (leAt d.bytes 20 4 + k) (driveRec data (leAt d.bytes 24 4) k)) u).done d)) ∧
      (byteAt d.bytes 16 ≠ 0 → exec (.driveConfig r p) s = .next (((List.range (leAt d.bytes 28 4)).foldl (fun t k =>
        t.configNode (leAt d.bytes 20 4 + k) (driveRec data (leAt d.bytes 24 4) k)) u).done d))) ∧
  (∀ (r : Fin 32) (p : Option (List Byte)) (s u : State) (d : Running) (data : List Byte), s.Acts r.val 0x60 p meterChecks noReserve d data u →
      (byteAt d.bytes 17 ≠ 0 → exec (.meterConfig r p) s = .next (u.setFeed (byteAt d.bytes 16) { u.feed (byteAt d.bytes 16) with
        staged := (u.feed (byteAt d.bytes 16)).staged ++ [(byteAt d.bytes 17, some { d with staged := dTickBound d.bytes }, data)] })) ∧
      (byteAt d.bytes 17 = 0 → dTickBound d.bytes = false → u.meterRuns (byteAt d.bytes 16) = false →
        exec (.meterConfig r p) s = .next ((u.putKind0 (byteAt d.bytes 16) data).done d))) ∧
  (∀ (r : Fin 32) (s u : State) (d : Running) (data : List Byte), s.Acts r.val 0x68 noPayload reinstateChecks noReserve d data u →
      (byteAt d.bytes 16 = 0 → exec (.reinstate r) s = .next (((List.range (leAt d.bytes 28 4)).foldl (fun t k => t.reinstateLocal (leAt d.bytes 20 4 + k)) u).done d)) ∧
      (byteAt d.bytes 16 = 1 → exec (.reinstate r) s = .next (((List.range (leAt d.bytes 28 4)).foldl (fun t k =>
        t.reinstateNode (leAt d.bytes 20 4 + k) (byteAt d.bytes 17)) u).done d)))

/-- Descriptors to nodes and to the key store act once they have passed their checks. Each for a descriptor that passes
its checks and acts now on a unit outside a pair. NODE_COMMAND and NODE_IMAGE_CHUNK complete DEFERRED and take the
next command identifier; a command with nodes to wait for joins the open commands and is sent. An RDM request or
discovery completes DEFERRED, joins the queue of its DMX port, and the port's queue moves on. Each for a key update
that passes its checks and acts now, with its NOR writes verified. Install: the seed that the update seals is
installed. Invalidate: the slot is invalidated. Arm debug: the debug state is armed, with a descriptor or with a
message of the debug port. Rotate: with its OTP write verified the next authority position is taken. Each completes
OK; the state is otherwise the same. -/
def Obligations.NodeAndKeyDescriptorsAct : Prop :=
  (∀ (r : Fin 32) (s u t : State) (d : Running) (c : NodeCmd), (s.hif.running.find? fun x => decide (x.sq = r.val) && decide (dOpcode x.bytes = 0x58) && decide (dCmd x.bytes < 0xF000)) = some d →
      u = s.dropRunning d → u.firstCheck d (nodeChecks u d.bytes) = none → u.journalled (opRow (dOpcode d.bytes)) d.bytes = false → u.willStage d.bytes = false →
      c = u.newCmd d → c.waiting ≠ [] → t = u.finish d stDeferred 0 → t.role = tdmDown →
      exec (.nodeCommand r) s = .next (({ t with tm := { t.tm with cmdId := c.id, cmds := t.tm.cmds ++ [c] } } : State).sendCmd c)) ∧
  (∀ (r : Fin 32) (s u t : State) (d : Running), (s.hif.running.find? fun x => decide (x.sq = r.val) && decide (dOpcode x.bytes = 0x58) && decide (dCmd x.bytes = 0xF000 ∨ 0xF001 < dCmd x.bytes)) = some d →
      u = s.dropRunning d → u.firstCheck d (nodeChecks u d.bytes) = none → u.journalled (opRow (dOpcode d.bytes)) d.bytes = false → u.willStage d.bytes = false →
      d.journal = false → dCmd d.bytes = 0xF000 → t = u.finish d stDeferred 0 →
      exec (.rdmRequest r) s = .next (((t.setDmx (byteAt d.bytes 32) { t.dmxPort (byteAt d.bytes 32) with queue := (t.dmxPort (byteAt d.bytes 32)).queue ++ [d] }).rdmLoad (byteAt d.bytes 32)).rdmPlace (byteAt d.bytes 32))) ∧
  (∀ (r : Fin 32) (s u t : State) (d : Running), (s.hif.running.find? fun x => decide (x.sq = r.val) && decide (dOpcode x.bytes = 0x58) && decide (dCmd x.bytes = 0xF001)) = some d →
      u = s.dropRunning d → u.firstCheck d (nodeChecks u d.bytes) = none → u.journalled (opRow (dOpcode d.bytes)) d.bytes = false → u.willStage d.bytes = false →
      d.journal = false → t = u.finish d stDeferred 0 →
      exec (.rdmDiscovery r) s = .next (((t.setDmx (byteAt d.bytes 32) { t.dmxPort (byteAt d.bytes 32) with queue := (t.dmxPort (byteAt d.bytes 32)).queue ++ [d] }).rdmLoad (byteAt d.bytes 32)).rdmPlace (byteAt d.bytes 32))) ∧
  (∀ (r : Fin 32) (p : Option (List Byte)) (s u t : State) (d : Running) (data : List Byte) (c : NodeCmd), s.Acts r.val 0x7C p imageChunkChecks noReserve d data u →
      c = u.newChunk d data → c.waiting ≠ [] → t = (u.claimRelay (leAt d.bytes 16 4) (dTotal d.bytes)).finish d stDeferred ((u.claimRelay (leAt d.bytes 16 4) (dTotal d.bytes)).relayMissing (leAt d.bytes 16 4)) → t.role = tdmDown →
      exec (.nodeImageChunk r p) s = .next (({ t with tm := { t.tm with cmdId := c.id, cmds := t.tm.cmds ++ [c] } } : State).sendCmd c)) ∧
  (∀ (r : Fin 32) (s u : State) (d : Running) (m seed : List Byte), s.Acts r.val 0x70 (some m) kuChecks noReserve d m u → kuOp m = 0 → u.kuSeed m = some seed →
      exec (.keyInstall r (some m) true) s = .next ((u.installSeed m (beAt seed 0 32)).finish d stOk 0)) ∧
  (∀ (r : Fin 32) (s u : State) (d : Running) (m : List Byte), s.Acts r.val 0x70 (some m) kuChecks noReserve d m u → kuOp m = 1 →
      exec (.keyInvalidate r (some m) true) s = .next ((u.invalidate m).finish d stOk 0)) ∧
  (∀ (r : Fin 32) (s u : State) (d : Running) (m : List Byte), s.Acts r.val 0x70 (some m) kuChecks noReserve d m u → kuOp m = 2 →
      exec (.keyArmDebug (some r) (some m) true) s = .next (((((u.storeCounter (kuCounter m)).raise TKR_STAT_DBG_ARMED).committed 2 0 0 (kuCounter m)).secNotice 3).finish d stOk 0)) ∧
  (∀ (r : Fin 32) (s u : State) (d : Running) (m : List Byte) (p : Nat), s.Acts r.val 0x70 (some m) kuChecks noReserve d m u → kuOp m = 3 → u.nextPosition = some p →
      exec (.keyRotateAuthority r (some m) true true) s = .next ((((u.setPosition p (sha384 (kuBytes m 88 96)) true).storeCounter (kuCounter m)).committed 3 0 0 (kuCounter m)).finish d stOk 0))

/-- ATTEST_REQUEST, IMAGE_CHUNK, TANDEM_ROLE and REG_STAGE act. Each for a descriptor that passes its checks and acts now.
ATTEST_REQUEST writes the statement over its nonce to HOST_ADDR and its RESULT is the statement's length. IMAGE_CHUNK
whose sector is written and verified stages the chunk in its slot and its RESULT is the number of chunks missing; one
whose write fails completes INTEGRITY with no effect. TANDEM_ROLE period loads TDM_SWAP_PER; swap, with none pending
and not from the journal, completes DEFERRED and is pending for its tick, which the partner is told; cancel with no
swap pending clears the swap tick. REG_STAGE while RUN is 0 writes its registers. The state is otherwise the same. -/
def Obligations.ImageRoleAndStageDescriptorsAct : Prop :=
  (∀ (r : Fin 32) (s u : State) (d : Running) (data m : List Byte), s.Acts r.val 0x71 noPayload attestChecks noReserve d data u → m = u.statement (attestNonce d.bytes) →
      exec (.attestRequest r) s = .next ((u.emit (.hostWrite (leAt d.bytes 32 8) m)).finish d stOk m.length)) ∧
  (∀ (r : Fin 32) (p : Option (List Byte)) (s u : State) (d : Running) (data : List Byte) (x : ImageSlot), s.Acts r.val 0x78 p chunkChecks noReserve d data u →
      x = (u.image (byteAt d.bytes 16)).stage (dChunk d.bytes) (dTotal d.bytes) (data.take (leAt d.bytes 24 4)) true →
      exec (.imageChunk r p true) s = .next ((u.setImage (byteAt d.bytes 16) x).finish d stOk x.missing) ∧
      exec (.imageChunk r p false) s = .next (u.finish d stIntegrity 0)) ∧
  (∀ (r : Fin 32) (s u : State) (d : Running) (data : List Byte), s.Acts r.val 0x80 noPayload roleChecks noReserve d data u → roleAction d.bytes = 1 →
      exec (.tandemRolePeriod r) s = .next ((u.setReg TDM_SWAP_PER (leAt d.bytes 24 4)).finish d stOk 0)) ∧
  (∀ (r : Fin 32) (s u : State) (d : Running) (data : List Byte), s.Acts r.val 0x80 noPayload roleChecks noReserve d data u → roleAction d.bytes = 0 →
      d.journal = false → u.tdm.swap = none →
      exec (.tandemRoleSwap r) s = .next ((({ (u.finish d stDeferred 0).setSwapTick (some (leAt d.bytes 32 8)) with tdm := { ((u.finish d stDeferred 0).setSwapTick (some (leAt d.bytes 32 8))).tdm with swap := some (d, leAt d.bytes 32 8) } } : State).raise TDM_STATUS_SWAP_PEND).sendRole (some (leAt d.bytes 32 8)))) ∧
  (∀ (r : Fin 32) (s u : State) (d : Running) (data : List Byte), s.Acts r.val 0x80 noPayload roleChecks noReserve d data u → roleAction d.bytes = 2 → u.tdm.swap = none →
      exec (.tandemRoleCancel r) s = .next ((({ u with tdm := { u.tdm with swapTick := none, postponed := 0 } } : State).setReg64 TDM_SWAP_NEXT 0).finish d stOk 0)) ∧
  (∀ (r : Fin 32) (s u : State) (d : Running) (data : List Byte), s.Acts r.val 0xF0 noPayload regStageChecks noReserve d data u →
      exec (.regStage r) s = .next (((List.range (byteAt d.bytes 16)).foldl (fun t k => t.putRwt (leAt d.bytes (24 + 8 * k) 4) (leAt d.bytes (28 + 8 * k) 4)) u).done d))

/-- The servo owner's TRACK, LOCK, HO_EXIT and SERVO writes move TB_STATUS.STATE. For a state that meets the invariant,
with no HO_EXIT bit held, and the party that owns the servo: setting TRACK in FREE enters ACQUIRE; clearing TRACK
clears LOCK, enters FREE and drops the slew; setting LOCK in ACQUIRE enters LOCKED and posts TIME_LOCK; clearing LOCK
in LOCKED enters ACQUIRE; HO_EXIT in HOLDOVER enters ACQUIRE; a write of SERVO by either party changes SERVO. Nothing
else changes. -/
def Obligations.ServoOwnerMovesTheTimebaseState : Prop :=
  ∀ (p : Party) (s : State), s.Inv → s.bit TB_CTRL_HO_EXIT = false →
    (s.owns p = true → s.bit TB_CTRL_TRACK = false → s.fld TB_STATUS_STATE = tbFree → exec (.tbTrackSet p) s = .next ((s.raise TB_CTRL_TRACK).setFld TB_STATUS_STATE tbAcquire)) ∧
    (s.owns p = true → s.bit TB_CTRL_TRACK = true → exec (.tbTrackClear p) s = .next (((s.clear TB_CTRL_TRACK).clear TB_CTRL_LOCK).setFld TB_STATUS_STATE tbFree).dropSlew) ∧
    (s.owns p = true → s.bit TB_CTRL_TRACK = true → s.bit TB_CTRL_LOCK = false → s.fld TB_STATUS_STATE = tbAcquire →
      exec (.tbLockSet p) s = .next (((s.raise TB_CTRL_LOCK).setFld TB_STATUS_STATE tbLocked).postTime 0x11 tbAcquire (s.fld TB_PTP_CFG_SOURCE))) ∧
    (s.owns p = true → s.bit TB_CTRL_TRACK = true → s.bit TB_CTRL_LOCK = true → s.fld TB_STATUS_STATE = tbLocked →
      exec (.tbLockClear p) s = .next ((s.clear TB_CTRL_LOCK).setFld TB_STATUS_STATE tbAcquire)) ∧
    (s.owns p = true → s.fld TB_STATUS_STATE = tbHoldover → exec (.tbHoExit p) s = .next (s.setFld TB_STATUS_STATE tbAcquire)) ∧
    (∀ host : Bool, exec (.tbServoChange p host) s = .next (s.setFld TB_CTRL_SERVO (b2n host)))

/-- TB_INCR, TB_ADJ_NS and TB_STEP by the servo owner steer the counter; by any other they are refused. For the owner of
the servo outside HOLDOVER: a TB_INCR value within the limits is stored and committed to be in force two cycles later;
TB_ADJ_NS adds its signed nanoseconds to the pending offset, clamped to 999,999,999 ns; an enabled TB_STEP that leaves
the time at or above 0 is accepted. A write by the other party only sets TB_STATUS.REFUSED; one by the owner in
HOLDOVER only sets HO_DROP. The slew's end with nothing else due leaves no pending offset. Nothing else changes. -/
def Obligations.ServoWritesSteerTheCounter : Prop :=
  (∀ (p : Party) (s : State), s.owns p = true → s.holdover = false →
    (∀ v : DWord, incrMin ≤ v.toNat → v.toNat ≤ incrMax → exec (.tbIncrCommit p v) s = .next { s.setReg64 TB_INCR v.toNat with tb := { s.tb with commit := some (1, v.toNat) } }) ∧
    (∀ v : Word, exec (.tbAdj p v) s = .next { s with tb := { s.tb with pend := clampI (-(999999999 * 4294967296)) (999999999 * 4294967296) (s.tb.pend + sext 32 v.toNat * 4294967296) } }) ∧
    (∀ v : DWord, s.bit TB_CTRL_STEP_EN = true → 0 ≤ (s.tb.now : Int) + sext 64 v.toNat * 4294967296 →
      exec (.tbStepCommit p v) s = .next { s with tb := { s.tb with step := some (sext 64 v.toNat), stepIn := 1 } })) ∧
  (∀ (p : Party) (s : State) (v : Word) (w : DWord), s.owns p = false →
    exec (.tbIncrCommit p w) s = .next (s.raise TB_STATUS_REFUSED) ∧ exec (.tbAdj p v) s = .next (s.raise TB_STATUS_REFUSED) ∧
    exec (.tbStepCommit p w) s = .next (s.raise TB_STATUS_REFUSED)) ∧
  (∀ (p : Party) (s : State) (v : Word) (w : DWord), s.owns p = true → s.holdover = true →
    exec (.tbIncrCommit p w) s = .next (s.raise TB_STATUS_HO_DROP) ∧ exec (.tbAdj p v) s = .next (s.raise TB_STATUS_HO_DROP) ∧
    exec (.tbStepCommit p w) s = .next (s.raise TB_STATUS_HO_DROP)) ∧
  (∀ s : State, s.tb.pend = 0 → exec .slewComplete s = .next s) ∧
  (∀ s : State, s.tb.pend ≠ 0 → s.tb.commit = none → s.tb.step = none →
    exec .slewComplete s = .next { s with tb := s.tb.cycles (s.fld TB_SLEW_v) (s.tb.slewCycles (s.fld TB_SLEW_v)) s.holdover })

/-- A snapshot and the source registers load, and pulses pass on the PPS pins. A trigger loads the four snapshot registers
with the present time. TB_GM_ID takes the identity written. Outside ACQUIRE and LOCKED, TB_PTP_CFG takes the value
with bits 5 to 2 at 0, and TB_PTP_INTV its three intervals clamped. A read of TB_PPS_IN_NS with its domain on latches
its two companions and returns its word. Nothing else changes. With the output enabled and its next second not in the
past, an output edge is due as time has run to that second plus the offset: the second is marked, the output is high,
and its fall is due OUT_WIDTH_US later. At the pulse end time has run to the fall and the output is low. With the
input enabled, an edge of the selected polarity on a pulse of at least 100 ns loads the capture registers with the
present time, and while PPS is the source in ACQUIRE or LOCKED more than 1 us from a second sets PPS_JUMP; any other
edge changes nothing. Nothing else changes. -/
def Obligations.SnapshotsAndPpsPulses : Prop :=
  (∀ (v : Word) (s : State), bitB v.toNat 0 = true → exec (.tbSnapshot v) s = .next ((((s.setReg TB_SNAP_FRAC (s.tb.now % 4294967296)).setReg TB_SNAP_NS (s.tb.now / 4294967296 % 1000000000)).setReg
      TB_SNAP_SEC_LO (secOf s.tb.now % 4294967296)).setReg TB_SNAP_SEC_HI (secOf s.tb.now / 4294967296 % 65536))) ∧
  (∀ (id : DWord) (s : State), exec (.tbGmIdWrite id) s = .next (s.setReg64 TB_GM_ID id.toNat)) ∧
  (∀ (v : Word) (s : State), s.tracking = false → exec (.tbPtpCfgWrite false v) s = .next (s.setReg TB_PTP_CFG (v.toNat % 4294967296 - bitsOf v.toNat 2 4 * 4)) ∧
      exec (.tbPtpCfgWrite true v) s = .next (s.setReg TB_PTP_INTV (clampLog (-7) 1 (bitsOf v.toNat 0 8) + 256 * clampLog (-3) 4 (bitsOf v.toNat 8 8) + 65536 * clampLog (-7) 5 (bitsOf v.toNat 16 8)))) ∧
  (∀ (c : TimeCapture) (d : Nat) (s : State), domainOf (captureOff c) = some d → s.domOn d = true →
      exec (.timeCaptureRead c) s = .next ((s.latchRegs (captureRegs c)).emit (.readData (captureOff c) (s.reg (captureOff c))))) ∧
  (∀ s : State, s.bit TB_PPS_CTRL_OUT_EN = true →
    exec .ppsOutEdge s = .next { s.runTo (s.ppsNext * 4294967296000000000 + s.ppsOfs).toNat with tb := { (s.runTo (s.ppsNext * 4294967296000000000 + s.ppsOfs).toNat).tb with
      ppsMark := s.ppsNext, ppsHigh := true, ppsFall := (s.runTo (s.ppsNext * 4294967296000000000 + s.ppsOfs).toNat).tb.now + s.fld TB_PPS_CTRL_OUT_WIDTH_US * 4294967296000 } }) ∧
  (∀ s : State, s.bit TB_PPS_CTRL_OUT_EN = false → exec .ppsOutEdge s = .next s) ∧
  (∀ s : State, s.tb.ppsHigh = true → exec .ppsOutPulseEnd s = .next { s.runTo s.tb.ppsFall with tb := { (s.runTo s.tb.ppsFall).tb with ppsHigh := false } }) ∧
  (∀ (falling : Bool) (ns : Word) (s t : State), s.bit TB_PPS_CTRL_IN_EN = true → falling = s.bit TB_PPS_CTRL_IN_EDGE → 100 ≤ ns.toNat →
    t = ((s.setReg TB_PPS_IN_NS (nsOf s.tb.now)).setReg TB_PPS_IN_SEC_LO (secOf s.tb.now % 4294967296)).setReg TB_PPS_IN_SEC_HI (secOf s.tb.now / 4294967296 % 65536) →
    ((s.fld TB_PTP_CFG_SOURCE ≠ 2 ∨ s.tracking = false ∨ fromSecond s.tb.now ≤ unitUs) → exec (.ppsInEdge falling ns) s = .next t) ∧
    (s.fld TB_PTP_CFG_SOURCE = 2 → s.tracking = true → unitUs < fromSecond s.tb.now → exec (.ppsInEdge falling ns) s = .next (t.raise TB_STATUS_PPS_JUMP))) ∧
  (∀ (falling : Bool) (ns : Word) (s : State), (s.bit TB_PPS_CTRL_IN_EN = false ∨ falling ≠ s.bit TB_PPS_CTRL_IN_EDGE ∨ ns.toNat < 100) → exec (.ppsInEdge falling ns) s = .next s)

/-- A lost source sets its flag and takes the timebase from ACQUIRE or LOCKED into HOLDOVER. While the source that it
watches is configured: in ACQUIRE or LOCKED the timeout of Announce, of Sync or of the PPS input sets its loss flag,
enters HOLDOVER with LOCK cleared, the slew dropped and the HOLDOVER time at 0, and posts TIME_HOLDOVER with its
cause; in HOLDOVER it only sets its flag; in FREE it does nothing. -/
def Obligations.SourceLossEntersHoldover : Prop :=
  ∀ (src : Nat) (flag : Fld) (cause : Nat) (c : Instr) (s : State),
    ((src, flag, cause, c) = (1, TB_STATUS_ANN_LOSS, 0, .announceTimeout) ∨ (src, flag, cause, c) = (1, TB_STATUS_SYNC_LOSS, 1, .syncTimeout) ∨
      (src, flag, cause, c) = (2, TB_STATUS_PPS_LOSS, 3, .ppsLossTimeout)) → s.Inv → s.fld TB_PTP_CFG_SOURCE = src →
    (s.tracking = true → exec c s = .next (({ ((((s.raise flag).setFld TB_STATUS_STATE tbHoldover).clear TB_CTRL_LOCK).dropSlew) with
      tb := { s.tb with pend := 0, hoFor := 0 } } : State).postTime 0x12 cause (s.fld TB_STATUS_STATE))) ∧
    (s.fld TB_STATUS_STATE = tbHoldover → exec c s = .next (s.raise flag)) ∧
    (s.fld TB_STATUS_STATE = tbFree → exec c s = .next s)

/-- PTP event messages are timestamped and those of the slave port steer the timebase. On a port with PTP on: a Sync or
another event message queues its corrected reception time for the rider; a Sync of the slave port keeps its interval;
an Announce of the slave port by the known grandmaster keeps its interval; an exchange of the slave port while the
host owns the servo posts TIME_SAMPLE with the reception time. A transmitted Sync of a one-step port carries its
transmit time and is timestamped. On a port with PTP off nothing changes. -/
def Obligations.PtpMessagesAreStampedAndUsed : Prop :=
  (∀ (w : Fin 15) (m : PtpMessage) (k : PtpTransmit) (b : List Byte) (s : State), s.ptpOn w.val = false → exec (.ptpMessageReceive w m) s = .next s ∧ exec (.ptpEventTransmit w k b) s = .next s) ∧
  (∀ (w : Fin 15) (s : State), s.ptpOn w.val = true →
    exec (.ptpMessageReceive w .otherEvent) s = .next (s.queueStamp w.val (s.stampOf w.val false)) ∧
    exec (.ptpMessageReceive w .general) s = .next s ∧
    (∀ (gm : DWord) (log : BitVec 8), s.slavePort = some w.val → exec (.ptpMessageReceive w (.sync gm log)) s =
      .next { s.queueStamp w.val (s.stampOf w.val false) with tb := { (s.queueStamp w.val (s.stampOf w.val false)).tb with syncLog := log.toInt } }) ∧
    (∀ (gm : DWord) (log : BitVec 8), s.slavePort = some w.val → gm.toNat = s.gmId → exec (.ptpMessageReceive w (.announce gm log)) s = .next { s with tb := { s.tb with annLog := log.toInt } }) ∧
    (∀ (sec : BitVec 48) (ns : Word) (o d : DWord), s.slavePort = some w.val → s.bit TB_CTRL_SERVO = true → exec (.ptpMessageReceive w (.exchange sec ns o d)) s =
      .next (s.post { s.event 0x10 6 s.slaveIdx [(16, 8, o.toNat), (24, 8, d.toNat)] with ns := nsOf (sec.toNat * 4294967296000000000 + ns.toNat * 4294967296), sec := secOf (sec.toNat * 4294967296000000000 + ns.toNat * 4294967296) % 4294967296 })) ∧
    (∀ b : List Byte, s.bit TB_PTP_CFG_ONE_STEP = true → exec (.ptpEventTransmit w .sync b) s =
      .next ((s.queueStamp w.val (s.stampOf w.val true)).emit (.frame w.val .ptp (patchBytes b 34 (s.insertTime w.val))))) ∧
    (∀ b : List Byte, exec (.ptpEventTransmit w .other b) s = .next ((s.queueStamp w.val (s.stampOf w.val true)).emit (.frame w.val .ptp b))))

/-- A BAR0 write that is misaligned, locked or into a domain that is off has only its status bit. A write that is neither
4 aligned bytes nor 8 aligned bytes only sets GLB_STATUS.SIZE_ERR. A 4-byte write, alone or of a high word, to a block
whose domain is off only sets OFF_ACC; one to a register word with RWL fields under GLB_LOCK only sets LOCK_VIOL; one
to an offset without a register changes nothing. An 8-byte write is the write of its low word and then of its high
word. The low word of a 64-bit register is held, and nothing else changes. -/
def Obligations.BusWritesAreChecked : Prop :=
  (∀ (off size : Nat) (v : DWord) (s : State), ¬(size = 4 ∧ off % 4 = 0) → ¬(size = 8 ∧ off % 8 = 0) → exec (.registerWrite off size v) s = .next (s.raise GLB_STATUS_SIZE_ERR)) ∧
  (∀ (off d : Nat) (v : DWord) (w : Word) (s : State), off % 4 = 0 → domainOf off = some d → s.domOn d = false →
      exec (.registerWrite off 4 v) s = .next (s.raise GLB_PWR_STAT_OFF_ACC) ∧ exec (.reg64HighWordWrite off w) s = .next (s.raise GLB_PWR_STAT_OFF_ACC)) ∧
  (∀ (off d : Nat) (v : DWord) (s : State), off % 4 = 0 → domainOf off = some d → s.domOn d = true → regAt off = none → exec (.registerWrite off 4 v) s = .next s) ∧
  (∀ (off d i k : Nat) (x : RegDesc) (v : DWord) (w : Word) (s : State), off % 4 = 0 → domainOf off = some d → s.domOn d = true → regAt off = some (x, i, k) →
      (x.words.getD k {}).rwl ≠ 0 → s.bit GLB_LOCK_v = true →
      exec (.registerWrite off 4 v) s = .next (s.raise GLB_STATUS_LOCK_VIOL) ∧ exec (.reg64HighWordWrite off w) s = .next (s.raise GLB_STATUS_LOCK_VIOL)) ∧
  (∀ (off d i : Nat) (x : RegDesc) (v : DWord) (s : State), off % 4 = 0 → domainOf off = some d → s.domOn d = true → regAt off = some (x, i, 0) → x.words.length = 2 →
      ((x.words.getD 0 {}).rwl = 0 ∨ s.bit GLB_LOCK_v = false) →
      exec (.registerWrite off 4 v) s = .next { s with writeLatch := s.writeLatch.filter (fun y => decide (y.1 ≠ off)) ++ [(off, BitVec.ofNat 32 (v.toNat % 4294967296))] }) ∧
  (∀ (off : Nat) (v : DWord) (s : State), off % 8 = 0 → exec (.registerWrite off 8 v) s =
      (match exec (.registerWrite off 4 (BitVec.ofNat 64 (v.toNat % 4294967296))) s with
       | .next t => exec (.registerWrite (off + 4) 4 (BitVec.ofNat 64 (v.toNat / 4294967296))) t
       | r => r))

/-- A BAR0 write loads a register, commits a 64-bit one, or stages an RWT one. For a 4-byte write to a register in a block
without rules of its own, its domain on and no lock in force: a word without RWT fields takes its writable bits; an
RWT word is staged for the boundary while RUN is 1 and takes its value at once while RUN is 0; the high word of
FE_LYR_DRAM_BASE, FE_LYR_DRAM_SIZE, FAR_CAP_REF or DMX_UID commits the low word held and empties the hold. Nothing
else changes. -/
def Obligations.BusWritesLoadAndStage : Prop :=
  (∀ (off d i : Nat) (x : RegDesc) (v : DWord) (s : State), off % 4 = 0 → domainOf off = some d → s.domOn d = true → regAt off = some (x, i, 0) → x.words.length = 1 →
      ((x.words.getD 0 {}).rwl = 0 ∨ s.bit GLB_LOCK_v = false) → (blockOf off = 6 ∨ blockOf off = 9 ∨ blockOf off = 10 ∨ blockOf off = 11) → x.base ≠ CRB_CTRL →
      ((wordAt off).rwt = 0 → exec (.registerWrite off 4 v) s = .next (s.putPlain off (v.toNat % 4294967296))) ∧
      ((wordAt off).rwt ≠ 0 → s.run = true → exec (.registerWrite off 4 v) s =
        .next ((s.noteClamp x.base (v.toNat % 4294967296) (clampWord x.base (v.toNat % 4294967296))).stageReg off (clampWord x.base (v.toNat % 4294967296)))) ∧
      ((wordAt off).rwt ≠ 0 → s.run = false → exec (.registerWrite off 4 v) s = .next (s.putRwt off (v.toNat % 4294967296)))) ∧
  (∀ (off d i : Nat) (x : RegDesc) (v : Word) (s : State), off % 4 = 0 → 4 ≤ off → domainOf off = some d → s.domOn d = true → regAt off = some (x, i, 1) → x.words.length = 2 →
      ((x.words.getD 1 {}).rwl = 0 ∨ s.bit GLB_LOCK_v = false) → (x.base = FE_LYR_DRAM_BASE ∨ x.base = FE_LYR_DRAM_SIZE ∨ x.base = FAR_CAP_REF ∨ x.base = DMX_UID) → blockOf (off - 4) ≠ 17 →
      exec (.reg64HighWordWrite off v) s = .next ((({ s with writeLatch := s.writeLatch.filter fun y => decide (y.1 ≠ off - 4) } : State).putPlain (off - 4)
        ((s.heldLow (off - 4) + 4294967296 * v.toNat) % 4294967296)).putPlain off ((s.heldLow (off - 4) + 4294967296 * v.toNat) / 4294967296 % 4294967296)))

/-- BAR0 reads return the addressed bytes; a low word latches the high one, a counter is cleared. A read that is
misaligned returns 0 and changes nothing. A read of a block whose domain is off returns 0 and sets OFF_ACC. With the
domain on: a read of the low word of a 64-bit register without a read rule of its own latches the high word and
returns the low one, the read of 8 bytes is the read of both words, and a read of a word with clear-on-read bits
clears these and returns the word as it was. Nothing else changes. -/
def Obligations.BusReads : Prop :=
  (∀ (off size : Nat) (s : State), ¬(size = 8 ∧ off % 8 = 0) → ¬(0 < size ∧ off % 4 + size ≤ 4) →
      exec (.reg64LowWordRead off size) s = .next (s.emit (.readData off 0))) ∧
  (∀ (off d : Nat) (s : State), off % 4 = 0 → domainOf off = some d → s.domOn d = false →
      exec (.reg64LowWordRead off 4) s = .next ((s.raise GLB_PWR_STAT_OFF_ACC).emit (.readData off 0))) ∧
  (∀ (off d i : Nat) (x : RegDesc) (s : State), off % 4 = 0 → domainOf off = some d → s.domOn d = true → regAt off = some (x, i, 0) → x.words.length = 2 →
      blockOf off ≠ 17 → blockOf off ≠ 19 →
      x.base ∉ [TB_PPS_IN_NS, TK_BOUND_FRAC, MTR_LATCH_NS 0, MTR_PH_E 0 0 0, TLM_EQ_RD 0 0, SHU_E 0 0, SHU_EVT 0] →
      exec (.reg64LowWordRead off 4) s = .next (({ s with readLatch := sput zeroWord s.readLatch (off + 4) (BitVec.ofNat 32 (s.shows x i 1 (off + 4))) } : State).emit
        (.readData off (s.shows x i 0 off % 4294967296)))) ∧
  (∀ (off d i k : Nat) (x : RegDesc) (c : Word) (s : State), off % 4 = 0 → domainOf off = some d → s.domOn d = true → regAt off = some (x, i, k) → x.words.length = 1 →
      blockOf off ≠ 17 → blockOf off ≠ 19 →
      x.base ∉ [TB_PPS_IN_NS, TK_BOUND_FRAC, MTR_LATCH_NS 0, MTR_PH_E 0 0 0, TLM_EQ_RD 0 0, SHU_E 0 0, SHU_EVT 0] → (x.words.getD k {}).cor ≠ 0 → s.svc ≠ 2 → k = 0 →
      exec (.clearOnRead off 4 c) s = .next ((s.setReg off (Nat.land (s.reg off) (Nat.xor 4294967295 (x.words.getD k {}).cor))).emit (.readData off (s.shows x i k off % 4294967296))))

/-- GLB_LOCK, the request for NORMAL and the map region take their writes. GLB_LOCK sets. A request for NORMAL with its
bit set, the host interface on: in START with GLB_LOCK, RUN, INIT_DONE, READY and the metering state restored it
enters NORMAL; in a state where one of them is missing it sets SVC_REFUSED; in NORMAL it does nothing. A write of a
map region register, its domain on: under GLB_LOCK it only sets LOCK_VIOL; otherwise a new value, aligned down to 2
MiB, loads, and while RUN is 1 the map is to be discarded at the stop. Memory initialisation clears the poison and
sets INIT_DONE. -/
def Obligations.GlobalRegisterCommands : Prop :=
  (∀ s : State, exec .glbLockSet s = .next (s.raise GLB_LOCK_v)) ∧
  (∀ (v : Word) (s : State), s.domOn 3 = true → bitB v.toNat 0 = true →
      (s.svc = 0 → s.bit GLB_LOCK_v = true → s.run = true → s.bit MEM_STATUS_INIT_DONE = true → s.bit HIF_STATUS_READY = true → s.mem.restored = true → s.mem.ledger = true →
        exec (.svcRequestNormal v) s = .next (s.setSvc 1 2)) ∧
      (s.svc ≠ 1 → (s.svc ≠ 0 ∨ s.bit GLB_LOCK_v = false ∨ s.run = false ∨ s.bit MEM_STATUS_INIT_DONE = false ∨ s.bit HIF_STATUS_READY = false ∨ s.mem.restored = false ∨ s.mem.ledger = false) →
        exec (.svcRequestNormal v) s = .next (s.raise MEM_STATUS_SVC_REFUSED)) ∧
      (s.svc = 1 → exec (.svcRequestNormal v) s = .next s)) ∧
  (∀ (size : Bool) (v : DWord) (off : Nat) (s : State), off = (if size then FE_MAP_DRAM_SIZE else FE_MAP_DRAM_BASE) → s.domOn 7 = true →
      (s.bit GLB_LOCK_v = true → exec (.mapRegionWrite size v) s = .next (s.raise GLB_STATUS_LOCK_VIOL)) ∧
      (s.bit GLB_LOCK_v = false → s.reg64 off ≠ v.toNat / 2097152 * 2097152 → s.run = true →
        exec (.mapRegionWrite size v) s = .next { s.setReg64 off (v.toNat / 2097152 * 2097152) with fe := { s.fe with discard := true } })) ∧
  (∀ s : State, exec .memoryInitDone s = .next (({ s with mem := { s.mem with poison := [] } } : State).raise MEM_STATUS_INIT_DONE))

/-- RUN starts and stops the tick unit, and DEPTH takes a value within its range. For a write of TK_CTRL whose DEPTH is
the depth in force. RUN set while it reads 0, with a legal period that is not refused and a session reserved: RUN
reads 1, the next session value is taken and the first boundary is due from 100 us on. A run that is refused only sets
CLAMP. RUN cleared while boundaries are generated: RUN reads 0 and a stop is pending; while none are, the pending
change is dropped and what is staged acts. A write that leaves RUN and asks for a lower depth within the range while
RUN is 0 loads DEPTH. Nothing else changes. -/
def Obligations.TicksStartAndStop : Prop :=
  (∀ (v : Word) (s : State), s.writeDepth (setBits v.toNat 0 1 1) = s → s.run = false → s.runPeriod = s.periodRegs → s.runRefused s.runPeriod = false → s.tkr.reserve ≠ 0 →
      exec (.tickRunStart v) s = .next ((s.raise TK_CTRL_RUN).nextSession.startAfter (s.tb.now + 100 * unitUs))) ∧
  (∀ (v : Word) (s : State), s.writeDepth (setBits v.toNat 0 1 1) = s → s.run = false → s.runPeriod = s.periodRegs → s.runRefused s.runPeriod = true →
      exec (.tickRunStart v) s = .next (s.raise TK_STATUS_CLAMP)) ∧
  (∀ (v : Word) (s : State), s.writeDepth (setBits v.toNat 0 1 0) = s → s.run = true →
      (s.tick.running = true → exec (.tickRunStop v) s = .next { s.clear TK_CTRL_RUN with tick := { s.tick with startAfter := none, stopping := true } }) ∧
      (s.tick.running = false → exec (.tickRunStop v) s = .next ({ s.clear TK_CTRL_RUN with tick := { s.tick with startAfter := none } } : State).dropChange.applyAll)) ∧
  (∀ (v : Word) (s : State), s.Inv → s.run = false → 2 ≤ bitsOf v.toNat 4 3 → bitsOf v.toNat 4 3 ≤ s.fld GLB_CAP4_PIPE_MAX → bitsOf v.toNat 4 3 < s.depth →
      exec (.tkDepthWrite v) s = .next (s.setFld TK_CTRL_DEPTH (bitsOf v.toNat 4 3)))

/-- A boundary runs time to its instant, applies an accepted step, shows its time, counts TICK_NO and performs its
actions. A first boundary with a start pending: time has run to the boundary, an accepted step is applied, TK_BOUND
shows the time before it, TK_TICK_NO takes the grid index K of the instant, with TICK_BACK where that is not above
what TICK_NO was, a unit outside a pair raises its epoch, the tick unit runs from there, stale cues are dropped and
the actions follow. A boundary while ticks run and no stop is pending: the load of the tick that ended is settled and
TK_TICK_NO is one more. A stopping boundary: ticks run no more, frames are discarded, what is staged takes effect, and
a start that waits gets its grid. -/
def Obligations.BoundariesActInOrder : Prop :=
  (∀ (s r t u : State) (k : Nat), s.tick.running = false → s.tick.startAfter.isSome = true → s.role = tdmDown → r = s.runTo s.tick.next →
      k = (s.tick.next - s.tick.phase) / s.tick.period → t = (if k ≤ ((r.actionOne).setBound s.tick.next).tickNo then ((r.actionOne).setBound s.tick.next).raise TK_STATUS_TICK_BACK else (r.actionOne).setBound s.tick.next) →
      (t.setReg64 TK_TICK_NO (k % 18446744073709551616)).role = tdmDown → u = (t.setReg64 TK_TICK_NO (k % 18446744073709551616)).raiseEpoch → r.tick = s.tick →
      exec .firstBoundary s = .next ((({ u with
        tick := { u.tick with running := true, startAfter := none, stopping := false, begin := r.stepped s.tick.next, began := k, overruns := 0, overload := false }
        tm := { u.tm with teams := [], shown := [], shownSpans := [] }, fe := { u.fe with frames := [], lastHeld := [] }, crb := { u.crb with inFlight := [], lateTicks := [] } } : State).dropStale.actions
        (r.stepped s.tick.next) s.tick.next none none r.tb.step.isSome).zeroPrevious)) ∧
  (∀ (errs : List BadWord) (s r t u v : State), s.tick.running = true → s.tick.stopping = false → r = (s.runTo s.tick.next).endLoad →
      t = ((r.actionOne).setBound s.tick.next).setReg64 TK_TICK_NO ((r.tickNo + 1) % 18446744073709551616) → u = { t with tick := { t.tick with begin := r.stepped s.tick.next } } →
      v = (u.boundaryErrors errs).1.actions s.tick.begin s.tick.next (some r.tickNo) r.frameOut r.tb.step.isSome →
      exec (.tickBoundary errs) s = .next { v with mem := { v.mem with resets := v.mem.resets ++ (u.boundaryErrors errs).2 } }) ∧
  (∀ (s r t u v w : State), s.tick.running = true → s.tick.stopping = true → r = (s.runTo s.tick.next).endLoad →
      t = (List.range 8).foldl (fun a p => State.terminate a p) ((r.actionOne).freshTick (r.stepped s.tick.next) false) →
      u = { t with tick := { t.tick with running := false, stopping := false }, fe := { t.fe with frames := [], lastHeld := [] } } →
      v = (((((u.freshEgress).freshTandem (u.tickNo + 1)).stopDrive).dropChange).applyAll).discardAllCues 1 (fun _ => true) →
      w = (((if v.fe.discard then v.discardMap else v).resetEntries).endTickWaits).voidAll →
      (w.tick.startAfter = none → exec .stoppingBoundary s = .next w) ∧
      (∀ a, w.tick.startAfter = some a → exec .stoppingBoundary s = .next (w.setGrid (max a (r.stepped s.tick.next + 1)))))

/-- The compose window starts, composes segments and ends. In a tick whose composition has neither started nor ended, the
start comes 2 us after the boundary: the guard headers are checked, the lanes are free from then, and composition is
under way, or over where the frame has no segment. A segment whose lane is ready while composition is under way reads
its tiles and completes; one with a word that holds it is held instead. The deadline ends a composition that is under
way, with the whole window as its time. Nothing else changes. -/
def Obligations.ComposeRunsItsWindow : Prop :=
  (∀ (hs : List GuardHeader) (s r u : State) (f g : Frame), s.frameNow = some f → s.tick.running = true → s.tick.composing = false → s.tick.composed = false →
      r = s.runTo (s.tick.begin + 2 * unitUs) → g = { (r.checkHeaders hs f).2 with lanes := (List.range (if r.mode = 2 then 4 else 8)).map fun i => (i, r.tb.now) } → u = (r.checkHeaders hs f).1.setFrame g →
      (g.count ≠ 0 → exec (.composeStart hs) s = .next { u with tick := { u.tick with composing := true } }) ∧
      (g.count = 0 → exec (.composeStart hs) s = .next (u.composeOver g))) ∧
  (∀ (seg : Fin 2560) (stall alone : Word) (host : List HostTile) (dram : List DramTile) (errs : List BadWord) (s : State) (f : Frame), s.frameNow = some f → s.tick.composing = true → f.laneReady seg.val = true →
      s.mayCompose = true → errs.any holdsSegment = false →
      exec (.segmentCompose seg stall alone host dram errs) s = .next (((s.memErrors errs).readTiles f host).1.completeSegment (dram.foldl Frame.fetchDram ((s.memErrors errs).readTiles f host).2) seg.val stall.toNat alone.toNat)) ∧
  (∀ (s r : State) (f g : Frame), s.frameNow = some f → s.tick.composing = true → r = s.runTo s.composeDeadline →
      g = { f with counts := { f.counts with time := s.composeDeadline - (r.tick.begin + 2 * unitUs) } } → exec .composeDeadline s = .next ((r.setFrame g).composeOver g))

/-- The solve fixes the frame's factors; the tick close and the free close post and drain what waits. A frame that may be
resolved: the pair settles it, its factors are solved from its inputs and sums, the frame and the tick are marked
solved, and the model's demand is in flight for tick T plus depth. The close of a running tick that has not closed
comes at its phase, once, and the fence bound to source 0 takes TICK_NO. A free close comes while RUN is 0 and no
boundaries are generated, at the next free instant, and counts toward the key epoch. Nothing else changes. -/
def Obligations.TheGovernorSolvesAndTelemetryCloses : Prop :=
  (∀ (s u : State) (f g : Frame), s.frameNow = some f → s.mayResolve f = true → u = s.settlePair f → u.frameNow = some g →
      exec .curbSolve s = .next { u.setFrame { g with solve := g.inputs.solve (u.frameSums g) u.crb.last g.tick, solved := true } with
        tick := { u.tick with solved := true }
        crb := { u.crb with last := g.inputs.solve (u.frameSums g) u.crb.last g.tick, due := some (g.inputs.solve (u.frameSums g) u.crb.last g.tick), inFlight := u.crb.inFlight ++ [(g.tick + u.depth, (g.inputs.solve (u.frameSums g) u.crb.last g.tick).model)] } }) ∧
  (∀ s r : State, s.tick.running = true → s.tick.closed = false → r = s.runTo (s.phaseAt (s.fld TK_PHASES_TLM_PM)) →
      exec .telemetryClose s = .next ((({ r with tick := { r.tick with closed := true } } : State).loadCounts.closeAll).source 0 r.tickNo)) ∧
  (∀ s r u : State, s.run = false → s.tick.running = false → r = s.runTo s.nextFree → u = { r with tick := { r.tick with freeClose := s.nextFree }, tkr := { r.tkr with closes := (r.tkr.closes + 1) % 64 } } →
      ((r.tkr.closes + 1) % 64 ≠ 0 → exec .freeClose s = .next u.closeAll) ∧ ((r.tkr.closes + 1) % 64 = 0 → exec .freeClose s = .next u.keyEpoch.closeAll))

/-- Parts are encoded, signed, released and shown. While ticks run and the release has not ended, a solved frame's next
part on an enabled port is encoded after the fetch is noted, and path 8 encodes the residual. A segment whose parts
are all encoded and that is unsigned is signed: outside a pair it is cleared at once, and in a pair its signature
joins the unit's own and goes to the partner, and waits while the partner's is unknown. A cleared segment that is not
ready is marked ready, its parts leave the discard of every port, and the Loose teams that may start do. A hold that
ends with no signature of the partner clears the segment, counted unchecked on the leader. Nothing else changes. -/
def Obligations.PartsAreEncodedAndSigned : Prop :=
  (∀ (p : Fin 9) (starved l3 : Word) (lv : Fin 4) (errs : List BadWord) (s : State) (f : Frame), s.frameOut = some f → s.tick.running = true → s.tm.ended = false → f.solved = true →
      (p.val = 8 → exec (.partEncode p starved l3 lv errs) s = .next ((s.memErrors errs).encodeResidual f)) ∧
      (∀ g, p.val ≠ 8 → (s.memErrors errs).portOn p.val = true → ((s.memErrors errs).noteFetch p.val starved.toNat l3.toNat lv.val).nextPart f p.val = some g →
        exec (.partEncode p starved l3 lv errs) s = .next (((s.memErrors errs).noteFetch p.val starved.toNat l3.toNat lv.val).encodePort f p.val g (errs.any losesPart)))) ∧
  (∀ (g : Fin 2560) (s u : State) (f : Frame), s.frameOut = some f → s.role ≠ tdmDown → s.tm.ended = false → g.val < f.count → s.segEncoded f g.val = true → (s.tm.signed.any fun x => decide (x.1 = g.val)) = false →
      u = { s with tm := { s.tm with signed := s.tm.signed ++ [(g.val, s.tb.now)] } } →
      (u.inPair = false → exec (.segmentSigned g) s = .next (u.clearSegment g.val)) ∧
      (∀ v w, u.inPair = true → v = u.segSignature f g.val → w = (({ u with tdm := { u.tdm with own := u.tdm.own ++ [(f.tick, g.val, v, u.tb.now)] } } : State).sendTdm (.sig f.tick [(g.val, v)])).signUnchecked f g.val →
        w.theirSig f.tick g.val = none → exec (.segmentSigned g) s = .next w)) ∧
  (∀ (g : Fin 2560) (s u : State) (f : Frame), s.frameOut = some f → s.tm.ended = false → g.val ∈ s.tm.cleared → g.val ∉ s.tm.ready →
      u = ((s.markReady g.val).portsOn.filter fun p => decide (g.val ∈ (s.markReady g.val).partSegs f p)).foldl (fun a p => a.discardPart g.val p) (s.markReady g.val) →
      exec (.partReady g) s = .next (((((s.markReady g.val).portsOn.filter fun p => decide (g.val ∈ (s.markReady g.val).partSegs f p)).map u.portTeam).eraseDups.filter u.loose).foldl
        (fun a t => if a.looseLow t ≤ a.tb.now then a.looseStart f t else a) u)) ∧
  (∀ (g : Fin 2560) (s r : State) (f : Frame) (v : Nat × Nat), s.frameOut = some f → s.ownSig f.tick g.val = some v → s.inPair = true → s.mirrorOnly = false → g.val ∉ s.tm.cleared → s.theirSig f.tick g.val = none → s.tm.ended = false →
      r = s.runTo (v.2 + s.fld TDM_HOLD_v * unitUs) →
      (r.role = tdmLeader → exec (.checkHoldTimeout g) s = .next ((r.bumpReg TDM_UNCHK 1).clearSegment g.val)) ∧
      (r.role ≠ tdmLeader → exec (.checkHoldTimeout g) s = .next (r.clearSegment g.val)))

/-- Rasters start, run their lines and end; the Loose limit and the release deadline pass. While ticks run and the release
has not ended: a Tight team that has not started starts its raster at its first line's instant with a SYNC frame on
each of its ports; the next line of an enabled port of a started team runs at its instant; a raster that ends drains
what was deferred on every port of the team. A Loose team that has not started at its upper bound and is not ready
starts there, and counts STRETCH_LIM when it has segments. At the release deadline every team with ports is fixed and
its late segments counted, the sACN synchronisation leaves, and the release has ended. Nothing else changes. -/
def Obligations.RastersAndReleaseEnd : Prop :=
  (∀ (t : Fin 16) (s r u : State) (f : Frame) (p : Nat), s.frameOut = some f → (s.teamPorts t.val).head? = some p → s.tick.running = true → s.loose t.val = false → (s.team t.val).started = false → s.tm.ended = false →
      r = s.runTo (s.lineRef p 0) → u = r.setTeam t.val { r.team t.val with started := true } →
      exec (.rasterStart t) s = .next ((u.teamPorts t.val).foldl (fun a q => (a.sendSync (s.releaseAt (s.lineRef p 0)) q).setPort q { (a.sendSync (s.releaseAt (s.lineRef p 0)) q).port q with line := 1 }) u)) ∧
  (∀ (p : Fin 8) (s r : State) (f : Frame), s.frameOut = some f → s.portOn p.val = true → s.loose (s.portTeam p.val) = false → (s.team (s.portTeam p.val)).started = true → (s.port p.val).rasterDone = false → s.tm.ended = false →
      (s.port p.val).line < s.vTotal (s.rasterOf (s.portTeam p.val)) → r = s.runTo (s.lineRef p.val (s.port p.val).line) →
      exec (.rasterLine p) s = .next ((r.setPort p.val { r.port p.val with line := (s.port p.val).line + 1 }).runLine f p.val (s.port p.val).line (s.releaseAt (s.lineRef p.val (s.port p.val).line)))) ∧
  (∀ (t : Fin 16) (s r : State) (f : Frame) (p : Nat), s.frameOut = some f → (s.teamPorts t.val).head? = some p → s.loose t.val = false → (s.team t.val).started = true → (s.port p).rasterDone = false → s.tm.ended = false →
      r = s.runTo (s.rasterEnd p) →
      exec (.rasterEnd t) s = .next ((r.teamPorts t.val).foldl (fun a q => ((a.pruneDeferred q).setPort q { (a.pruneDeferred q).port q with rasterDone := true }).drainDeferred f q (s.releaseAt (s.rasterEnd p))) r)) ∧
  (∀ (t : Fin 16) (s r : State) (f : Frame), s.frameOut = some f → s.tick.running = true → s.loose t.val = true → (s.team t.val).started = false → s.tm.ended = false → s.teamPorts t.val ≠ [] → s.teamReady f t.val = false →
      r = s.runTo (s.looseHigh t.val) →
      (r.teamSegs f t.val = [] → exec (.looseUpperBound t) s = .next (r.looseBegin t.val)) ∧
      (r.teamSegs f t.val ≠ [] → exec (.looseUpperBound t) s = .next ((r.bump (TK_TEAM_STAT_STRETCH_LIM t.val) 1).looseBegin t.val))) ∧
  (∀ (s r u : State) (f : Frame), s.frameOut = some f → s.tick.running = true → s.tm.ended = false → r = s.runTo s.deadline →
      u = (List.range 8).foldl State.sendSacnSync ((List.range 16).foldl (fun a t => if a.teamPorts t = [] then a else (a.fixTeam f t).countLate f t) r) →
      exec .releaseDeadline s = .next { u with tm := { u.tm with ended := true } })

/-- Data, management and discovery frames leave, links change, and commands to nodes are repeated. While ticks run and the
release has not ended, an enabled port of a Tight team whose raster is done sends the first deferred unit that is
ready. The first management frame waiting on a port that may send it now, with its key known, leaves its queue and is
placed with its header and tag; one whose key is gone only leaves its queue. A link change loads the link's state in
window order. A discovery packet of an enabled sACN port that sends is placed. A command that reaches its timeout with
retries left counts one, takes the present tick and is sent again; without, it ends. Nothing else changes. -/
def Obligations.FramesLeaveTheirPorts : Prop :=
  (∀ (p : Fin 8) (errs : List BadWord) (s : State) (f : Frame) (u : Nat × Nat), s.frameOut = some f → s.portOn p.val = true → s.tick.running = true → s.tm.ended = false → s.loose (s.portTeam p.val) = false →
      (s.port p.val).rasterDone = true → (s.port p.val).deferred.find? s.unitReady = some u →
      exec (.dataFrameTransmit p errs) s = .next (((s.memErrors errs).setPort p.val { (s.memErrors errs).port p.val with deferred := ((s.memErrors errs).port p.val).deferred.erase u }).tryUnit f p.val u (errs.any losesPart))) ∧
  (∀ (p : Fin 8) (s t : State) (q : Nat) (m : MgmtFrame), s.nextMgmt p.val = some (q, m) →
      t = s.setPort p.val { s.port p.val with queues := sput noFrames (s.port p.val).queues q (sget noFrames (s.port p.val).queues q).tail } →
      (s.mgmtKey p.val m = none → exec (.managementFrameTransmit p) s = .next t) ∧
      (∀ kid key start b, s.mgmtKey p.val m = some (kid, key) → s.sends p.val = true → s.isSacn p.val = false → start = max s.tb.now (s.port p.val).free →
        s.mgmtMay p.val (s.headOctets p.val + 48 + m.body.length + 16 + 4) start = true → b = s.message p.val m.typ m.level false m.first m.count kid ((s.port p.val).frameNo % 65536) key m.body →
        exec (.managementFrameTransmit p) s = .next (t.placeTrace p.val (mgmtKind m.typ) (s.headOctets p.val + 48 + m.body.length + 16 + 4) start (s.encap p.val b.length ++ b)))) ∧
  (∀ (w : Fin 15) (s : State), exec (.ethLinkChange w false) s = .next { s with tm := { s.tm with links := s.tm.links.filter fun x => decide (x ≠ w.val) } }) ∧
  (∀ (w : Fin 15) (s : State), s.linkMay w.val = true → exec (.ethLinkChange w true) s = .next { s with tm := { s.tm with
      links := ((s.tm.links.filter fun x => decide (x ≠ w.val)).filter fun x => decide (x < w.val)) ++ [w.val] ++ (s.tm.links.filter fun x => decide (x ≠ w.val)).filter fun x => decide (w.val < x) } }) ∧
  (∀ (p : Fin 8) (s : State) (b : List Byte), s.portOn p.val = true → s.isSacn p.val = true → s.sends p.val = true → b = s.e131Discovery p.val (s.universeNos p.val) → s.fld (TM_TRC_PORT_ENCAP p.val) ≠ 2 →
      exec (.sacnDiscoverySend p) s = .next (s.placeFrame p.val .sacnDiscovery (42 + b.length + 4) (max s.tb.now (s.port p.val).free) (s.sacnHeadTo p.val 64214 b.length ++ b))) ∧
  (∀ (id : Word) (s : State) (c : NodeCmd), (s.tm.cmds.find? fun c => decide (c.id = id.toNat)) = some c → c.sentTick + max 1 (s.fld TM_TRC_CMD_TMO) ≤ s.tickNo →
      (c.repeats < s.fld TM_TRC_CMD_RETRY → exec (.nodeCommandRetryTimeout id) s = .next ((s.putCmd { c with repeats := c.repeats + 1, sentTick := s.tickNo }).sendCmd { c with repeats := c.repeats + 1, sentTick := s.tickNo })) ∧
      (s.fld TM_TRC_CMD_RETRY ≤ c.repeats → exec (.nodeCommandRetryTimeout id) s = .next (s.endCmd c)))

/-- DMX packets start and end, and RDM answers and silences move their transactions on. A DMX packet starts on a port that
may send, is idle and past its break: the port is busy until the end of the packet, OVER and ACTIVE show, and the
slots go out. A packet that ends frees its port, with errors counted and the next test packet in a loop-back; ACTIVE
clears where the port may send no more. A response to the request in progress within 2.8 ms ends it and is posted; an
answer to a branch narrows the search. A silence of 2.8 ms is repeated while repeats are left and otherwise spends the
transaction. Nothing else changes. -/
def Obligations.DmxPacketsAndRdmAnswers : Prop :=
  (∀ (n : Fin 16) (s u : State), s.dmxMay n.val = true → (s.dmxPort n.val).busy = false → (s.dmxPort n.val).onLine = false → (s.dmxPort n.val).ends ≤ s.tick.begin →
      u = (s.setFld (DMX_STAT_OVER n.val) (b2n (s.dmxSlots n.val).2)).raise (DMX_STAT_ACTIVE n.val) →
      exec (.dmxPacketStart n) s = .next ((u.setDmx n.val { s.dmxPort n.val with busy := true, ends := u.tick.begin + u.dmxLength n.val (s.dmxSlots n.val).1.length, placed := false }).emit (.dmx n.val 0 (s.dmxSlots n.val).1))) ∧
  (∀ (n : Fin 16) (wrong : Fin 514) (s : State), (s.dmxPort n.val).busy = true →
      ((s.dmxEnd n.val).dmxLoop n.val ≠ 0 → exec (.dmxPacketEnd n wrong) s = .next (((s.dmxEnd n.val).bumpReg (LBK_DMX_ERR n.val) wrong.val).testPacket n.val)) ∧
      ((s.dmxEnd n.val).dmxLoop n.val = 0 → (s.dmxEnd n.val).dmxMay n.val = true → exec (.dmxPacketEnd n wrong) s = .next (s.dmxEnd n.val)) ∧
      ((s.dmxEnd n.val).dmxLoop n.val = 0 → (s.dmxEnd n.val).dmxMay n.val = false → exec (.dmxPacketEnd n wrong) s = .next ((s.dmxEnd n.val).clear (DMX_STAT_ACTIVE n.val)))) ∧
  (∀ (n : Fin 16) (s t : State) (x : DmxPort) (j : RdmJob) (js : List RdmJob) (d : Running) (ds : List Running), x = s.dmxPort n.val → x.onLine = true → x.jobs = j :: js → x.queue = d :: ds → s.tb.now ≤ x.sentAt + 2800 * unitUs →
      t = s.setDmx n.val { x with ends := max x.ends s.tb.now } →
      (∀ a b c e typ data, j = .request a b c e → exec (.rdmResponseReceive n (.response typ data)) s = .next ((t.postRdm n.val d typ.val data).rdmNext n.val [])) ∧
      (∀ lo hi u, j = .branch lo hi → exec (.rdmResponseReceive n (.branch u)) s = .next (t.rdmBranch n.val lo hi (u.map fun v => v.toNat))) ∧
      (∀ a typ data, j = .mute a → exec (.rdmResponseReceive n (.response typ data)) s = .next (t.rdmNext n.val []))) ∧
  (∀ (n : Fin 16) (s r : State) (x : DmxPort) (j : RdmJob) (js : List RdmJob), x = s.dmxPort n.val → x.onLine = true → x.jobs = j :: js → r = s.runTo (x.sentAt + 2800 * unitUs) →
      (∀ k, x.left = some (k + 1) → exec (.rdmResponseTimeout n) s = .next (r.setDmx n.val { x with onLine := false, left := some k, ends := r.tb.now })) ∧
      ((x.left = none ∨ x.left = some 0) → exec (.rdmResponseTimeout n) s = .next ((r.setDmx n.val { x with ends := r.tb.now }).rdmSpent n.val j)))

/-- Ingest takes its packets, a silent source is lost, and temperatures and trims load. With domain 10 on. A cue datagram
for an enabled port and the cue port, on a unit that does not follow, allowed by the bridle, with a good header, no
bad status and a new sequence number, is accepted. A stream packet of an enabled stream that agrees, fits and is new:
its path and ACTIVE are counted, the stream's time and sequence follow, and it is stored; one that disagrees for the
first time sets UNSUP and posts the state; one without room sets OVFL. A sACN packet of an enabled port with start
code 0 of a registered universe, not previewed, stale or terminated, gives its data; a synchronisation packet presents
the universes that wait for it. After each, a wheeler settles its latch record. Nothing else changes. An enabled
stream that is not lost is lost 100 ms after its last packet: LOST sets, ACTIVE clears, and the state is posted. A
known source of a universe leaves it 2.5 s after its last packet. A local temperature joins the entries with its time,
fresh, and back if it was stale. A trim target loads for its node and component. A correction clear, its domain on, is
pending. Nothing else changes. -/
def Obligations.IngestTakesAndLosesItsSources : Prop :=
  (∀ (port : Fin 4) (dst : Half) (b : List Byte) (s : State), s.domOn 10 = true → bitB (s.fld FE_CUE_CTRL_PORT_EN) port.val = true → dst.toNat = s.fld FE_CUE_CTRL_PORT → s.follows = false →
      s.bridleOk (3 + port.val) 2 1 = true → cueHeaderBad b = false → s.cueStatus b = none → s.cueOld port.val (s.cueSeqOf port.val (leAt b 8 4)) = false →
      exec (.networkCueReceive port dst b) s = .next (s.acceptCue port.val (s.cueSeqOf port.val (leAt b 8 4)).toNat b)) ∧
  (∀ (i : Fin 16) (p : StreamPacket) (s : State), s.domOn 10 = true → s.bit (FE_STRM_CTRL_EN i.val) = true → (p.secondary = false ∨ s.bit (FE_STRM_CTRL_DUAL i.val) = true) →
      (p.agrees = false → s.bit (FE_STRM_STAT_UNSUP i.val) = false → exec (.streamPacketReceive i p) s = .next ((s.raise (FE_STRM_STAT_UNSUP i.val)).streamState i.val 2).settleLatch) ∧
      (p.agrees = true → p.full = true → exec (.streamPacketReceive i p) s = .next (s.raise (FE_STRM_STAT_OVFL i.val)).settleLatch) ∧
      (∀ n t u, p.agrees = true → p.full = false → n = ((s.expireMissing i.val).stream i.val).seqOf p.seq.toNat → ((s.expireMissing i.val).stream i.val).isNew n = true →
        t = ((s.expireMissing i.val).countPath i.val p.secondary n).raise (FE_STRM_STAT_ACTIVE i.val) → u = t.setStream i.val { t.stream i.val with last := t.tb.now } →
        exec (.streamPacketReceive i p) s = .next ((u.setStream i.val ((u.stream i.val).took n u.tb.now)).storePacket i.val p).settleLatch)) ∧
  (∀ (port : Fin 4) (p : SacnPacket) (s : State), s.domOn 10 = true → bitB (s.fld FE_SACN_CTRL_PORT_EN) port.val = true → p.preview = false → p.startCode = 0 → s.uniKnown p.uni.toNat = true →
      ((s.uni p.uni.toNat).sources.find? fun y => y.cid = p.cid.toNat) = none →
      (p.terminated = false → exec (.sacnPacketReceive port p) s = .next (s.sacnData p.uni.toNat p none).settleLatch) ∧
      (p.terminated = true → exec (.sacnPacketReceive port p) s = .next (s.dropSource p.uni.toNat p.cid.toNat).settleLatch)) ∧
  (∀ (port : Fin 4) (cid : BitVec 128) (a : Half) (s : State), s.domOn 10 = true → bitB (s.fld FE_SACN_CTRL_PORT_EN) port.val = true →
      exec (.sacnSyncReceive port cid a) s = .next ((s.fe.universes.map fun kv => kv.1).foldl (fun t u => t.syncUni cid.toNat a.toNat u) s).settleLatch) ∧
  (∀ (i : Fin 16) (s r : State), s.bit (FE_STRM_CTRL_EN i.val) = true → s.bit (FE_STRM_STAT_LOST i.val) = false → r = s.runTo ((s.stream i.val).last + 100 * unitMs) →
      exec (.streamLossTimeout i) s = .next (((r.raise (FE_STRM_STAT_LOST i.val)).clear (FE_STRM_STAT_ACTIVE i.val)).streamState i.val 1)) ∧
  (∀ (u : Half) (cid : BitVec 128) (s : State) (y : SacnSource), ((s.uni u.toNat).sources.find? fun y => y.cid = cid.toNat) = some y →
      exec (.sacnSourceTimeout u cid) s = .next ((s.runTo (y.last + 2500 * unitMs)).dropSource u.toNat cid.toNat)) ∧
  (∀ (k : Fin 16) (v : Half) (s : State) (e : TempEntry), e = sget tempDflt s.fe.temps (262144 + k.val) →
      exec (.localTempWrite k v) s = .next { s with fe := { s.fe with temps := sput tempDflt s.fe.temps (262144 + k.val) { value := v.toNat % 65536, written := some s.tb.now, stale := false, back := e.back || e.stale } } }) ∧
  (∀ (n : BitVec 18) (c : Fin 4) (t : Half) (s : State), exec (.trimTargetSet n c t) s = .next { s with fe := { s.fe with trimTarget := sput zeroInt s.fe.trimTarget (4 * n.toNat + c.val) t.toInt } }) ∧
  (∀ s : State, s.domOn 7 = true → exec .curbCorrClear s = .next { s with crb := { s.crb with clear := true } })

/-- PWM periods start, qualify windows end, measurement windows end and plans are committed. At the next period of a feed
time has run to it, the cycle count is taken within its bounds, and the pulses of the feed's channels start. A qualify
window that ends with its gate on, outside the sense loop-backs, closes, and the converted reading qualifies the
channel. A measurement window that is whole and unspoiled is valid; any other counts void; and the next window opens.
A due plan of a feed in the free mode, on a unit that plans while ticks run and not held back, waits for its boundary,
is no longer due, and is journalled. Nothing else changes. -/
def Obligations.DriveAndPhaseWindowsPass : Prop :=
  (∀ (f : Fin 16) (c : Word) (s r : State) (k n : Nat), k = (s.pwm f.val).next s.tb.now → r = s.runTo (k * (s.pwm f.val).span) →
      n = clampN (((s.pwm f.val).span - 25 * unitNs / 4) / drvCount) (((s.pwm f.val).span + 25 * unitNs / 4) / drvCount) c.toNat →
      exec (.pwmPeriodStart f c) s = .next (((r.setPwm f.val { s.pwm f.val with index := some k, begin := r.tb.now, counts := n, short := false }).chansOf f.val).foldl (fun t ch => t.startPulse k n ch)
        (r.setPwm f.val { s.pwm f.val with index := some k, begin := r.tb.now, counts := n, short := false }))) ∧
  (∀ (ch : Fin 48) (lo hi : Word) (adc : BitVec 12) (s r : State) (e : Nat), (s.chan ch.val).window = some e → r = (s.runTo e).setChan ch.val { (s.runTo e).chan ch.val with window := none } → r.gateOn ch.val = true → r.drvTest ch.val = false →
      exec (.qualifyWindowEnd ch lo hi adc) s = .next ((r.adcConvert adc.toNat).noteResult ch.val (r.senseResult ch.val lo.toNat hi.toNat))) ∧
  (∀ (f : Fin 16) (s r u : State) (w k p t : Nat) (x : PhaseFeed), w = s.phWin → p = (s.pwm f.val).span → (s.phaseFeed f.val).window = some k → t = (k + w) * p → r = s.runTo t →
      x = { s.phaseFeed f.val with samples := (s.phaseFeed f.val).samples.filter (fun y => decide (k * p ≤ y.1 ∧ y.1 < t)) } → u = r.setPhaseFeed f.val x →
      (∀ X : State, X = u.validWindow f.val → x.void = false ∧ k % w = 0 ∧ u.tick.running = true ∧ u.meterRuns f.val = true ∧ (u.feed f.val).flag = false →
        exec (.measurementWindowEnd f) s = .next (X.openWindow f.val (max (k + w) (X.tb.now / p / w * w)))) ∧
      (∀ X : State, X = u.bumpReg PHP_VOID 1 → x.void = true ∨ k % w ≠ 0 ∨ u.tick.running = false ∨ u.meterRuns f.val = false ∨ (u.feed f.val).flag = true →
        exec (.measurementWindowEnd f) s = .next (X.openWindow f.val (max (k + w) (X.tb.now / p / w * w))))) ∧
  (∀ (f : Fin 16) (s t : State) (b : Nat) (p : PhasePlan), (s.phaseFeed f.val).due = true → s.fld (PHP_FEED_STAT_MODE f.val) = 0 → s.follows = false → s.tick.running = true → s.journals = false → b = s.stageTick →
      ((s.phaseFeed f.val).free = true ∨ (s.phaseFeed f.val).planned = none) → p = s.makePlan f.val b → t = (s.clear (PHP_FEED_STAT_HELD f.val)).setPhaseFeed f.val { s.phaseFeed f.val with due := false, free := false } →
      exec (.phasePlanCommit f) s = .next (({ t with php := { t.php with waiting := t.php.waiting ++ [p] } } : State).journalItem 3 { sq := 0, bytes := [] } p.bytes))

/-- A feed starts at its second, keeps its second count, loses and regains its clock, and takes samples. A feed that is
due to start, its domain on and not running, starts at that instant: time runs there, its measurement state starts
afresh, RUN sets, SYNTH clears and its phase window is void. At the end of a second the counted modulator clocks
correct the drift by at most one clock. A lost clock forces a latch at the last sample's instant, sets CLK_LOST, posts
it and stops the feed; its return clears and posts that and, if the feed is enabled or the pattern drives it, makes it
due at the next second. A metering sample is stored at its step after the one before, clipping, gaps and crossings
being seen. A feed that does not run, or is not due, is left alone by each. Nothing else changes. -/
def Obligations.MeteringFeedsStartStopAndKeepTime : Prop :=
  (∀ (f : Fin 16) (s r : State) (t : Nat) (x : MeterFeed), (s.feed f.val).startAt = some t → s.domOn 12 = true → s.meterRuns f.val = false → r = s.runTo t →
      x = { r.feed f.val with startAt := none, runSince := t, lastK := none, hiNext := t + r.fld (MTR_FEED_CFG_OSR f.val) * r.modClock f.val / 2, adjust := 0, drift := 0, second := t, boundary := t, opened := false, raws := [], crossings := [], dets := [{}, {}, {}], due := none, dark := false, hist := [], sums := {}, lw := rhe 16000 (r.fnom f.val) } →
      exec (.meterFeedStart f) s = .next ((((r.setFeed f.val x.regain).raise (MTR_FEED_STAT_RUN f.val)).clear (MTR_FEED_STAT_SYNTH f.val)).voidWindow f.val)) ∧
  (∀ (f : Fin 16) (c : Word) (s r : State) (t : Nat) (d adj : Int), s.meterRuns f.val = true → t = (s.feed f.val).second + unitSec → r = s.runTo t →
      d = (if r.bit (MTR_FEED_CFG_CLK_DIR f.val) then 0 else (s.feed f.val).drift + (c.toNat : Int) - ((unitSec / r.modClock f.val : Nat) : Int)) → adj = (if 1 < d then 1 else if d < -1 then -1 else 0) →
      exec (.meterSecond f c) s = .next (r.setFeed f.val { r.feed f.val with second := t, clocks := c.toNat, drift := d - adj, adjust := adj })) ∧
  (∀ (f : Fin 16) (s : State) (k : Nat), s.meterRuns f.val = true → (s.feed f.val).lastK = some k →
      exec (.meterClockLost f) s = .next ((((s.forceLatch f.val (k * meterStep)).raise (MTR_FEED_STAT_CLK_LOST f.val)).clockEvent f.val 1).stopFeed f.val)) ∧
  (∀ (f : Fin 16) (s t : State), s.bit (MTR_FEED_STAT_CLK_LOST f.val) = true → t = (s.clear (MTR_FEED_STAT_CLK_LOST f.val)).clockEvent f.val 0 →
      ((t.bit (MTR_FEED_CFG_EN f.val) = true ∨ t.pattern f.val = true) → exec (.meterClockReturn f) s = .next (t.setFeed f.val { t.feed f.val with startAt := some t.nextSecond })) ∧
      (t.bit (MTR_FEED_CFG_EN f.val) = false → t.pattern f.val = false → exec (.meterClockReturn f) s = .next t)) ∧
  (∀ (f : Fin 16) (cs ps : List (BitVec 24)) (s r : State) (k : Nat), s.meterRuns f.val = true → (s.feed f.val).lastK = some k →
      r = (s.runTo (max (k + 1) (s.tb.now / meterStep) * meterStep)).clip f.val (cs.map fun x => x.toInt) →
      exec (.meteringSample f false cs ps) s = .next ((List.range 3).foldl (fun a p => a.detect f.val (max (k + 1) (s.tb.now / meterStep) * meterStep) (cs.map fun x => x.toInt) p)
        ((r.setFeed f.val { r.feed f.val with lastK := some (max (k + 1) (s.tb.now / meterStep)), raws := (s.feed f.val).raws ++ [{ at' := max (k + 1) (s.tb.now / meterStep) * meterStep, codes := cs.map fun x => x.toInt, plain := ps.map fun x => x.toInt }] }).meterGap f.val (max (k + 1) (s.tb.now / meterStep) * meterStep)))) ∧
  (∀ (f : Fin 16) (cs ps : List (BitVec 24)) (hi : Bool) (s : State), s.meterRuns f.val = false → exec (.meteringSample f hi cs ps) s = .next s ∧ exec (.meterClockLost f) s = .next s)

/-- Line cycles end, latches load, energies are read, and saves are written, completed and restored. A running feed's
cycle ends at the crossing that is due, or at its limit without one: a nominal period in the dark, three halves of one
otherwise. A latch that is due leaves the feed, its sums become the feed's kept ones, and its RMS, counter and instant
load. A read of an MTR_PH_E low word answers it, latches the high word with the wrap count and clears that count. A
due save writes the failed ledger entries again and then the record of its second. A save that completes without error
is in its sector and in MTR_SAVE_SEQ; with one, the sector reads as erased, the failure counts and is posted. A
restore with no saved record only marks itself done and the feeds restored from none. Nothing else changes. -/
def Obligations.CyclesLatchesAndSaves : Prop :=
  (∀ (f : Fin 16) (s : State), s.meterRuns f.val = true →
      (∀ t, (s.feed f.val).due = some t → exec (.lineCycleEnd f) s = .next ((s.runTo t).endCycle f.val t false)) ∧
      (∀ t, (s.feed f.val).due = none → t = (s.feed f.val).boundary + s.nominal f.val →
        ((s.feed f.val).dark = true → exec (.lineCycleEnd f) s = .next ((s.runTo t).endCycle f.val t true)) ∧
        ((s.feed f.val).dark = false → exec (.lineCycleEnd f) s = .next ((s.runTo ((s.feed f.val).boundary + 3 * s.nominal f.val / 2)).endCycle f.val t true)))) ∧
  (∀ (f : Fin 16) (ok : Bool) (s a b c : State) (l : MeterLatch), (s.feed f.val).latch = some l → l.newSet = false → l.done = [] → c.bit (MTR_FEED_CFG_LATCH_EVT f.val) = false → b.pattern f.val = true →
      a = (List.range 3).foldl (fun a p => a.loadPhase f.val l.sums p) (s.setFeed f.val { s.feed f.val with latch := none, keptE := l.e, keptRem := l.rem, keptAt := l.instant }) →
      b = (a.setReg (MTR_IN_RMS f.val) (rmsOf l.sums.nn l.sums.m)).setReg64 (MTR_LATCH_CNT f.val) ((a.setReg (MTR_IN_RMS f.val) (rmsOf l.sums.nn l.sums.m)).reg64 (MTR_LATCH_CNT f.val) + 1) →
      c = (((b.setReg (MTR_LATCH_NS f.val) (nsOf l.instant)).setReg (MTR_LATCH_SEC_LO f.val) (secOf l.instant % 4294967296)).setReg (MTR_LATCH_SEC_HI f.val) (secOf l.instant / 4294967296 % 65536)).source (6 + f.val)
        ((((b.setReg (MTR_LATCH_NS f.val) (nsOf l.instant)).setReg (MTR_LATCH_SEC_LO f.val) (secOf l.instant % 4294967296)).setReg (MTR_LATCH_SEC_HI f.val) (secOf l.instant / 4294967296 % 65536)).reg64 (MTR_LATCH_CNT f.val)) →
      exec (.meterLatch f ok) s = .next c) ∧
  (∀ (f : Fin 16) (p : Fin 3) (a : Fin 6) (s : State) (off k : Nat), s.domOn 12 = true → domainOf (MTR_PH_E f.val p.val a.val) = some 12 → off = MTR_PH_E f.val p.val a.val + 4 → k = 6 * p.val + a.val →
      exec (.meterMtrPhERead f p a) s = .next ((({ s with readLatch := sput zeroWord s.readLatch off (BitVec.ofNat 32 (setBits (s.reg off) 0 4 (sget zeroNat (s.feed f.val).wraps k))) } : State).setFeed f.val
        { s.feed f.val with wraps := sput zeroNat (s.feed f.val).wraps k 0 }).emit (.readData (MTR_PH_E f.val p.val a.val) (s.reg (MTR_PH_E f.val p.val a.val))))) ∧
  (∀ (ok : Bool) (s r : State) (n k : Nat), s.bit MTR_SAVE_STAT_BUSY = false → s.domOn 12 = true → n = clampN 10 3600 (s.fld MTR_SAVE_INTV_v) → k = (max s.mtr.ring.lastSec (secOf s.tb.now - n) / n + 1) * n →
      r = (s.runTo (k * unitSec)).retryLedger ok → exec (.meterSave ok) s = .next (({ r with mtr := { r.mtr with ring := { r.mtr.ring with lastSec := k } } } : State).startSave k)) ∧
  (∀ (n : Fin 4) (s t : State) (b : List Byte), s.mtr.ring.writing = some b →
      t = (({ s with mtr := { s.mtr with ring := { s.mtr.ring with writing := none, next := (s.mtr.ring.next + 1) % max 1 s.saveSects } } } : State)).clear MTR_SAVE_STAT_BUSY →
      (n.val = 0 → exec (.meterSaveComplete n) s = .next (({ t with nor := { t.nor with saves := sput noSave t.nor.saves (t.saveBase / 4096 + s.mtr.ring.next) b } } : State).setReg64 MTR_SAVE_SEQ s.mtr.ring.seq)) ∧
      (n.val ≠ 0 → ∀ u v : State, u = t.bump MTR_SAVE_STAT_FAILS 1 → v = { u with nor := { u.nor with saves := sput noSave u.nor.saves (u.saveBase / 4096 + s.mtr.ring.next) [] } } →
        exec (.meterSaveComplete n) s = .next (v.postNow 0x64 0 0 [(16, 4, s.mtr.ring.next), (20, 1, n.val - 1), (24, 4, v.fld MTR_SAVE_STAT_FAILS), (28, 4, v.tick32)]))) ∧
  (∀ s t : State, s.svc = 0 → ((List.range 16).any fun f => (s.feed f).ran ∨ s.meterRuns f) = false → t = { s with mem := { s.mem with restored := true } } →
      overSlots t.saveBase (t.saveSects * 4096) = false → t.newestSave = none → exec .meterRestore s = .next ((List.range 16).foldl (fun a f => a.restoreFeed none f) t))

/-- The ledger is read at START, trims follow temperature, and captures start, stop and end. In START before any feed
runs, an enabled and sound ledger loads the sixteen feed sets and the newest entry's place; a bad one sets LEDGER_BAD
unless it has no sectors, loads the sets from none and starts at its first place. At the next FAR_FT_PERIOD the
sensors load, the three set temperatures follow them, and outside a run the waiting trims take effect. A capture start
while one runs sets CAP_WR; otherwise the capture of the feed runs, BUSY; on a feed that does not run it ends at once
with status 2. A stop ends the running capture with status 5. A capture that has ended loads its results if it
completed, shows its status, leaves and is posted. Nothing else changes. -/
def Obligations.LedgerTrimsAndCaptures : Prop :=
  (∀ s t u : State, s.svc = 0 → ((List.range 16).any fun f => s.bit (MTR_FEED_STAT_RUN f)) = false → t = { s with mem := { s.mem with ledger := true } } →
      (t.ledgerBad = true → u = (List.range 16).foldl (fun a i => a.loadSet [] (4 + i)) (if t.ledSects ≠ 0 then t.raise FAR_STAT_LEDGER_BAD else t) → (t.raise FAR_STAT_LEDGER_BAD).ledgerBad = true →
        exec .ledgerRead s = .next { u with far := { u.far with sector := 0, index := 0, seq := 0 } }) ∧
      (∀ j i e, t.ledgerBad = false → t.ledgerEntries.foldl newerEntry none = some (j, i, e) → u = (List.range 16).foldl (fun a i => a.loadSet t.ledgerEntries (4 + i)) t →
        exec .ledgerRead s = .next { u with far := { u.far with sector := j, index := i + 1, seq := leAt e 8 8 } })) ∧
  (∀ (raw : List Half) (s r t : State), r = s.runTo (s.far.updated + clampN 10 4000 (s.fld FAR_FT_PERIOD_v) * unitMs) →
      t = [0, 2, 3].foldl (fun a k => a.moveSet k) ((List.range 8).foldl (fun a i => a.loadTj (raw.map fun x => x.toInt) i) { r with far := { r.far with updated := r.tb.now } }) →
      (t.run = true → exec (.factoryTrimUpdate raw) s = .next t) ∧ (t.run = false → exec (.factoryTrimUpdate raw) s = .next t.applyTrims)) ∧
  (∀ (v : Word) (s t : State), s.domOn 12 = true → t = s.capFields v.toNat →
      (t.far.capture.isSome = true → exec (.farCaptureStart v) s = .next (t.raise FAR_STAT_CAP_WR)) ∧
      (∀ (c : Capture) (u : State), t.far.capture = none → c = { feed := t.fld FAR_CAP_CTRL_FEED, cycles := t.fld FAR_CAP_CTRL_CYC } → u = ({ t with far := { t.far with capture := some c } } : State).capStat c 1 →
        (u.bit (MTR_FEED_STAT_RUN c.feed) = true → exec (.farCaptureStart v) s = .next u) ∧
        (u.bit (MTR_FEED_STAT_RUN c.feed) = false → exec (.farCaptureStart v) s = .next (u.abortCapture c.feed 2).capEnd))) ∧
  (∀ (v : Word) (s : State), s.domOn 12 = true →
      ((s.capFields v.toNat).far.capture = none → exec (.farCaptureStop v) s = .next (s.capFields v.toNat)) ∧
      (∀ c, (s.capFields v.toNat).far.capture = some c → exec (.farCaptureStop v) s = .next ((s.capFields v.toNat).abortCapture c.feed 5).capEnd)) ∧
  (∀ (s t u : State) (c : Capture) (st at' : Nat), s.far.capture = some c → c.ended = some (st, at') → t = (if st = 0 then s.capResults c at' else s).capStat c st → u = { t with far := { t.far with capture := none } } →
      exec .farCaptureEnd s = .next (u.postNow 0x66 0 0 [(16, 1, c.feed), (17, 1, st), (20, 4, c.done), (24, 4, u.reg FAR_CAP_FREQ), (28, 4, u.tickNo % 4294967296)]))

/-- A trace frame to the concentrator is counted out or accepted; a read of a queue's first word takes its head. With the
concentrator on: a frame of another type counts in RX_OTHER; one that does not authenticate counts in TLM_AUTH; one
whose sequence number repeats, or lies up to 1024 behind, counts as a duplicate; one of a node not heard yet, or with
a newer number, is accepted. A read of word 0 of TLM_EQ_RD of a queue whose ring is off removes the head, which the
queue latches; on an empty queue, the IDLE item of the present time is latched; while the ring is on, the IDLE item
too, nothing is removed and RD_EN sets. The read answers the first word latched. Nothing else changes. -/
def Obligations.TelemetryFramesAndQueueReads : Prop :=
  (∀ (p : Fin 8) (b : List Byte) (s : State), s.domOn 9 = true →
      (byteAt b 2 % 16 ≠ 5 → exec (.tlmFrameReceive p b) s = .next (s.bump TM_TRC_STAT_RX_OTHER 1)) ∧
      (byteAt b 2 % 16 = 5 → s.tlmAuth b = false → exec (.tlmFrameReceive p b) s = .next (s.bump TM_TRC_STAT_TLM_AUTH 1)) ∧
      (byteAt b 2 % 16 = 5 → s.tlmAuth b = true → (s.node (leAt b 8 4 % 262144)).seq = none → exec (.tlmFrameReceive p b) s = .next (s.tlmAccept p.val (leAt b 8 4 % 262144) (byteAt b 2 / 16) (leAt b 48 4) b)) ∧
      (∀ q d, byteAt b 2 % 16 = 5 → s.tlmAuth b = true → (s.node (leAt b 8 4 % 262144)).seq = some q → d = (leAt b 48 4 + 4294967296 - q) % 4294967296 →
        ((d = 0 ∨ 4294966272 ≤ d) → exec (.tlmFrameReceive p b) s = .next (s.bump TLM_RX_STAT_DUP 1)) ∧
        (d ≠ 0 → d < 4294966272 → exec (.tlmFrameReceive p b) s = .next (s.tlmAccept p.val (leAt b 8 4 % 262144) (byteAt b 2 / 16) (leAt b 48 4) b)))) ∧
  (∀ (e : Fin 8) (s t : State) (i : List Byte), s.domOn 3 = true → i = leBytes 1 0xFF ++ leBytes 7 0 ++ leBytes 4 (nsOf s.tb.now) ++ leBytes 4 (secOf s.tb.now % 4294967296) ++ leBytes 16 0 →
      (s.bit (HIF_EQ_CTRL_EN e.val) = true → t = (s.raise TLM_STATUS_RD_EN).setQueue e.val { (s.raise TLM_STATUS_RD_EN).queue e.val with latched := i } →
        exec (.eventQueueRead e) s = .next (t.emit (.readData (TLM_EQ_RD e.val 0) (leAt (t.queue e.val).latched 0 4)))) ∧
      (s.bit (HIF_EQ_CTRL_EN e.val) = false → (s.queue e.val).items = [] → t = s.setQueue e.val { s.queue e.val with latched := i } →
        exec (.eventQueueRead e) s = .next (t.emit (.readData (TLM_EQ_RD e.val 0) (leAt (t.queue e.val).latched 0 4)))) ∧
      (∀ ev rest, s.bit (HIF_EQ_CTRL_EN e.val) = false → (s.queue e.val).items = ev :: rest → t = (s.removeHead e.val).setQueue e.val { (s.removeHead e.val).queue e.val with latched := ev.bytes 0 } →
        exec (.eventQueueRead e) s = .next (t.emit (.readData (TLM_EQ_RD e.val 0) (leAt (t.queue e.val).latched 0 4)))))

/-- An item offered to a full queue is handled by the service state in force. Of queue e, full, the item that it offered:
in NORMAL and FAILSAFE it is dropped, TLM_EQ_DROP rises by one and the pending GAP counts one dropped; in START, TEST
and RECOVERY the oldest item, here no GAP itself (R382), leaves and the offered one enters at the end, TLM_EQ_LOST
rises by one and the pending GAP counts one overwritten. A pending GAP that there was keeps its first loss; one that
opens takes the present time and tick. The counters saturate. No other queue, and nothing else, changes. -/
def Obligations.FullQueuesFollowTheServiceState : Prop :=
  ∀ (e : Nat) (ev old : Event) (rest : List Event) (s : State) (g : Gap), (s.queue e).items = old :: rest → (old :: rest).length = 16384 →
    g = (match (s.queue e).gap with | some g => g | none => { dropped := 0, overwritten := 0, ns := nsOf s.tb.now, sec := secOf s.tb.now % 4294967296, firstTick := s.tickNo % 4294967296 }) →
    ((s.svc = 1 ∨ s.svc = 4) → ∀ t, t = s.setQueue e { s.queue e with gap := some { g with dropped := min 4294967295 (g.dropped + 1), overwritten := min 4294967295 g.overwritten } } →
      s.offer e ev = t.setReg (TLM_EQ_DROP e) (min 4294967295 (t.reg (TLM_EQ_DROP e) + 1))) ∧
    ((s.svc = 0 ∨ s.svc = 2 ∨ s.svc = 3) → old.typ ≠ 0x7F → ∀ t, t = s.setQueue e { s.queue e with items := rest ++ [ev], gap := some { g with dropped := min 4294967295 g.dropped, overwritten := min 4294967295 (g.overwritten + 1) } } →
      s.offer e ev = t.setReg (TLM_EQ_LOST e) (min 4294967295 (t.reg (TLM_EQ_LOST e) + 1)))

/-- A pending GAP enters at the slot that a removal frees, and a GAP that is overwritten joins the pending one. Removing
the head of a queue that has a pending GAP leaves the rest of the items with the GAP last, its payload the dropped and
overwritten counts, the first tick and the present one, and no GAP pending; with none pending, just the rest.
Overwriting a GAP item counts in no register: its counts add to the pending GAP's, and the earlier first loss and the
lower first tick stand. -/
def Obligations.GapsEnterWhenASlotIsFreed : Prop :=
  (∀ (e : Nat) (s : State) (ev : Event) (rest : List Event), (s.queue e).items = ev :: rest →
      (∀ g, (s.queue e).gap = some g → s.removeHead e = s.setQueue e { s.queue e with items := rest ++ [{ typ := 0x7F, srcIndex := e, reporters := 0, ns := g.ns, sec := g.sec, payload := evPayload [(16, 4, g.dropped), (20, 4, g.overwritten), (24, 4, g.firstTick), (28, 4, s.tickNo % 4294967296)] }], gap := none }) ∧
      ((s.queue e).gap = none → s.removeHead e = s.setQueue e { s.queue e with items := rest })) ∧
  (∀ (e : Nat) (s : State) (ev old : Event) (rest : List Event) (a b : Gap), (s.queue e).items = old :: rest → (old :: rest).length = 16384 → (s.svc = 0 ∨ s.svc = 2 ∨ s.svc = 3) → old.typ = 0x7F →
      a = { dropped := leAt old.payload 0 4, overwritten := leAt old.payload 4 4, ns := old.ns, sec := old.sec, firstTick := leAt old.payload 8 4 } →
      ((s.queue e).gap = none → s.offer e ev = s.setQueue e { s.queue e with items := rest ++ [ev], gap := some a }) ∧
      ((s.queue e).gap = some b → ∃ c : Gap, s.offer e ev = s.setQueue e { s.queue e with items := rest ++ [ev], gap := some c } ∧ c.dropped = min 4294967295 (a.dropped + b.dropped) ∧ c.overwritten = min 4294967295 (a.overwritten + b.overwritten) ∧
        c.firstTick = min a.firstTick b.firstTick ∧ (if a.sec < b.sec ∨ (a.sec = b.sec ∧ a.ns < b.ns) then c.sec = a.sec ∧ c.ns = a.ns else c.sec = b.sec ∧ c.ns = b.ns)))

/-- The tandem starts and stops, sends its heartbeat, and loses or keeps its partner, its lanes and its lines. TDM_CTRL
with EN outside TEST and while EN is 0 takes its other fields, sets EN, clears the fault cause and searches from now;
without, while EN is 0, only the fields load. An enabled unit sends its heartbeat 50 us after the one before. A
partner that was there and is silent is lost: both lanes fall, the sync stops; a leader goes solo with cause 4, a
wheeler isolates while the alive line runs and else takes over. A lane falls with its link, or its heartbeat limit
after the last one heard, and rises with both. An alive line that stops or runs again shows it; an isolated unit with
ISO_TAKEOVER takes over. A fault of the alive readback declares cause 3. A search that hears no usable partner, its
alive line still, ends solo. A fragment is dropped 1 ms after it was heard, and an entry not acknowledged for 1 ms
sends a leader solo with cause 3. Nothing else changes. -/
def Obligations.TandemLinesLanesAndTimers : Prop :=
  (∀ (v : Word) (s t : State), s.domOn 11 = true → t = (s.setFld TDM_CTRL_ISO_TAKEOVER (bitsOf v.toNat 2 1)).setFld TDM_CTRL_ROLE_PREF (bitsOf v.toNat 1 1) →
      (t.svc ≠ 2 → t.bit TDM_CTRL_EN = false → ∀ u, u = (t.raise TDM_CTRL_EN).clear TDM_STATUS_FAULT_CAUSE →
        exec (.tandemEnable v) s = .next (({ u with tdm := { u.tdm with searchAt := u.tb.now, hbSent := u.tb.now, partner := {}, asm := [] } } : State).setRole tdmSearch 0)) ∧
      (t.bit TDM_CTRL_EN = false → exec (.tandemDisable v) s = .next t) ∧
      (t.bit TDM_CTRL_EN = true → t.journals = false → ∀ u, u = ((t.discardJournal.clear TDM_CTRL_EN).setRole tdmDown 0).stopSync →
        exec (.tandemDisable v) s = .next (({ u with tdm := { u.tdm with alive := false, unverifiedAt := none, arb := [] } } : State).releaseSigned))) ∧
  (∀ s : State, s.bit TDM_CTRL_EN = true → exec .tandemHbSend s = .next (s.runTo (s.tdm.hbSent + 50 * unitUs)).hbNow) ∧
  (∀ s t : State, s.bit TDM_STATUS_PARTNER = true → t = ((((s.runTo ((s.lastHb).getD s.tb.now + hbLimit)).clear TDM_STATUS_PARTNER).setLane 0 false).setLane 1 false).stopSync →
      (t.role = tdmLeader → exec .partnerLinkLost s = .next (t.goSolo 4)) ∧
      (t.role = tdmWheeler → t.bit TDM_STATUS_ALIVE_IN = true → exec .partnerLinkLost s = .next (t.setRole tdmIsolated 4).releaseSigned) ∧
      (t.role = tdmWheeler → t.bit TDM_STATUS_ALIVE_IN = false → exec .partnerLinkLost s = .next (t.takeover 2 none)) ∧
      (t.role ≠ tdmLeader → t.role ≠ tdmWheeler → exec .partnerLinkLost s = .next t)) ∧
  (∀ (k : Fin 2) (s : State) (t : Nat), sget noTime s.tdm.hbAt k.val = some t →
      (s.linkUp (12 + k.val) = true → s.tb.now < t + hbLimit → exec (.tandemLaneChange k true) s = .next (s.setLane k.val true)) ∧
      (s.linkUp (12 + k.val) = false → exec (.tandemLaneChange k true) s = .next s ∧ exec (.tandemLaneChange k false) s = .next (s.setLane k.val false)) ∧
      (s.linkUp (12 + k.val) = true → exec (.tandemLaneChange k false) s = .next ((s.runTo (t + hbLimit)).setLane k.val false))) ∧
  (∀ s t : State, t = (if s.bit TDM_STATUS_ALIVE_IN then (s.clear TDM_STATUS_ALIVE_IN).postLink 2 false else s) →
      (t.role ≠ tdmIsolated → exec .aliveLineStopped s = .next t) ∧ (t.role = tdmIsolated → t.bit TDM_CTRL_ISO_TAKEOVER = true → exec .aliveLineStopped s = .next (t.takeover 2 none))) ∧
  (∀ s : State, (s.bit TDM_STATUS_ALIVE_IN = true → exec .aliveLineRunning s = .next s) ∧ (s.bit TDM_STATUS_ALIVE_IN = false → exec .aliveLineRunning s = .next ((s.raise TDM_STATUS_ALIVE_IN).postLink 2 true))) ∧
  (∀ s t : State, s.role ≠ tdmDown → s.role ≠ tdmFaulty → t = (s.sendTdm (.fault 3 s.progress)).setFld TDM_STATUS_FAULT_CAUSE 3 →
      exec .aliveReadbackFail s = .next ((({ t with tdm := { t.tdm with alive := false } } : State).stopSync).setRole tdmFaulty 1)) ∧
  (∀ s t : State, s.role = tdmSearch → t = s.runTo (s.tdm.searchAt + s.fld TDM_SEARCH_MS_v * unitMs) → t.tdm.partner.hello = none →
      (t.bit TDM_STATUS_ALIVE_IN = false ∨ t.bit TDM_CTRL_ROLE_PREF = true → exec .tandemSearchTimeout s = .next (t.setRole tdmSolo 2).releaseSigned) ∧
      (t.bit TDM_STATUS_ALIVE_IN = true → t.bit TDM_CTRL_ROLE_PREF = false → exec .tandemSearchTimeout s = .next t)) ∧
  (∀ (k : Fin 2) (s : State), (sget noPartial s.tdm.asm k.val = none → exec (.fragmentTimeout k) s = .next s) ∧
      (∀ p, sget noPartial s.tdm.asm k.val = some p → exec (.fragmentTimeout k) s = .next ((s.runTo (p.at' + unitMs)).setAsm k.val none))) ∧
  (∀ (s : State) (e : JournalEntry) (es : List JournalEntry), s.role = tdmLeader → s.tdm.journal = e :: es → exec .jackTimeout s = .next ((s.runTo (e.sentAt + unitMs)).goSolo 3)) ∧
  (∀ (s : State) (t : Nat), s.tdm.retryAt = some t → (s.journals = true → exec .resyncRetry s = .next (s.runTo t).startSync) ∧
      (s.journals = false → exec .resyncRetry s = .next { s with tdm := { s.tdm with retryAt := none } }))

/-- Heartbeats, hellos, journal messages, faults, roles, states and joins that are heard act. Of a message that is heard
(Hears: enabled, its key live, its tag good, its number fresh and it whole), with u the state that has noted it: a
heartbeat shows the partner, notes its state, epoch and progress, raises its lane if its link is up, and its offset
and state are used. A hello loads the partner's versions; a searching unit decides by it, a journalling one answers a
searcher. A journal entry newer than the last one joins the journal of a wheeler, marked journalled, and acknowledged;
a leader's acknowledged entry leaves, its commit is sent and it commits; a commit marks its entry and the heads that
are due apply. A fault makes the partner faulty: a leader goes solo with cause 1, a wheeler takes over. A role message
sets the swap tick of a follower; a state part is kept, replacing one of its kind, and a join is noted, in RESYNC. A
message that is not whole, not fresh or not wanted changes no more than that. -/
def Obligations.TandemJournalAndRoleMessagesAct : Prop :=
  (∀ (h : TdmHead) (m : Heartbeat) (ofs : Word) (s u v : State), s.Hears h 0x02 u → u.linkUp (12 + h.lane.val) = false →
      v = { u with tdm := { u.tdm with hbAt := sput noTime u.tdm.hbAt h.lane.val (some u.tb.now), partner := { u.tdm.partner with state := m.state, epoch := some m.epoch, progress := m.progress } } } →
      v.linkUp (12 + h.lane.val) = false → exec (.tandemHbReceived h m ofs) s = .next (((v.raise TDM_STATUS_PARTNER).hearOffset ofs.toInt).hearState m)) ∧
  (∀ (h : TdmHead) (m : Hello) (s u v w : State), s.Hears h 0x01 u → v = (u.setFld ⟨TDM_PVER, 16, 16⟩ m.arith).setFld ⟨TDM_PVER, 0, 8⟩ m.cgen →
      w = { v with tdm := { v.tdm with partner := { v.tdm.partner with hello := some m, state := m.state, epoch := some m.epoch } } } →
      (w.role = tdmSearch → exec (.tandemHelloReceived h m) s = .next (w.searchHello m)) ∧
      (w.role ≠ tdmSearch → w.journals = false → exec (.tandemHelloReceived h m) s = .next w)) ∧
  (∀ (h : TdmHead) (e : JournalEntry) (s u v : State), s.Hears h 0x10 u → u.role = tdmWheeler →
      (e.index ≤ u.tdm.index → exec (.jrn h e) s = .next u) ∧
      (u.tdm.index < e.index → v = { u with tdm := { u.tdm with journal := insertEntry { e with d := { e.d with journal := true, index := e.index, mirrored := false }, commit := none } u.tdm.journal } } →
        exec (.jrn h e) s = .next (v.ackEntries v.tdm.journal.length))) ∧
  (∀ (h : TdmHead) (i : Nat) (s u v : State) (e : JournalEntry), s.Hears h 0x11 u → u.role = tdmLeader → (u.tdm.journal.find? fun e => decide (e.index = i)) = some e →
      v = { u with tdm := { u.tdm with journal := u.tdm.journal.filter fun x => decide (x.index ≠ i) } } → exec (.jack h i) s = .next ((v.sendTdm (.jcmt i v.commitTick)).commitEntry e true)) ∧
  (∀ (h : TdmHead) (i c : Nat) (s u v : State), s.Hears h 0x12 u → v = { u with tdm := { u.tdm with journal := u.tdm.journal.map fun e => if e.index = i then { e with commit := some c } else e } } →
      (u.role = tdmResync → exec (.jcmt h i c) s = .next v) ∧ (u.role = tdmWheeler → u.commitLate c = false → exec (.jcmt h i c) s = .next (v.applyHeads v.tdm.journal.length)) ∧
      (u.role = tdmWheeler → u.commitLate c = true → exec (.jcmt h i c) s = .next (u.toResync 3))) ∧
  (∀ (h : TdmHead) (n : Nat) (q : TdmProgress) (s u v : State), s.Hears h 0x24 u → v = { u with tdm := { u.tdm with partner := { u.tdm.partner with state := tdmFaulty, progress := some q } } } →
      (v.role = tdmLeader → exec (.fault h n q) s = .next (v.goSolo 1).stopSync) ∧ (v.role = tdmWheeler → exec (.fault h n q) s = .next (v.takeover 1 (some q))) ∧
      (v.role ≠ tdmLeader → v.role ≠ tdmWheeler → exec (.fault h n q) s = .next v)) ∧
  (∀ (h : TdmHead) (q : Option Nat) (s u : State), s.Hears h 0x40 u → (u.follows = true → exec (.role h q) s = .next (u.setSwapTick q)) ∧ (u.follows = false → exec (.role h q) s = .next u)) ∧
  (∀ (h : TdmHead) (p : StatePart) (w : Bool) (s u : State), s.Hears h 0x41 u → u.role = tdmResync →
      exec (.state h (.part p) w) s = .next { u with tdm := { u.tdm with received := (u.tdm.received.filter fun q => decide (q.kind ≠ p.kind)) ++ [p] } }) ∧
  (∀ (h : TdmHead) (j : Nat) (s u : State), s.Hears h 0x42 u → u.role = tdmResync → exec (.join h j) s = .next { u with tdm := { u.tdm with joinAt := some j } }) ∧
  (∀ (h : TdmHead) (j : Nat) (s : State), s.bit TDM_CTRL_EN = false → exec (.join h j) s = .next s ∧ exec (.jack h j) s = .next s)

/-- Latch records, ingest messages, sets, signatures and shadows that are heard act, and their waits end. Of a message
that is heard, u having noted it: a latch record for the next tick, or while no ticks run, is kept as the latest; one
for the present tick is used once its frame stands, and an older one is dropped. An ingest line is compared and a
frame confirmed; a universe of the partner is taken by a wheeler. A cue set for this tick or later of a pair is kept.
The signatures of a pair are compared one by one, and a shadow's result settles its arbitration. A wheeler without its
latch record by TDM_LR_TMO marks the tick not verified and latches on its own; one without a set gives it up after 12
us; a shadow lane's arbitration gets its result when the lane is done; a wheeler not verified for 150 us
resynchronises while its partner is there. A round of a resync sends what changed. Nothing else changes. -/
def Obligations.TandemFramesAreComparedAndChecked : Prop :=
  (∀ (h : TdmHead) (r : LatchRec) (s u : State), s.Hears h 0x20 u →
      (u.tick.running = false ∨ r.bound = u.tickNo + 1 → exec (.latch h r) s = .next { u with tdm := { u.tdm with latest := some r } }) ∧
      (u.tick.running = true → r.bound = u.tickNo → u.frameNow.isSome = true → u.tick.acting = false → exec (.latch h r) s = .next (({ u with tdm := { u.tdm with latest := some r } } : State).useLatch r)) ∧
      (u.tick.running = true → r.bound ≠ u.tickNo → r.bound ≠ u.tickNo + 1 → exec (.latch h r) s = .next u)) ∧
  (∀ (h : TdmHead) (s u : State) (i ts k d : Nat), s.Hears h 0x30 u → i < 16 →
      exec (.ingest h (.line i ts k d)) s = .next (u.hearLine i ts k d).settleLatch ∧
      exec (.ingest h (.frame i ts d)) s = .next (u.putFrame i { u.frameOf i ts with confirmed := some (u.tb.now, d) })) ∧
  (∀ (h : TdmHead) (s u : State) (n a b : Nat) (slots : List Byte), s.Hears h 0x30 u → u.role = tdmWheeler →
      exec (.ingest h (.universe n a b slots)) s = .next (u.setUni n ((u.uni n).took u.tb.now slots)).settleLatch) ∧
  (∀ (h : TdmHead) (n : Nat) (d e : List Nat) (s u : State), s.Hears h 0x21 u →
      (u.inPair = true → u.tickNo ≤ n → exec (.cset h n d e) s = .next { u with tdm := { u.tdm with cset := some (n, d, e) } }) ∧
      (u.inPair = false ∨ n < u.tickNo → exec (.cset h n d e) s = .next u)) ∧
  (∀ (h : TdmHead) (n : Nat) (xs : List (Nat × Nat)) (s u : State), s.Hears h 0x22 u → (u.inPair = true → exec (.sig h n xs) s = .next (xs.foldl (fun a x => a.hearSig n x) u)) ∧ (u.inPair = false → exec (.sig h n xs) s = .next u)) ∧
  (∀ (h : TdmHead) (n g x y : Nat) (s u v : State), s.Hears h 0x23 u →
      v = { u with tdm := { u.tdm with arb := updateFirst (fun b => decide (b.tick = n ∧ b.seg = g)) (fun b => { b with partner := x, partnerShadow := some y }) u.tdm.arb } } →
      (v.findArb n g = none → exec (.shd h n g x y) s = .next v) ∧ (∀ b, v.findArb n g = some b → exec (.shd h n g x y) s = .next (v.settleArb b))) ∧
  (∀ s : State, s.role = tdmWheeler → s.tdm.latchGot = false → s.tick.running = true → s.tickNo ∉ s.tdm.unverified →
      exec .latchRecordTimeout s = .next ((s.runTo (s.tick.begin + s.fld TDM_LR_TMO_v * unitUs)).notVerified s.tickNo).latchOwn) ∧
  (∀ (s : State) (t : Nat), s.tdm.csetAt = some t → s.tick.solved = false → s.inPair = true → s.tdm.cset = none → exec .csetWaitTimeout s = .next (s.runTo (t + 12 * unitUs)).giveUpCset) ∧
  (∀ (s : State) (a : Arbitration), (s.tdm.arb.find? fun a => a.ownShadow.isNone) = some a →
      exec (.shadowLaneDone none) s = .next ((s.runTo (max a.at' s.tdm.shadowFree + shadowTime)).shadowResult a a.own []) ∧
      (∀ x ys, exec (.shadowLaneDone (some (x, ys))) s = .next ((s.runTo (max a.at' s.tdm.shadowFree + shadowTime)).shadowResult a x.toNat (ys.map BitVec.toNat)))) ∧
  (∀ (s r : State) (t : Nat), s.tdm.unverifiedAt = some t → s.role = tdmWheeler → r = s.runTo (t + 150 * unitUs) →
      (r.bit TDM_STATUS_PARTNER = true → exec .outOfStep s = .next (({ r with tdm := { r.tdm with unverifiedAt := none } } : State).toResync 3)) ∧
      (r.bit TDM_STATUS_PARTNER = false → exec .outOfStep s = .next { r with tdm := { r.tdm with unverifiedAt := none } })) ∧
  (∀ (bytes left : Nat) (st : Bool) (s u v : State), s.tdm.syncing = true → s.journals = true → s.bit TDM_STATUS_PARTNER = true →
      u = (s.transferred.filter fun p => decide (p ∉ s.tdm.sent)).foldl (fun a p => a.sendTdm (.state (.part p))) s →
      v = ({ u with tdm := { u.tdm with sent := s.transferred } } : State).setReg64 TDM_RS_BYTES (({ u with tdm := { u.tdm with sent := s.transferred } } : State).reg64 TDM_RS_BYTES + bytes) →
      v.tdm.joinAt.isSome = true → exec (.resyncRound bytes left st) s = .next v)

/-- Scrub passes step, watched words are read, records close, a late handler is a device fault, rows are spared. A scrub
step of an initialised memory runs time to its word, counts a corrected error of the pass, handles the error it met,
shows the pass and either steps on or ends it. A read of the watch list handles the errors of watched words alone. The
record being handled closes: it leaves, is filed, its words are watched, and a restart it asks for becomes due. A
handler that is still busy after MEM_HDL_WDT is a DEVICE_FAULT. A row that waits to be spared takes a spare of its
macro while one of the four is left, MEM_SPARE_USED and MEM_SPARE_LEFT following, and is else recorded as an error.
Nothing else changes. -/
def Obligations.MemoriesAreScrubbedSparedAndRecorded : Prop :=
  (∀ (on : Bool) (s : State), (s.bit MEM_STATUS_INIT_DONE = false ∨ s.passWords (b2n on) = 0) → ∀ e, exec (.scrubStep on e) s = .next s) ∧
  (∀ (on : Bool) (s t : State) (b n f : Nat), s.bit MEM_STATUS_INIT_DONE = true → s.passWords (b2n on) ≠ 0 → sget noPass s.mem.passes (b2n on) = (b, n, f) →
      t = (s.runTo (b + n * s.passPeriod (b2n on) * unitSec / s.passWords (b2n on))).showPass (b2n on) ((n + 1) % s.passWords (b2n on)) →
      (n + 1 < s.passWords (b2n on) → exec (.scrubStep on none) s = .next { t with mem := { t.mem with passes := sput noPass t.mem.passes (b2n on) (b, n + 1, f) } }) ∧
      (s.passWords (b2n on) ≤ n + 1 → exec (.scrubStep on none) s = .next (t.endPass (b2n on) b f))) ∧
  (∀ (s : State) (w : BadWord), ((w.mem.val, w.addr.toNat) ∈ s.mem.watch → exec (.watchListRead [w]) s = .next (s.memError (s.scrubbed w) true)) ∧
      ((w.mem.val, w.addr.toNat) ∉ s.mem.watch → exec (.watchListRead [w]) s = .next s)) ∧
  (∀ (s t : State) (k : Nat) (r : ErrRecord), s.handling = some (k, r) → t = r.words.foldl State.watchWord (({ s with mem := { s.mem with records := sput noRecord s.mem.records k none } } : State).fileRecord r 0) →
      (r.restart = true → exec .errorRecordClose s = .next { t with mem := { t.mem with riderDue := true } }) ∧ (r.restart = false → exec .errorRecordClose s = .next t) ∧
      exec .handlerWatchdogTimeout s = .next ((s.runTo (r.firstAt + s.fld MEM_HDL_WDT_v * unitUs)).deviceFault 0xFF 9 0 0)) ∧
  (∀ (s t u : State) (m a : Nat) (rest : List (Nat × Nat)), s.mem.sparing = (m, a) :: rest → t = { s with mem := { s.mem with sparing := rest } } →
      (sget zeroNat t.mem.spared (65536 * m + a / 262144) < 4 → u = { t with mem := { t.mem with spared := sput zeroNat t.mem.spared (65536 * m + a / 262144) (sget zeroNat t.mem.spared (65536 * m + a / 262144) + 1) } } →
        exec .rowSpare s = .next ((u.bump (MEM_SPARE_USED m) 1).setFld (MEM_SPARE_LEFT m) (u.fld (MEM_SPARE_LEFT m) - 1))) ∧
      (4 ≤ sget zeroNat t.mem.spared (65536 * m + a / 262144) → exec .rowSpare s = .next (t.record (t.errRecord 1 m 7 0 a 0)))) ∧
  (∀ s : State, s.handling = none → exec .errorRecordClose s = .next s ∧ exec .handlerWatchdogTimeout s = .next s)

/-- Grace ends and is noticed, session reserves are written, keys are re-masked, and the entropy source fails. The grace
of a slot ends at its deadline: with ticks running that waits for the key-epoch boundary, otherwise it expires. A
notice in grace comes 60 s after the one before and posts the seconds left. A reserve write that waits starts if the
NOR takes it and is else tried a second later and noticed with cause 5; when it is done, the reserve and the session
end rise by 1,024, SES_WAIT clears, a session that waited is taken and the held frames go on. A re-masking round runs
to its time, re-masks the device and the owner slots, and notes its time, noticed with cause 2 where it ends a period
late. An entropy failure sets TRNG_BAD and is noticed with cause 1, and re-masking stays as it is from then. Nothing
else changes. -/
def Obligations.KeysGraceReserveAndGrooming : Prop :=
  (∀ (i : Fin 64) (s r : State), (s.slot i.val).state = slotGrace → r = s.runTo (s.slot i.val).deadline →
      (r.tick.running = true → exec (.keyGraceExpiry i) s = .next r) ∧ (r.tick.running = false → exec (.keyGraceExpiry i) s = .next (r.expireGrace i.val))) ∧
  (∀ (i : Fin 64) (s r : State) (x : KeySlot), (s.slot i.val).state = slotGrace → x = s.slot i.val → r = (s.runTo (x.noticed + 60 * unitSec)).setSlot i.val { x with noticed := x.noticed + 60 * unitSec } →
      exec (.keyGraceNotice i) s = .next (r.postNow 0x7A 0 0 [(16, 1, i.val), (20, 4, (x.deadline - r.tb.now) / unitSec), (28, 4, r.tick32)])) ∧
  (∀ (i : Fin 64) (s : State), (s.slot i.val).state ≠ slotGrace → exec (.keyGraceExpiry i) s = .next s ∧ exec (.keyGraceNotice i) s = .next s) ∧
  (∀ s r : State, s.tkr.writing = true → s.tkr.underway = false → r = s.runTo s.tkr.retryAt →
      exec (.sessionReserveWrite true) s = .next { r with tkr := { r.tkr with underway := true } } ∧
      exec (.sessionReserveWrite false) s = .next (({ r with tkr := { r.tkr with retryAt := r.tb.now + unitSec } } : State).secNotice 5)) ∧
  (∀ s t : State, s.tkr.underway = true → s.tkr.waits = false →
      t = ({ s with tkr := { s.tkr with underway := false, writing := decide (s.tkr.reserve + 1024 < 256), reserve := s.tkr.reserve + 1024, sessionEnd := (s.tkr.sessionEnd + 1024) % 4294967296 } } : State).clear TKR_STAT_SES_WAIT →
      t.tkr.waits = false → exec .sessionReserveDone s = .next { t with tm := { t.tm with held := false } }) ∧
  (∀ (s r : State) (p : Nat), s.bit TKR_STAT_TRNG_BAD = false → p = clampN 1 600 (s.fld TKR_GROOM_v) * 100 * unitMs →
      r = ownerSlots.foldl State.remaskSlot (s.runTo (s.tkr.groomed + p)).remaskDevice →
      (r.tb.now < s.tkr.groomed + p + p → exec .remaskRound s = .next { r with tkr := { r.tkr with groomed := s.tkr.groomed + p } }) ∧
      (s.tkr.groomed + p + p ≤ r.tb.now → exec .remaskRound s = .next ((({ r with tkr := { r.tkr with groomed := r.tb.now } } : State).raise TKR_STAT_GROOM_LATE).secNotice 2))) ∧
  (∀ s : State, exec .entropyFailure s = .next ((s.raise TKR_STAT_TRNG_BAD).secNotice 1)) ∧
  (∀ s : State, s.bit TKR_STAT_TRNG_BAD = true → exec .remaskRound s = .next s)

/-- A trial is confirmed, a configuration migrates, and images come over MG0 and from the peer. A trial in NORMAL for
IMG_TRIAL is confirmed: its slot is ACTIVE, the floor takes at least its MIN_SVN, the trial ends, a migration with it
commits, and it is posted. A start of a booted image whose hash is the target of a pending migration migrates again;
another drops that one, and migrates unless the hash is the one last migrated. An MG0 datagram to the unit's port with
the header's magic is refused and denied without the bridle, refused for the booted slot, for a bad field, and for
wrong data or a write that does not read back; else it is staged; each is answered. An ARP request for the unit's
address is answered with its MAC. IMG_PEER with GO asks the partner for an image, waiting for it if it is not there,
or shows state 4 where that may not be; with STOP it shows state 0. Nothing else changes. -/
def Obligations.ImagesAreConfirmedMigratedAndPeered : Prop :=
  (∀ (s r u : State) (i t f : Nat) (x : ImageSlot), s.onTrial = some i → s.mem.normalAt = some t → s.svc = 1 → r = s.runTo (t + max 60 (s.fld IMG_TRIAL_v) * unitSec) → x = r.image i → f = max r.img.floor (hdrMinSvn x.header) →
      u = r.setImage i { x with state := 4 } →
      exec .trialConfirm s = .next ((((({ u with img := { u.img with active := some i, floor := f } } : State).setFld IMG_STATUS_FLOOR f).clear IMG_STATUS_TRIAL).commitMigration).postBoot i 2 0 x.header)) ∧
  (∀ (s : State) (i : Nat) (hash : List Byte → Nat), s.img.slot = some i → hash = (fun h => beAt (hdrRiderHash h) 0 48) →
      (s.img.migState = 1 → s.img.target = hash s.img.header → exec .configMigration s = .next (s.migrate s.img.header)) ∧
      (s.img.migState ≠ 1 → hash s.img.header = s.img.hash → exec .configMigration s = .next { s with img := { s.img with other := false } }) ∧
      (s.img.migState ≠ 1 → hash s.img.header ≠ s.img.hash → exec .configMigration s = .next (s.migrate s.img.header))) ∧
  (∀ (ip : Word) (port dport : Half) (dst : Word) (m : List Byte) (w : Bool) (s : State) (slot chunk : Nat), s.domOn 13 = true → dst.toNat = s.reg IMG_MG_IP → dport.toNat = s.fld IMG_MG_PORT_v → 24 ≤ m.length →
      leAt m 0 4 = 0x5A4A4943 → byteAt m 4 = 1 → slot = byteAt m 5 → chunk = leAt m 8 4 →
      (s.bridleOk 15 4 6 = false → exec (.mg0ImageChunk ip port dst dport m w) s = .next ((s.bridleDeny 15 6).mgReply ip.toNat port.toNat stNotPermitted chunk slot)) ∧
      (s.bridleOk 15 4 6 = true → s.isBooted slot = true → exec (.mg0ImageChunk ip port dst dport m w) s = .next (s.mgReply ip.toNat port.toNat stNotPermitted chunk slot)) ∧
      (s.bridleOk 15 4 6 = true → s.isBooted slot = false → ((chunkBad slot chunk (leAt m 16 4) (leAt m 12 4)).any (fun c => c.2) = true ∨ leAt m 6 2 ≠ 0 ∨ m.length - 24 ≠ leAt m 16 4) →
        exec (.mg0ImageChunk ip port dst dport m w) s = .next (s.mgReply ip.toNat port.toNat stBadField chunk slot)) ∧
      (s.bridleOk 15 4 6 = true → s.isBooted slot = false → (chunkBad slot chunk (leAt m 16 4) (leAt m 12 4)).any (fun c => c.2) = false → leAt m 6 2 = 0 → m.length - 24 = leAt m 16 4 →
        ((crc32 (m.drop 24) ≠ leAt m 20 4 ∨ w = false) → exec (.mg0ImageChunk ip port dst dport m w) s = .next (s.mgReply ip.toNat port.toNat stIntegrity chunk slot)) ∧
        (crc32 (m.drop 24) = leAt m 20 4 → w = true → exec (.mg0ImageChunk ip port dst dport m w) s = .next ((s.setImage slot ((s.image slot).stage chunk (leAt m 12 4) (m.drop 24) true)).mgReply ip.toNat port.toNat stOk chunk slot)))) ∧
  (∀ (t ip : Word) (mac : BitVec 48) (s : State), s.domOn 13 = true → t.toNat = s.reg IMG_MG_IP →
      exec (.arpRequest t ip mac) s = .next (s.emit (.frame 14 .arp (beBytes 6 mac.toNat ++ Config.ownMac 14 ++ beBytes 2 0x0806 ++ beBytes 2 1 ++ beBytes 2 0x0800 ++ beBytes 1 6 ++ beBytes 1 4
        ++ beBytes 2 2 ++ Config.ownMac 14 ++ beBytes 4 t.toNat ++ beBytes 6 mac.toNat ++ beBytes 4 ip.toNat)))) ∧
  (∀ (v : Word) (s t : State) (dst src : Nat), s.domOn 1 = true → dst = bitsOf v.toNat 0 1 → src = bitsOf v.toNat 4 1 → t = (s.setFld IMG_PEER_DST_SLOT dst).setFld IMG_PEER_SRC_SLOT src →
      (bitB v.toNat 8 = false → exec (.imgPeerGo v) s = .next t) ∧
      (bitB v.toNat 8 = true → (t.isBooted dst = true ∨ t.bit TDM_CTRL_EN = false ∨ t.tdm.partner.state = 0 ∨ t.tdm.partner.state = 7) →
        exec (.imgPeerGo v) s = .next (({ t with tdm := { t.tdm with peer := none } } : State).setReg IMG_PEER_STAT 4)) ∧
      (∀ u, bitB v.toNat 8 = true → t.isBooted dst = false → t.bit TDM_CTRL_EN = true → t.tdm.partner.state ≠ 0 → t.tdm.partner.state ≠ 7 → u = { t with tdm := { t.tdm with peer := some (dst, src) } } →
        (u.bit TDM_STATUS_PARTNER = true → exec (.imgPeerGo v) s = .next (u.setReg IMG_PEER_STAT 1).wantImage) ∧ (u.bit TDM_STATUS_PARTNER = false → exec (.imgPeerGo v) s = .next (u.setReg IMG_PEER_STAT 2))) ∧
      (bitB v.toNat 9 = true → exec (.imgPeerStop v) s = .next (({ t with tdm := { t.tdm with peer := none } } : State).setFld IMG_PEER_STAT_STATE 0)) ∧
      (bitB v.toNat 9 = false → exec (.imgPeerStop v) s = .next t))

/-- The cue list loads, its cues are submitted, and the Shuset window is read and written under the bridle. In Shuset mode
in NORMAL, unless it was read before, the list is read from its area; one that is refused sets LIST_BAD. While a list
plays, its next cue, once its tick lies within LEAD, is submitted: the cue after it is next, one that is late counts
in LATE, one that fits enters the cue store and is shown. A write to the window that reaches it and that the bridle
permits, of GO without STOP, of STOP, of a changed BLACKOUT, of the master and of a reinstatement word, writes its
register and is answered OK; without the bridle it is denied, and answered NOT_PERMITTED. A read of SHU_EVT takes the
head of queue 0, or denied latches the IDLE item. Nothing else changes. -/
def Obligations.ShusetPlaysItsCues : Prop :=
  (∀ s t : State, s.mode = 2 → s.svc = 1 → s.shu.read = false → t = { s with shu := { s.shu with read := true, list := s.parseCues s.nor.cues } } →
      ((s.parseCues s.nor.cues).isNone = true → exec .cueListLoad s = .next (t.raise SHU_STATUS_LIST_BAD)) ∧ ((s.parseCues s.nor.cues).isNone = false → exec .cueListLoad s = .next t)) ∧
  (∀ (s t : State) (l : CueList) (k x : Nat) (c : StoredCue), s.shu.list = some l → s.shu.next = some (k, x) → l.cues[k]? = some c →
      (s.tickNo + l.lead < x → exec .shuCueSubmit s = .next s) ∧
      (x ≤ s.tickNo + l.lead → t = { s with shu := { s.shu with next := l.after k x c, newest := some x } } →
        (s.cueLate x s.stageTick = true → exec .shuCueSubmit s = .next (t.bump SHU_STATUS_LATE 1)) ∧
        (s.cueLate x s.stageTick = false → s.cueFits l.layer c.recs.length = true → exec .shuCueSubmit s = .next (({ t with shu := { t.shu with shown := s.trimShown ++ [(x, k)] } } : State).holdCue l.layer x c.recs)) ∧
        (s.cueLate x s.stageTick = false → s.cueFits l.layer c.recs.length = false → exec .shuCueSubmit s = .next t))) ∧
  (∀ (p : ShuPort) (v : Word) (s : State), s.shuReaches p = true →
      (s.bridleOk p.index.1 p.index.2 2 = true →
        (bitB v.toNat 0 = true → bitB v.toNat 1 = false → exec (.shuGo p v) s = .next ((s.writeShuCtrl v.toNat).shuReply p SHU_CTRL stOk v.toNat)) ∧
        (bitB v.toNat 1 = true → exec (.shuStop p v) s = .next ((s.writeShuCtrl v.toNat).shuReply p SHU_CTRL stOk v.toNat)) ∧
        (bitB v.toNat 2 ≠ s.bit SHU_CTRL_BLACKOUT → exec (.shuBlackout p v) s = .next ((s.writeShuCtrl v.toNat).shuReply p SHU_CTRL stOk v.toNat)) ∧
        exec (.shuMasterWrite p v) s = .next ((s.writeShuMaster v.toNat).shuReply p SHU_MASTER stOk v.toNat) ∧
        exec (.shuReinst p false v) s = .next ((s.writeShuReinst 0 v.toNat).shuReply p (SHU_REINST 0) stOk v.toNat) ∧
        exec (.shuReinst p true v) s = .next ((s.writeShuReinst 1 v.toNat).shuReply p (SHU_REINST 1) stOk v.toNat)) ∧
      (s.bridleOk p.index.1 p.index.2 2 = false → exec (.shuMasterWrite p v) s = .next ((s.bridleDeny p.index.1 2).shuReply p SHU_MASTER stNotPermitted v.toNat))) ∧
  (∀ (ip : Word) (port : Half) (s t : State), s.shuReaches (.mg0 ip port) = true →
      (s.bridleOk 15 4 7 = true → t = s.readQueue 0 → exec (.shuEvtRead (.mg0 ip port)) s = .next (t.shuReply (.mg0 ip port) (SHU_EVT 0) stOk (leAt (t.queue 0).latched 0 4))) ∧
      (s.bridleOk 15 4 7 = false → t = (s.bridleDeny 15 7).setQueue 0 { (s.bridleDeny 15 7).queue 0 with latched := (s.bridleDeny 15 7).idleItem } →
        exec (.shuEvtRead (.mg0 ip port)) s = .next (t.shuReply (.mg0 ip port) (SHU_EVT 0) stNotPermitted (leAt (t.queue 0).latched 0 4))))

/-- TAP instructions load and drive the balls in TEST alone, and pattern checkers lock there. Test-Logic-Reset loads
IDCODE, whose capture is 0x25120D97; SAMPLE/PRELOAD captures the balls or loads the cells; BYPASS and each code that
the table lacks load BYPASS and capture 0. In TEST, EXTEST, EXTEST_PULSE and EXTEST_TRAIN scan the boundary register,
and CLAMP and HIGHZ capture 0; outside TEST each of the five scans as SAMPLE/PRELOAD does and sets JTAG_BLK. OTP_AUTH0
captures the last result; with go, in TEST, on a free position 0 and with the right check word it programs that
position, result 1, or 3 where the fuses fail; with go otherwise the result is 2; without go nothing more changes.
Nothing else changes. In TEST, a checker whose pattern is selected locks, and LBK_LANE_STAT reads 1; a locked one that
loses its lock adds the errors that it counted, saturating, and LBK_LANE_STAT reads 0. Outside TEST, without a
pattern, or without lock, nothing changes. -/
def Obligations.BoundaryScanAndPatternCheckers : Prop :=
  (∀ s : State, exec .jtagTestLogicReset s = .next { s with test := { s.test with ir := 2 } } ∧ exec .jtagIdcode s = .next { s with test := { s.test with ir := 2, captured := 0x25120D97 } }) ∧
  (∀ (n : Nat) (s : State), exec (.jtagSamplePreload (.capture n)) s = .next { s with test := { s.test with ir := 1, captured := n } } ∧
      exec (.jtagSamplePreload (.update n)) s = .next { s with test := { s.test with ir := 1, cells := n } }) ∧
  (∀ (c : BitVec 6) (s : State), c.toNat ∉ [0, 1, 2, 3, 4, 8, 9, 0x20, 0x21] → exec (.jtagBypass c) s = .next { s with test := { s.test with ir := 0x3F, captured := 0 } }) ∧
  (∀ (n : Nat) (op : BoundaryOp) (s : State), s.svc = 2 →
      exec (.jtagExtest (.capture n)) s = .next { s with test := { s.test with ir := 0, captured := n } } ∧ exec (.jtagExtest (.update n)) s = .next { s with test := { s.test with ir := 0, cells := n } } ∧
      exec (.jtagExtestPulse (.capture n)) s = .next { s with test := { s.test with ir := 8, captured := n } } ∧ exec (.jtagExtestPulse (.update n)) s = .next { s with test := { s.test with ir := 8, cells := n } } ∧
      exec (.jtagExtestTrain (.capture n)) s = .next { s with test := { s.test with ir := 9, captured := n } } ∧ exec (.jtagExtestTrain (.update n)) s = .next { s with test := { s.test with ir := 9, cells := n } } ∧
      exec (.jtagClamp op) s = .next { s with test := { s.test with ir := 3, captured := 0 } } ∧ exec (.jtagHighz op) s = .next { s with test := { s.test with ir := 4, captured := 0 } }) ∧
  (∀ (n : Nat) (s : State), s.svc ≠ 2 →
      exec (.jtagExtest (.capture n)) s = .next (({ s with test := { s.test with ir := 0, captured := n } } : State).raise LBK_STATUS_JTAG_BLK) ∧
      exec (.jtagExtestPulse (.capture n)) s = .next (({ s with test := { s.test with ir := 8, captured := n } } : State).raise LBK_STATUS_JTAG_BLK) ∧
      exec (.jtagExtestTrain (.capture n)) s = .next (({ s with test := { s.test with ir := 9, captured := n } } : State).raise LBK_STATUS_JTAG_BLK) ∧
      exec (.jtagClamp (.capture n)) s = .next (({ s with test := { s.test with ir := 3, captured := n } } : State).raise LBK_STATUS_JTAG_BLK) ∧
      exec (.jtagHighz (.capture n)) s = .next (({ s with test := { s.test with ir := 4, captured := n } } : State).raise LBK_STATUS_JTAG_BLK) ∧
      exec (.jtagExtest (.update n)) s = .next (({ s with test := { s.test with ir := 0, cells := n } } : State).raise LBK_STATUS_JTAG_BLK)) ∧
  (∀ (h : BitVec 384) (c : Word) (ok : Bool) (s t : State), t = { s with test := { s.test with ir := 0x21, captured := s.test.otp } } →
      exec (.jtagOtpAuth0 false h c ok) s = .next t ∧
      ((s.svc ≠ 2 ∨ sget (fun _ => none) s.tkr.positions 0 ≠ none ∨ c.toNat ≠ crc32 (beBytes 48 h.toNat)) → exec (.jtagOtpAuth0 true h c ok) s = .next { t with test := { t.test with otp := 2 } }) ∧
      (∀ u, s.svc = 2 → sget (fun _ => none) s.tkr.positions 0 = none → c.toNat = crc32 (beBytes 48 h.toNat) → u = t.setPosition 0 (beBytes 48 h.toNat) ok →
        exec (.jtagOtpAuth0 true h c ok) s = .next { u with test := { u.test with otp := if ok then 1 else 3 } })) ∧
  (∀ (l : Fin 23) (s : State), s.svc = 2 → lanePattern (s.fld (LBK_LANE_CTRL_CHK_PAT l.val)) ≠ 0 → exec (.prbsCheckerLocked l) s = .next (s.setReg (LBK_LANE_STAT l.val) 1)) ∧
  (∀ (l : Fin 23) (n : Word) (s : State), s.svc = 2 → s.reg (LBK_LANE_STAT l.val) = 1 →
      exec (.prbsCheckerLockLost l n) s = .next ((s.setReg (LBK_LANE_ERR l.val) (min 4294967295 (s.reg (LBK_LANE_ERR l.val) + n.toNat))).setReg (LBK_LANE_STAT l.val) 0)) ∧
  (∀ (l : Fin 23) (n : Word) (s : State), s.svc ≠ 2 → exec (.prbsCheckerLocked l) s = .next s ∧ exec (.prbsCheckerLockLost l n) s = .next s)

/-- REGACC performs one 4-byte BAR0 access, in TEST service or in debug operation alone. In TEST service or in debug
operation, an Update-DR of REGACC at an aligned offset performs the one 4-byte access: a write is the BAR0 write of
that word; a read keeps its data, and the next Capture-DR, of whatever REGACC follows, returns it. In neither, the
access is dropped, and REGACC captures 0 then and at its next capture. What a Capture-DR returns after a write is a
free value (log). -/
def Obligations.RegaccAccessesOneWord : Prop :=
  (∀ (off data counted : Word) (s t : State) (x : State × Nat), (s.svc = 2 ∨ s.bit TKR_STAT_DEBUG = true) → off.toNat % 4 = 0 → t = { s with test := { s.test with ir := 0x20, captured := s.test.regacc } } →
      (x = (t.countErrors off.toNat counted.toNat).readWord off.toNat → exec (.jtagRegacc false off data counted) s = .next { x.1 with test := { x.1.test with regacc := x.2 } }) ∧
      (∃ w : Nat, exec (.jtagRegacc true off data counted) s = .next (({ t with test := { t.test with regacc := w } } : State).drew.writeWord true off.toNat data.toNat))) ∧
  (∀ (off data counted : Word) (s t u : State), (s.svc = 2 ∨ s.bit TKR_STAT_DEBUG = true) → off.toNat % 4 = 0 → u = { s with test := { s.test with ir := 0x20, captured := s.test.regacc } } →
      exec (.jtagRegacc false off data counted) s = .next t → t.test.regacc = ((u.countErrors off.toNat counted.toNat).readWord off.toNat).2 ∧ t.test.captured = s.test.regacc) ∧
  (∀ (w : Bool) (off data counted : Word) (s : State), s.svc ≠ 2 → s.bit TKR_STAT_DEBUG = false →
      exec (.jtagRegacc w off data counted) s = .next { s with test := { s.test with ir := 0x20, regacc := 0, captured := 0 } })
end

