-- ==== Sys2Proof/Laws/Descriptors.lean ====
section
/-! SUPPORT. What the shared flow of a descriptor does with one that passes its checks, and that of a Tandem message with one that is heard. -/

namespace Sys2Proof.Machine

/-- A descriptor that acts: the flow of R119 and R120 runs its effect on what its reservation left. -/
theorem runOp_acts {s u : State} {r op : Nat} {payload : Option (List Byte)} {checks : State → List Byte → OpChecks}
    {reserve : State → Running → List Byte → State} {d : Running} {data : List Byte} (effect : State → Running → List Byte → State)
    (h : s.Acts r op payload checks reserve d data u) : s.runOp r op payload checks reserve effect = effect u d data := by
  obtain ⟨h1, h2, h3, h4, h5, h6, h7⟩ := h
  unfold State.runOp
  rw [h1]
  dsimp only
  unfold State.execute
  rw [h3]
  dsimp only
  rw [h2]
  dsimp only
  rw [h4]
  dsimp only
  unfold State.letIn
  rw [← h5, h6, h7]
  rfl

/-- A descriptor that fails a check before its payload is read: it ends with that status and has no effect. -/
theorem runOp_fails {s : State} {r op st res : Nat} {payload : Option (List Byte)} {checks : State → List Byte → OpChecks}
    {reserve effect : State → Running → List Byte → State} {d : Running} (h1 : s.takeRunning r op = some d)
    (h3 : (s.dropRunning d).firstCheck d (checks (s.dropRunning d) d.bytes) = some (st, res)) :
    s.runOp r op payload checks reserve effect = (s.dropRunning d).failDesc d st res := by
  unfold State.runOp
  rw [h1]
  dsimp only
  unfold State.execute
  rw [h3]

/-- A Tandem message that is heard acts on the state that notes it. -/
theorem receive_hears {s u : State} {h : TdmHead} {typ : Nat} (act : State → State) (hh : s.Hears h typ u) : s.receive h typ act = act u := by
  obtain ⟨h1, h2, h3, w, x, h4, h5, rfl⟩ := hh
  unfold State.receive
  rw [if_neg (by rw [h1, h2]; decide), if_neg (by rw [h3]; decide), h4]
  dsimp only
  rw [h5, if_pos rfl]

end Sys2Proof.Machine
end

