-- ==== Sys2Proof/Laws/Sparse.lean ====
section
/-! SUPPORT. The laws of the canonical sparse stores, and what leaves the invariant of the machine standing. -/

namespace Sys2Proof.Machine

/-- The invariant holds and the queue of waiting commands is `q`: what every meaning keeps. -/
def Good (q : List Instr) (s : State) : Prop := s.pending = q ∧ s.Inv

theorem Good.mk' {q} {s t : State} (h : Good q s) (h1 : t.pending = s.pending) (h2 : t.regs = s.regs) (h3 : t.evq = s.evq) (h4 : t.mem.log = s.mem.log) : Good q t := by
  unfold Good State.Inv at *; rw [h1, h2, h3, h4]; exact h

theorem sabove_sput {α} [DecidableEq α] (d : Nat → α) (k : Nat) (v : α) (j : Nat) (hj : j < k) : ∀ m : Sparse α, sabove j m = true → sabove j (sput d m k v) = true
  | [], _ => by unfold sput; split <;> simp [sabove, hj]
  | (i, w) :: m, h => by
    simp [sabove] at h
    unfold sput
    split
    · split <;> simp [sabove, h, hj]
    · split
      · split <;> simp [sabove, h, hj]
      · simp [sabove, h, sabove_sput d k v j hj m h.2]
theorem sabove_mono {α} {i j : Nat} (hij : i < j) : ∀ m : Sparse α, sabove j m = true → sabove i m = true
  | [], _ => rfl
  | (k, w) :: m, h => by
    simp [sabove] at *; exact ⟨by omega, sabove_mono hij m h.2⟩
theorem swf_sput {α} [DecidableEq α] (d : Nat → α) (k : Nat) (v : α) : ∀ m : Sparse α, swf d m = true → swf d (sput d m k v) = true
  | [], _ => by unfold sput; split <;> simp_all [swf, sabove]
  | (i, w) :: m, h => by
    simp [swf] at h
    unfold sput
    split
    · split
      · simp [swf, h]
      · simp_all [swf, sabove]
        exact sabove_mono (by omega) m h.1.1
    · split
      · split
        · simp [h]
        · simp_all [swf, sabove]
      · have := swf_sput d k v m h.2
        simp_all [swf, sabove_sput d k v i (by omega) m h.1.1]
theorem sget_above {α} (d : Nat → α) : ∀ (m : Sparse α) (k : Nat), sabove k m = true → sget d m k = d k
  | [], _, _ => rfl
  | (j, w) :: m, k, h => by
    simp [sabove] at h
    have : k ≠ j := by omega
    simp [sget, this, sget_above d m k h.2]
theorem sget_sput_ne {α} [DecidableEq α] (d : Nat → α) (k j : Nat) (v : α) (hne : j ≠ k) : ∀ m : Sparse α, sget d (sput d m k v) j = sget d m j
  | [] => by unfold sput; split <;> simp [sget, hne]
  | (i, w) :: m => by
    unfold sput
    split
    · split <;> simp [sget, hne]
    · split
      · rename_i h; subst h; split <;> simp [sget, hne]
      · simp [sget, sget_sput_ne d k j v hne m]
theorem sget_sput_self {α} [DecidableEq α] (d : Nat → α) (k : Nat) (v : α) : ∀ m : Sparse α, swf d m = true → sget d (sput d m k v) k = v
  | [], _ => by unfold sput; split <;> simp_all [sget]
  | (i, w) :: m, h => by
    simp [swf] at h
    unfold sput
    split
    · split
      · rename_i h1 h2
        have : k ≠ i := by omega
        simp [sget, this, h2, sget_above d m k (sabove_mono h1 m h.1.1)]
      · simp [sget]
    · split
      · rename_i h1 h2; subst h2; split
        · rename_i h3; simp [h3, sget_above d m k h.1.1]
        · simp [sget]
      · rename_i h1 h2
        simp [sget, h2, sget_sput_self d k v m h.2]
theorem mem_sput {α} [DecidableEq α] (d : Nat → α) (k : Nat) (v : α) (p : Nat × α) : ∀ m : Sparse α, p ∈ sput d m k v → p ∈ m ∨ p = (k, v)
  | [], h => by unfold sput at h; split at h <;> simp_all
  | (i, w) :: m, h => by
    unfold sput at h
    split at h
    · split at h <;> simp_all; tauto
    · split at h
      · split at h <;> simp_all; tauto
      · simp at h
        rcases h with h | h
        · simp [h]
        · have := mem_sput d k v p m h
          simp; tauto
theorem sget_mem {α} (d : Nat → α) (k : Nat) : ∀ m : Sparse α, sget d m k = d k ∨ (k, sget d m k) ∈ m
  | [] => .inl rfl
  | (i, w) :: m => by
    unfold sget
    split
    · rename_i h; subst h; simp
    · have := sget_mem d k m
      simp; tauto
theorem keeps_setQueue {q} (s : State) (e : Nat) (x : EventQueue) (hx : x.items.length ≤ queueSize) (h : Good q s) : Good q (s.setQueue e x) := by
  obtain ⟨h1, h2, h3, h4⟩ := h
  refine ⟨h1, h2, ?_, h4⟩
  intro p hp
  rcases mem_sput _ _ _ _ _ hp with hp | hp
  · exact h3 p hp
  · subst hp; exact hx
theorem queue_le {q} (s : State) (e : Nat) (h : Good q s) : (s.queue e).items.length ≤ queueSize := by
  obtain ⟨h1, h2, h3, h4⟩ := h
  rcases sget_mem queueDflt e s.evq with h | h
  · unfold State.queue; rw [h]; exact Nat.zero_le _
  · exact h3 _ h
theorem keeps_setReg {q} (s : State) (o v : Nat) (h : Good q s) : Good q (s.setReg o v) := by
  obtain ⟨h1, h2, h3, h4⟩ := h
  exact ⟨h1, swf_sput _ _ _ _ h2, h3, h4⟩
/-- A record update that leaves the register file, the event queues, the error log and the queue alone. -/
theorem keeps_mk {pq} (s : State) (readLatch : Sparse Word) (writeLatch : List (Nat × Word)) (timeLatch : Sparse Word) (staged : List Staged) (tb : Timebase) (tick : TickUnit) (hif : HostIf) (denyNotice : Option Nat) (fe : FrameEngine) (crb : Governor) (tdm : Tandem) (mem : Integrity) (tkr : TackRoom) (tm : Egress) (drv : DriveEngine) (php : PhasePlanner) (tlm : Concentrator) (mtr : Metering) (far : Calibration) (nor : NorData) (img : Images) (pwr : Power) (test : TestAccess) (shu : Shuset) (drawn : Nat) (out : List Output) (hm : mem.log = s.mem.log) (h : Good pq s) :
    Good pq (State.mk s.regs readLatch writeLatch timeLatch staged tb tick hif s.evq denyNotice fe crb tdm mem tkr tm drv php tlm mtr far nor img pwr test shu drawn out s.pending) := by
  unfold Good State.Inv at *; rw [hm]; exact h
theorem keeps_foldl {q} {α} (g : State → α → State) (l : List α) (s : State) (hg : ∀ s x, Good q s → Good q (g s x)) (h : Good q s) : Good q (l.foldl g s) := by
  induction l generalizing s with
  | nil => exact h
  | cons x l ih => exact ih _ (hg s x h)
theorem keeps_ite {pq} (c : Prop) [Decidable c] (a b : State) (ha : Good pq a) (hb : Good pq b) : Good pq (if c then a else b) := by
  split
  · exact ha
  · exact hb
theorem keeps_foldl_pair {pq} {α β} (g : State × β → α → State × β) (l : List α) (a : State × β) (hg : ∀ a x, Good pq a.1 → Good pq (g a x).1) (h : Good pq a.1) : Good pq (l.foldl g a).1 := by
  induction l generalizing a with
  | nil => exact h
  | cons x l ih => exact ih _ (hg a x h)
theorem keeps_log {pq} (s : State) (l : List ErrRecord) (hl : l.length ≤ 64) (h : Good pq s) : Good pq { s with mem := { s.mem with log := l } } :=
  ⟨h.1, h.2.1, h.2.2.1, hl⟩
theorem log_le {pq} (s : State) (h : Good pq s) : s.mem.log.length ≤ 64 := h.2.2.2
end Sys2Proof.Machine
end

