-- ==== Sys2Proof/Laws/KeepsOps.lean ====
section
/-! SUPPORT. Every operation of Ops.lean keeps the invariant and leaves the queue of commands alone. -/

namespace Sys2Proof.Machine
theorem keeps_setFld {pq} (s : State) (x : Fld) (v : Nat) (gd_s : Good pq s) : Good pq (State.setFld s x v) := by
  unfold State.setFld
  try dsimp only
  repeat' with_reducible first
    | assumption
    | rfl
    | apply keeps_setReg
theorem keeps_raise {pq} (s : State) (x : Fld) (gd_s : Good pq s) : Good pq (State.raise s x) := by
  unfold State.raise
  try dsimp only
  repeat' with_reducible first
    | assumption
    | rfl
    | apply keeps_setFld
theorem keeps_clear {pq} (s : State) (x : Fld) (gd_s : Good pq s) : Good pq (State.clear s x) := by
  unfold State.clear
  try dsimp only
  repeat' with_reducible first
    | assumption
    | rfl
    | apply keeps_setFld
theorem keeps_bump {pq} (s : State) (x : Fld) (n : Nat) (gd_s : Good pq s) : Good pq (State.bump s x n) := by
  unfold State.bump
  try dsimp only
  repeat' with_reducible first
    | assumption
    | rfl
    | apply keeps_setFld
theorem keeps_bumpReg {pq} (s : State) (off : Nat) (n : Nat) (gd_s : Good pq s) : Good pq (State.bumpReg s off n) := by
  unfold State.bumpReg
  try dsimp only
  repeat' with_reducible first
    | assumption
    | rfl
    | apply keeps_setReg
theorem keeps_setReg64 {pq} (s : State) (off : Nat) (v : Nat) (gd_s : Good pq s) : Good pq (State.setReg64 s off v) := by
  unfold State.setReg64
  try dsimp only
  repeat' with_reducible first
    | assumption
    | rfl
    | apply keeps_setReg
theorem keeps_drew {pq} (s : State) (gd_s : Good pq s) : Good pq (State.drew s) := by
  unfold State.drew
  try dsimp only
  repeat' with_reducible first
    | assumption
    | rfl
    | apply keeps_ite
    | split
    | intro _
    | apply keeps_mk
theorem keeps_onBlock {pq} (s : State) (off : Nat) (t : State) (gd_s : Good pq s) (gd_t : Good pq t) : Good pq (State.onBlock s off t) := by
  unfold State.onBlock
  try dsimp only
  repeat' with_reducible first
    | assumption
    | rfl
    | apply keeps_raise
    | apply keeps_ite
    | split
theorem keeps_runTo {pq} (s : State) (target : Nat) (gd_s : Good pq s) : Good pq (State.runTo s target) := by
  unfold State.runTo
  try dsimp only
  repeat' with_reducible first
    | assumption
    | rfl
    | apply keeps_ite
    | split
    | intro _
    | apply keeps_mk
theorem keeps_emit {pq} (s : State) (o : Output) (gd_s : Good pq s) : Good pq (State.emit s o) := by
  unfold State.emit
  try dsimp only
  repeat' with_reducible first
    | assumption
    | rfl
    | apply keeps_ite
    | split
    | intro _
    | apply keeps_mk
theorem keeps_onRead {pq} (s : State) (off : Nat) (t : State) (v : Nat) (gd_s : Good pq s) (gd_t : Good pq t) : Good pq (State.onRead s off t v) := by
  unfold State.onRead
  try dsimp only
  repeat' with_reducible first
    | assumption
    | rfl
    | apply keeps_emit
    | apply keeps_raise
    | apply keeps_ite
    | split
theorem keeps_overwrite {pq} (s : State) (e : Nat) (x : EventQueue) (ev : Event) (hx : x.items.length ≤ queueSize) (gd_s : Good pq s) :
    Good pq (s.overwrite e x ev) := by
  have hn : ∀ old rest, x.items = old :: rest → (rest ++ [ev]).length ≤ queueSize := by
    intro old rest h; rw [h] at hx; simpa using hx
  unfold State.overwrite
  split
  · exact gd_s
  · rename_i old rest h
    split
    · exact keeps_setQueue _ _ _ (hn _ _ h) gd_s
    · exact keeps_bumpReg _ _ _ (keeps_setQueue _ _ _ (hn _ _ h) gd_s)
theorem keeps_offer {pq} (s : State) (e : Nat) (ev : Event) (gd_s : Good pq s) : Good pq (State.offer s e ev) := by
  have hq := queue_le s e gd_s
  unfold State.offer
  dsimp only
  split
  · rename_i h
    exact keeps_setQueue _ _ _ (by simp; omega) gd_s
  · split
    · exact keeps_bumpReg _ _ _ (keeps_setQueue _ _ _ hq gd_s)
    · exact keeps_overwrite _ _ _ _ hq gd_s
theorem keeps_removeHead {pq} (s : State) (e : Nat) (gd_s : Good pq s) : Good pq (State.removeHead s e) := by
  have hq := queue_le s e gd_s
  unfold State.removeHead
  dsimp only
  split
  · exact gd_s
  · rename_i old rest h
    rw [h] at hq
    split
    · exact keeps_setQueue _ _ _ (by simp at hq ⊢; omega) gd_s
    · exact keeps_setQueue _ _ _ (by simpa using hq) gd_s
theorem keeps_post {pq} (s : State) (ev : Event) (gd_s : Good pq s) : Good pq (State.post s ev) := by
  unfold State.post
  try dsimp only
  repeat' with_reducible first
    | assumption
    | rfl
    | apply keeps_offer
    | apply keeps_ite
theorem keeps_postNow {pq} (s : State) (typ : Nat) (kind : Nat) (idx : Nat) (fs : List (Nat × Nat × Nat)) (gd_s : Good pq s) : Good pq (State.postNow s typ kind idx fs) := by
  unfold State.postNow
  try dsimp only
  repeat' with_reducible first
    | assumption
    | rfl
    | apply keeps_post
theorem keeps_sendVec {pq} (s : State) (v : Nat) (gd_s : Good pq s) : Good pq (State.sendVec s v) := by
  unfold State.sendVec
  try dsimp only
  repeat' with_reducible first
    | assumption
    | rfl
    | apply keeps_emit
theorem keeps_signal {pq} (s : State) (f : Nat) (v : Nat) (gd_s : Good pq s) : Good pq (State.signal s f v) := by
  unfold State.signal
  try dsimp only
  repeat' with_reducible first
    | assumption
    | rfl
    | apply keeps_ite
    | split
    | intro _
    | apply keeps_mk
theorem keeps_source {pq} (s : State) (k : Nat) (v : Nat) (gd_s : Good pq s) : Good pq (State.source s k v) := by
  unfold State.source
  try dsimp only
  repeat' with_reducible first
    | assumption
    | rfl
    | apply keeps_signal
    | apply keeps_ite
theorem keeps_denyEvent {pq} (s : State) (i : Nat) (b : Nat) (gd_s : Good pq s) : Good pq (State.denyEvent s i b) := by
  unfold State.denyEvent
  try dsimp only
  repeat' with_reducible first
    | assumption
    | rfl
    | apply keeps_postNow
    | apply keeps_ite
    | split
    | intro _
    | apply keeps_mk
theorem keeps_bridleDeny {pq} (s : State) (i : Nat) (b : Nat) (gd_s : Good pq s) : Good pq (State.bridleDeny s i b) := by
  unfold State.bridleDeny
  try dsimp only
  repeat' with_reducible first
    | assumption
    | rfl
    | apply keeps_bumpReg
    | apply keeps_denyEvent
    | apply keeps_setFld
end Sys2Proof.Machine
end

