-- ==== Sys2Proof/Laws/KeepsLink.lean ====
section
/-! SUPPORT. Every operation of Link.lean keeps the invariant and leaves the queue of commands alone. -/

namespace Sys2Proof.Machine
theorem keeps_setSlot {pq} (s : State) (i : Nat) (x : KeySlot) (gd_s : Good pq s) : Good pq (State.setSlot s i x) := by
  unfold State.setSlot
  try dsimp only
  repeat' with_reducible first
    | assumption
    | rfl
    | apply keeps_ite
    | split
    | intro _
    | apply keeps_mk
theorem keeps_sendOn {pq} (s : State) (k : Nat) (m : TdmMsg) (gd_s : Good pq s) : Good pq (State.sendOn s k m) := by
  unfold State.sendOn
  try dsimp only
  repeat' with_reducible first
    | assumption
    | rfl
    | apply keeps_emit
    | apply keeps_ite
    | split
    | intro _
    | apply keeps_mk
theorem keeps_sendTdm {pq} (s : State) (m : TdmMsg) (gd_s : Good pq s) : Good pq (State.sendTdm s m) := by
  unfold State.sendTdm
  try dsimp only
  repeat' with_reducible first
    | assumption
    | rfl
    | apply keeps_sendOn
    | apply keeps_ite
end Sys2Proof.Machine
end

