-- ==== Sys2Proof/Laws/KeepsTimebase.lean ====
section
/-! SUPPORT. Every operation of Timebase.lean keeps the invariant and leaves the queue of commands alone. -/

namespace Sys2Proof.Machine
theorem keeps_postTime {pq} (s : State) (typ : Nat) (b16 : Nat) (b17 : Nat) (gd_s : Good pq s) : Good pq (State.postTime s typ b16 b17) := by
  unfold State.postTime
  try dsimp only
  repeat' with_reducible first
    | assumption
    | rfl
    | apply keeps_postNow
theorem keeps_dropSlew {pq} (s : State) (gd_s : Good pq s) : Good pq (State.dropSlew s) := by
  unfold State.dropSlew
  try dsimp only
  repeat' with_reducible first
    | assumption
    | rfl
    | apply keeps_ite
    | split
    | intro _
    | apply keeps_mk
theorem keeps_enterHoldover {pq} (s : State) (cause : Nat) (gd_s : Good pq s) : Good pq (State.enterHoldover s cause) := by
  unfold State.enterHoldover
  try dsimp only
  repeat' with_reducible first
    | assumption
    | rfl
    | apply keeps_clear
    | apply keeps_dropSlew
    | apply keeps_postTime
    | apply keeps_setFld
    | apply keeps_ite
    | split
    | intro _
    | apply keeps_mk
theorem keeps_writeTrack {pq} (s : State) (v : Bool) (gd_s : Good pq s) : Good pq (State.writeTrack s v) := by
  unfold State.writeTrack
  try dsimp only
  repeat' with_reducible first
    | assumption
    | rfl
    | apply keeps_clear
    | apply keeps_dropSlew
    | apply keeps_raise
    | apply keeps_setFld
    | apply keeps_ite
theorem keeps_writeHoExit {pq} (s : State) (gd_s : Good pq s) : Good pq (State.writeHoExit s) := by
  unfold State.writeHoExit
  try dsimp only
  repeat' with_reducible first
    | assumption
    | rfl
    | apply keeps_setFld
    | apply keeps_ite
theorem keeps_writeLock {pq} (s : State) (v : Bool) (gd_s : Good pq s) : Good pq (State.writeLock s v) := by
  unfold State.writeLock
  try dsimp only
  repeat' with_reducible first
    | assumption
    | rfl
    | apply keeps_clear
    | apply keeps_postTime
    | apply keeps_raise
    | apply keeps_setFld
    | apply keeps_ite
theorem keeps_ownerFields {pq} (s : State) (v : Nat) (gd_s : Good pq s) : Good pq (State.ownerFields s v) := by
  unfold State.ownerFields
  try dsimp only
  repeat' with_reducible first
    | assumption
    | rfl
    | apply keeps_setFld
    | apply keeps_writeHoExit
    | apply keeps_writeLock
    | apply keeps_writeTrack
    | apply keeps_ite
theorem keeps_writeTbCtrl {pq} (s : State) (p : Party) (v : Nat) (gd_s : Good pq s) : Good pq (State.writeTbCtrl s p v) := by
  unfold State.writeTbCtrl
  try dsimp only
  repeat' with_reducible first
    | assumption
    | rfl
    | apply keeps_ownerFields
    | apply keeps_raise
    | apply keeps_setFld
    | apply keeps_ite
theorem keeps_servoDrop {pq} (s : State) (p : Party) (gd_s : Good pq s) (t9 : State) (ht : State.servoDrop s p = some t9) : Good pq t9 := by
  grind [State.servoDrop, keeps_raise]
theorem keeps_writeIncr {pq} (s : State) (p : Party) (v : Nat) (gd_s : Good pq s) : Good pq (State.writeIncr s p v) := by
  unfold State.writeIncr
  try dsimp only
  repeat' with_reducible first
    | assumption
    | rfl
    | exact keeps_servoDrop (gd_s := by assumption) (ht := by assumption) ..
    | apply keeps_raise
    | apply keeps_setReg64
    | apply keeps_ite
    | split
    | intro _
    | apply keeps_mk
theorem keeps_writeAdj {pq} (s : State) (p : Party) (v : Nat) (gd_s : Good pq s) : Good pq (State.writeAdj s p v) := by
  unfold State.writeAdj
  try dsimp only
  repeat' with_reducible first
    | assumption
    | rfl
    | exact keeps_servoDrop (gd_s := by assumption) (ht := by assumption) ..
    | apply keeps_ite
    | split
    | intro _
    | apply keeps_mk
theorem keeps_writeStep {pq} (s : State) (p : Party) (v : Nat) (gd_s : Good pq s) : Good pq (State.writeStep s p v) := by
  unfold State.writeStep
  try dsimp only
  repeat' with_reducible first
    | assumption
    | rfl
    | exact keeps_servoDrop (gd_s := by assumption) (ht := by assumption) ..
    | apply keeps_raise
    | apply keeps_ite
    | split
    | intro _
    | apply keeps_mk
theorem keeps_snapshot {pq} (s : State) (gd_s : Good pq s) : Good pq (State.snapshot s) := by
  unfold State.snapshot
  try dsimp only
  repeat' with_reducible first
    | assumption
    | rfl
    | apply keeps_setReg
theorem keeps_writePtp {pq} (s : State) (intv : Bool) (v : Nat) (gd_s : Good pq s) : Good pq (State.writePtp s intv v) := by
  unfold State.writePtp
  try dsimp only
  repeat' with_reducible first
    | assumption
    | rfl
    | apply keeps_enterHoldover
    | apply keeps_setReg
    | apply keeps_ite
theorem keeps_sourceLoss {pq} (s : State) (src : Nat) (flag : Fld) (cause : Nat) (gd_s : Good pq s) : Good pq (State.sourceLoss s src flag cause) := by
  unfold State.sourceLoss
  try dsimp only
  repeat' with_reducible first
    | assumption
    | rfl
    | apply keeps_enterHoldover
    | apply keeps_raise
    | apply keeps_ite
theorem keeps_queueStamp {pq} (s : State) (w : Nat) (t : Nat) (gd_s : Good pq s) : Good pq (State.queueStamp s w t) := by
  unfold State.queueStamp
  try dsimp only
  repeat' with_reducible first
    | assumption
    | rfl
    | apply keeps_bumpReg
    | apply keeps_ite
    | split
    | intro _
    | apply keeps_mk
theorem keeps_announce {pq} (s : State) (gm : Nat) (log : Int) (gd_s : Good pq s) : Good pq (State.announce s gm log) := by
  unfold State.announce
  try dsimp only
  repeat' with_reducible first
    | assumption
    | rfl
    | apply keeps_sourceLoss
    | apply keeps_ite
    | split
    | intro _
    | apply keeps_mk
theorem keeps_timeSample {pq} (s : State) (rx : Nat) (ofs : Nat) (delay : Nat) (gd_s : Good pq s) : Good pq (State.timeSample s rx ofs delay) := by
  unfold State.timeSample
  try dsimp only
  repeat' with_reducible first
    | assumption
    | rfl
    | apply keeps_post
    | apply keeps_ite
theorem keeps_ptpReceive {pq} (s : State) (w : Nat) (m : PtpMessage) (gd_s : Good pq s) : Good pq (State.ptpReceive s w m) := by
  unfold State.ptpReceive
  try dsimp only
  repeat' with_reducible first
    | assumption
    | rfl
    | apply keeps_announce
    | apply keeps_queueStamp
    | apply keeps_timeSample
    | apply keeps_ite
    | split
    | intro _
    | apply keeps_mk
theorem keeps_ptpTransmit {pq} (s : State) (w : Nat) (kind : PtpTransmit) (body : List Byte) (gd_s : Good pq s) : Good pq (State.ptpTransmit s w kind body) := by
  unfold State.ptpTransmit
  try dsimp only
  repeat' with_reducible first
    | assumption
    | rfl
    | apply keeps_emit
    | apply keeps_queueStamp
    | apply keeps_ite
theorem keeps_ppsRise {pq} (s : State) (gd_s : Good pq s) : Good pq (State.ppsRise s) := by
  unfold State.ppsRise
  try dsimp only
  repeat' with_reducible first
    | assumption
    | rfl
    | apply keeps_runTo
    | apply keeps_ite
    | split
    | intro _
    | apply keeps_mk
theorem keeps_ppsDrop {pq} (s : State) (gd_s : Good pq s) : Good pq (State.ppsDrop s) := by
  unfold State.ppsDrop
  try dsimp only
  repeat' with_reducible first
    | assumption
    | rfl
    | apply keeps_runTo
    | apply keeps_ite
    | split
    | intro _
    | apply keeps_mk
theorem keeps_writePps {pq} (s : State) (v : Nat) (gd_s : Good pq s) : Good pq (State.writePps s v) := by
  unfold State.writePps
  try dsimp only
  repeat' with_reducible first
    | assumption
    | rfl
    | apply keeps_setReg
    | apply keeps_ite
    | split
    | intro _
    | apply keeps_mk
theorem keeps_ppsEdge {pq} (s : State) (falling : Bool) (pulseNs : Nat) (gd_s : Good pq s) : Good pq (State.ppsEdge s falling pulseNs) := by
  unfold State.ppsEdge
  try dsimp only
  repeat' with_reducible first
    | assumption
    | rfl
    | apply keeps_raise
    | apply keeps_setReg
    | apply keeps_ite
theorem keeps_slewEnd {pq} (s : State) (gd_s : Good pq s) : Good pq (State.slewEnd s) := by
  unfold State.slewEnd
  try dsimp only
  repeat' with_reducible first
    | assumption
    | rfl
    | apply keeps_ite
    | split
    | intro _
    | apply keeps_mk
theorem keeps_latchRegs {pq} (s : State) (offs : List Nat) (gd_s : Good pq s) : Good pq (State.latchRegs s offs) := by
  unfold State.latchRegs
  try dsimp only
  repeat' with_reducible first
    | assumption
    | rfl
    | refine keeps_foldl _ _ _ (fun _ _ _ => ?_) ?_
    | apply keeps_ite
    | split
    | intro _
    | apply keeps_mk
theorem keeps_execTbTrackSet {pq} (p : Party) (s : State) (gd_s : Good pq s) (t9 : State) (ht : execTbTrackSet p s = .next t9) : Good pq t9 := by
  simp only [execTbTrackSet] at ht
  cases ht
  repeat' with_reducible first
    | assumption
    | rfl
    | apply keeps_writeTbCtrl
theorem keeps_execTbTrackClear {pq} (p : Party) (s : State) (gd_s : Good pq s) (t9 : State) (ht : execTbTrackClear p s = .next t9) : Good pq t9 := by
  simp only [execTbTrackClear] at ht
  cases ht
  repeat' with_reducible first
    | assumption
    | rfl
    | apply keeps_writeTbCtrl
theorem keeps_execTbLockSet {pq} (p : Party) (s : State) (gd_s : Good pq s) (t9 : State) (ht : execTbLockSet p s = .next t9) : Good pq t9 := by
  simp only [execTbLockSet] at ht
  cases ht
  repeat' with_reducible first
    | assumption
    | rfl
    | apply keeps_writeTbCtrl
theorem keeps_execTbLockClear {pq} (p : Party) (s : State) (gd_s : Good pq s) (t9 : State) (ht : execTbLockClear p s = .next t9) : Good pq t9 := by
  simp only [execTbLockClear] at ht
  cases ht
  repeat' with_reducible first
    | assumption
    | rfl
    | apply keeps_writeTbCtrl
theorem keeps_execTbHoExit {pq} (p : Party) (s : State) (gd_s : Good pq s) (t9 : State) (ht : execTbHoExit p s = .next t9) : Good pq t9 := by
  simp only [execTbHoExit] at ht
  cases ht
  repeat' with_reducible first
    | assumption
    | rfl
    | apply keeps_writeTbCtrl
theorem keeps_execTbServoChange {pq} (p : Party) (hostOwns : Bool) (s : State) (gd_s : Good pq s) (t9 : State) (ht : execTbServoChange p hostOwns s = .next t9) : Good pq t9 := by
  simp only [execTbServoChange] at ht
  cases ht
  repeat' with_reducible first
    | assumption
    | rfl
    | apply keeps_writeTbCtrl
theorem keeps_execTbIncrCommit {pq} (p : Party) (v : DWord) (s : State) (gd_s : Good pq s) (t9 : State) (ht : execTbIncrCommit p v s = .next t9) : Good pq t9 := by
  simp only [execTbIncrCommit] at ht
  cases ht
  repeat' with_reducible first
    | assumption
    | rfl
    | apply keeps_writeIncr
theorem keeps_execTbAdj {pq} (p : Party) (v : Word) (s : State) (gd_s : Good pq s) (t9 : State) (ht : execTbAdj p v s = .next t9) : Good pq t9 := by
  simp only [execTbAdj] at ht
  cases ht
  repeat' with_reducible first
    | assumption
    | rfl
    | apply keeps_writeAdj
theorem keeps_execTbStepCommit {pq} (p : Party) (v : DWord) (s : State) (gd_s : Good pq s) (t9 : State) (ht : execTbStepCommit p v s = .next t9) : Good pq t9 := by
  simp only [execTbStepCommit] at ht
  cases ht
  repeat' with_reducible first
    | assumption
    | rfl
    | apply keeps_writeStep
theorem keeps_execTbSnapshot {pq} (v : Word) (s : State) (gd_s : Good pq s) (t9 : State) (ht : execTbSnapshot v s = .next t9) : Good pq t9 := by
  simp only [execTbSnapshot] at ht
  cases ht
  repeat' with_reducible first
    | assumption
    | rfl
    | apply keeps_snapshot
    | apply keeps_ite
theorem keeps_execTbPtpCfgWrite {pq} (intv : Bool) (v : Word) (s : State) (gd_s : Good pq s) (t9 : State) (ht : execTbPtpCfgWrite intv v s = .next t9) : Good pq t9 := by
  simp only [execTbPtpCfgWrite] at ht
  cases ht
  repeat' with_reducible first
    | assumption
    | rfl
    | apply keeps_writePtp
theorem keeps_execTbGmIdWrite {pq} (id : DWord) (s : State) (gd_s : Good pq s) (t9 : State) (ht : execTbGmIdWrite id s = .next t9) : Good pq t9 := by
  simp only [execTbGmIdWrite] at ht
  cases ht
  repeat' with_reducible first
    | assumption
    | rfl
    | apply keeps_setReg64
theorem keeps_execAnnounceTimeout {pq} (s : State) (gd_s : Good pq s) (t9 : State) (ht : execAnnounceTimeout s = .next t9) : Good pq t9 := by
  simp only [execAnnounceTimeout] at ht
  cases ht
  repeat' with_reducible first
    | assumption
    | rfl
    | apply keeps_sourceLoss
theorem keeps_execSyncTimeout {pq} (s : State) (gd_s : Good pq s) (t9 : State) (ht : execSyncTimeout s = .next t9) : Good pq t9 := by
  simp only [execSyncTimeout] at ht
  cases ht
  repeat' with_reducible first
    | assumption
    | rfl
    | apply keeps_sourceLoss
theorem keeps_execPpsLossTimeout {pq} (s : State) (gd_s : Good pq s) (t9 : State) (ht : execPpsLossTimeout s = .next t9) : Good pq t9 := by
  simp only [execPpsLossTimeout] at ht
  cases ht
  repeat' with_reducible first
    | assumption
    | rfl
    | apply keeps_sourceLoss
theorem keeps_execPtpMessageReceive {pq} (w : Fin 15) (m : PtpMessage) (s : State) (gd_s : Good pq s) (t9 : State) (ht : execPtpMessageReceive w m s = .next t9) : Good pq t9 := by
  simp only [execPtpMessageReceive] at ht
  cases ht
  repeat' with_reducible first
    | assumption
    | rfl
    | apply keeps_ptpReceive
theorem keeps_execPtpEventTransmit {pq} (w : Fin 15) (kind : PtpTransmit) (body : List Byte) (s : State) (gd_s : Good pq s) (t9 : State) (ht : execPtpEventTransmit w kind body s = .next t9) : Good pq t9 := by
  simp only [execPtpEventTransmit] at ht
  cases ht
  repeat' with_reducible first
    | assumption
    | rfl
    | apply keeps_ptpTransmit
theorem keeps_execPpsOutEdge {pq} (s : State) (gd_s : Good pq s) (t9 : State) (ht : execPpsOutEdge s = .next t9) : Good pq t9 := by
  simp only [execPpsOutEdge] at ht
  cases ht
  repeat' with_reducible first
    | assumption
    | rfl
    | apply keeps_ppsRise
theorem keeps_execPpsOutPulseEnd {pq} (s : State) (gd_s : Good pq s) (t9 : State) (ht : execPpsOutPulseEnd s = .next t9) : Good pq t9 := by
  simp only [execPpsOutPulseEnd] at ht
  cases ht
  repeat' with_reducible first
    | assumption
    | rfl
    | apply keeps_ppsDrop
theorem keeps_execPpsInEdge {pq} (falling : Bool) (pulseNs : Word) (s : State) (gd_s : Good pq s) (t9 : State) (ht : execPpsInEdge falling pulseNs s = .next t9) : Good pq t9 := by
  simp only [execPpsInEdge] at ht
  cases ht
  repeat' with_reducible first
    | assumption
    | rfl
    | apply keeps_ppsEdge
theorem keeps_execSlewComplete {pq} (s : State) (gd_s : Good pq s) (t9 : State) (ht : execSlewComplete s = .next t9) : Good pq t9 := by
  simp only [execSlewComplete] at ht
  cases ht
  repeat' with_reducible first
    | assumption
    | rfl
    | apply keeps_slewEnd
theorem keeps_execTimeCaptureRead {pq} (c : TimeCapture) (s : State) (gd_s : Good pq s) (t9 : State) (ht : execTimeCaptureRead c s = .next t9) : Good pq t9 := by
  simp only [execTimeCaptureRead] at ht
  cases ht
  repeat' with_reducible first
    | assumption
    | rfl
    | apply keeps_latchRegs
    | apply keeps_onRead
end Sys2Proof.Machine
end

