-- ==== Sys2Proof/Laws/KeepsRings.lean ====
section
/-! SUPPORT. Every operation of Rings.lean keeps the invariant and leaves the queue of commands alone. -/

namespace Sys2Proof.Machine
theorem keeps_setSq {pq} (s : State) (i : Nat) (r : SubRing) (gd_s : Good pq s) : Good pq (State.setSq s i r) := by
  unfold State.setSq
  try dsimp only
  repeat' with_reducible first
    | assumption
    | rfl
    | apply keeps_ite
    | split
    | intro _
    | apply keeps_mk
theorem keeps_setCq {pq} (s : State) (c : Nat) (r : OutRing) (gd_s : Good pq s) : Good pq (State.setCq s c r) := by
  unfold State.setCq
  try dsimp only
  repeat' with_reducible first
    | assumption
    | rfl
    | apply keeps_ite
    | split
    | intro _
    | apply keeps_mk
theorem keeps_setEq {pq} (s : State) (e : Nat) (r : OutRing) (gd_s : Good pq s) : Good pq (State.setEq s e r) := by
  unfold State.setEq
  try dsimp only
  repeat' with_reducible first
    | assumption
    | rfl
    | apply keeps_ite
    | split
    | intro _
    | apply keeps_mk
theorem keeps_discardSq {pq} (s : State) (i : Nat) (gd_s : Good pq s) : Good pq (State.discardSq s i) := by
  unfold State.discardSq
  try dsimp only
  repeat' with_reducible first
    | assumption
    | rfl
    | apply keeps_setSq
theorem keeps_ringError {pq} (s : State) (kind : Nat) (ring : Nat) (cause : Nat) (index : Nat) (gd_s : Good pq s) : Good pq (State.ringError s kind ring cause index) := by
  unfold State.ringError
  try dsimp only
  repeat' with_reducible first
    | assumption
    | rfl
    | apply keeps_offer
    | apply keeps_sendVec
theorem keeps_stopSq {pq} (s : State) (i : Nat) (cause : Nat) (index : Nat) (gd_s : Good pq s) : Good pq (State.stopSq s i cause index) := by
  unfold State.stopSq
  try dsimp only
  repeat' with_reducible first
    | assumption
    | rfl
    | apply keeps_discardSq
    | apply keeps_ringError
    | apply keeps_setFld
theorem keeps_stopCq {pq} (s : State) (c : Nat) (cause : Nat) (index : Nat) (gd_s : Good pq s) : Good pq (State.stopCq s c cause index) := by
  unfold State.stopCq
  try dsimp only
  repeat' with_reducible first
    | assumption
    | rfl
    | apply keeps_ringError
    | apply keeps_setFld
theorem keeps_stopEq {pq} (s : State) (e : Nat) (cause : Nat) (index : Nat) (gd_s : Good pq s) : Good pq (State.stopEq s e cause index) := by
  unfold State.stopEq
  try dsimp only
  repeat' with_reducible first
    | assumption
    | rfl
    | apply keeps_ringError
    | apply keeps_setFld
theorem keeps_writeSqCtrl {pq} (s : State) (i : Nat) (v : Nat) (gd_s : Good pq s) : Good pq (State.writeSqCtrl s i v) := by
  unfold State.writeSqCtrl
  try dsimp only
  repeat' with_reducible first
    | assumption
    | rfl
    | apply keeps_clear
    | apply keeps_discardSq
    | apply keeps_setReg
    | apply keeps_ite
theorem keeps_writeCqCtrl {pq} (s : State) (c : Nat) (v : Nat) (gd_s : Good pq s) : Good pq (State.writeCqCtrl s c v) := by
  unfold State.writeCqCtrl
  try dsimp only
  repeat' with_reducible first
    | assumption
    | rfl
    | apply keeps_clear
    | apply keeps_setReg
    | apply keeps_ite
theorem keeps_writeEqCtrl {pq} (s : State) (e : Nat) (v : Nat) (gd_s : Good pq s) : Good pq (State.writeEqCtrl s e v) := by
  unfold State.writeEqCtrl
  try dsimp only
  repeat' with_reducible first
    | assumption
    | rfl
    | apply keeps_clear
    | apply keeps_setReg
    | apply keeps_ite
theorem keeps_writeRingCtrl {pq} (s : State) (r : RingId) (v : Nat) (gd_s : Good pq s) : Good pq (State.writeRingCtrl s r v) := by
  unfold State.writeRingCtrl
  try dsimp only
  repeat' with_reducible first
    | assumption
    | rfl
    | apply keeps_writeCqCtrl
    | apply keeps_writeEqCtrl
    | apply keeps_writeSqCtrl
    | apply keeps_ite
    | split
theorem keeps_ringSq {pq} (s : State) (i : Nat) (v : Nat) (gd_s : Good pq s) : Good pq (State.ringSq s i v) := by
  unfold State.ringSq
  try dsimp only
  repeat' with_reducible first
    | assumption
    | rfl
    | apply keeps_bump
    | apply keeps_raise
    | apply keeps_setReg
    | apply keeps_stopSq
    | apply keeps_ite
theorem keeps_ringCq {pq} (s : State) (c : Nat) (v : Nat) (gd_s : Good pq s) : Good pq (State.ringCq s c v) := by
  unfold State.ringCq
  try dsimp only
  repeat' with_reducible first
    | assumption
    | rfl
    | apply keeps_raise
    | apply keeps_setReg
    | apply keeps_stopCq
    | apply keeps_ite
theorem keeps_ringEq {pq} (s : State) (e : Nat) (v : Nat) (gd_s : Good pq s) : Good pq (State.ringEq s e v) := by
  unfold State.ringEq
  try dsimp only
  repeat' with_reducible first
    | assumption
    | rfl
    | apply keeps_raise
    | apply keeps_setReg
    | apply keeps_stopEq
    | apply keeps_ite
theorem keeps_due {pq} (s : State) (c : Completion) (gd_s : Good pq s) : Good pq (State.due s c) := by
  unfold State.due
  try dsimp only
  repeat' with_reducible first
    | assumption
    | rfl
    | apply keeps_bump
    | apply keeps_setCq
    | apply keeps_stopSq
    | apply keeps_ite
theorem keeps_cqReport {pq} (s : State) (c : Nat) (gd_s : Good pq s) : Good pq (State.cqReport s c) := by
  unfold State.cqReport
  try dsimp only
  repeat' with_reducible first
    | assumption
    | rfl
    | apply keeps_sendVec
    | apply keeps_setCq
    | apply keeps_ite
theorem keeps_eqReport {pq} (s : State) (e : Nat) (gd_s : Good pq s) : Good pq (State.eqReport s e) := by
  unfold State.eqReport
  try dsimp only
  repeat' with_reducible first
    | assumption
    | rfl
    | apply keeps_sendVec
    | apply keeps_setEq
    | apply keeps_ite
theorem keeps_writeCompletion {pq} (s : State) (c : Nat) (gd_s : Good pq s) : Good pq (State.writeCompletion s c) := by
  unfold State.writeCompletion
  try dsimp only
  repeat' with_reducible first
    | assumption
    | rfl
    | apply keeps_cqReport
    | apply keeps_emit
    | apply keeps_setCq
    | apply keeps_setReg
    | apply keeps_signal
    | apply keeps_ite
    | split
theorem keeps_postCompletion {pq} (s : State) (c : Nat) (ok : Bool) (gd_s : Good pq s) : Good pq (State.postCompletion s c ok) := by
  unfold State.postCompletion
  try dsimp only
  repeat' with_reducible first
    | assumption
    | rfl
    | apply keeps_stopCq
    | apply keeps_writeCompletion
    | apply keeps_ite
theorem keeps_writeEvent {pq} (s : State) (e : Nat) (ev : Event) (gd_s : Good pq s) : Good pq (State.writeEvent s e ev) := by
  unfold State.writeEvent
  try dsimp only
  repeat' with_reducible first
    | assumption
    | rfl
    | apply keeps_emit
    | apply keeps_eqReport
    | apply keeps_setEq
    | apply keeps_setReg
theorem keeps_drainQueue {pq} (s : State) (e : Nat) (y0 : Nat) (gd_s : Good pq s) : Good pq ((State.drainQueue s e) y0) := by
  induction y0 generalizing s with
  | zero => grind [State.drainQueue, keeps_removeHead, keeps_writeEvent]
  | succ k ih => grind [State.drainQueue, keeps_removeHead, keeps_writeEvent]
theorem keeps_drainAll {pq} (s : State) (gd_s : Good pq s) : Good pq (State.drainAll s) := by
  unfold State.drainAll
  try dsimp only
  repeat' with_reducible first
    | assumption
    | rfl
    | apply keeps_drainQueue
    | refine keeps_foldl _ _ _ (fun _ _ _ => ?_) ?_
theorem keeps_cmdResult {pq} (s : State) (d : Running) (status : Nat) (result : Nat) (gd_s : Good pq s) : Good pq (State.cmdResult s d status result) := by
  unfold State.cmdResult
  try dsimp only
  repeat' with_reducible first
    | assumption
    | rfl
    | apply keeps_offer
    | apply keeps_signal
    | apply keeps_ite
theorem keeps_finishWith {pq} (s : State) (d : Running) (sig : Bool) (status : Nat) (result : Nat) (gd_s : Good pq s) : Good pq (State.finishWith s d sig status result) := by
  unfold State.finishWith
  try dsimp only
  repeat' with_reducible first
    | assumption
    | rfl
    | apply keeps_due
    | apply keeps_signal
    | apply keeps_ite
theorem keeps_finish {pq} (s : State) (d : Running) (status : Nat) (result : Nat) (gd_s : Good pq s) : Good pq (State.finish s d status result) := by
  unfold State.finish
  try dsimp only
  repeat' with_reducible first
    | assumption
    | rfl
    | apply keeps_finishWith
theorem keeps_fetch {pq} (s : State) (i : Nat) (data : Option (List Byte)) (gd_s : Good pq s) : Good pq (State.fetch s i data) := by
  unfold State.fetch
  try dsimp only
  repeat' with_reducible first
    | assumption
    | rfl
    | apply keeps_setReg
    | apply keeps_setSq
    | apply keeps_stopSq
    | apply keeps_ite
    | split
theorem keeps_startExec {pq} (s : State) (i : Nat) (b : List Byte) (gd_s : Good pq s) : Good pq (State.startExec s i b) := by
  unfold State.startExec
  try dsimp only
  repeat' with_reducible first
    | assumption
    | rfl
    | apply keeps_ite
    | split
    | intro _
    | apply keeps_mk
theorem keeps_startHead {pq} (s : State) (i : Nat) (gd_s : Good pq s) : Good pq (State.startHead s i) := by
  unfold State.startHead
  try dsimp only
  repeat' with_reducible first
    | assumption
    | rfl
    | apply keeps_finishWith
    | apply keeps_setSq
    | apply keeps_startExec
    | apply keeps_ite
    | split
theorem keeps_startNext {pq} (s : State) (gd_s : Good pq s) : Good pq (State.startNext s) := by
  unfold State.startNext
  try dsimp only
  repeat' with_reducible first
    | assumption
    | rfl
    | apply keeps_startHead
    | apply keeps_ite
    | split
theorem keeps_releaseOne {pq} (s : State) (gd_s : Good pq s) : Good pq (State.releaseOne s) := by
  unfold State.releaseOne
  try dsimp only
  repeat' with_reducible first
    | assumption
    | rfl
    | apply keeps_setSq
    | apply keeps_startExec
    | apply keeps_ite
    | split
theorem keeps_releaseMany {pq} (s : State) (y0 : Nat) (gd_s : Good pq s) : Good pq ((State.releaseMany s) y0) := by
  induction y0 generalizing s with
  | zero => grind [State.releaseMany, keeps_releaseOne]
  | succ k ih => grind [State.releaseMany, keeps_releaseOne]
theorem keeps_releaseWaits {pq} (s : State) (gd_s : Good pq s) : Good pq (State.releaseWaits s) := by
  unfold State.releaseWaits
  try dsimp only
  repeat' with_reducible first
    | assumption
    | rfl
    | apply keeps_releaseMany
    | apply keeps_runTo
    | apply keeps_ite
theorem keeps_coalesce {pq} (s : State) (r : RingId) (gd_s : Good pq s) : Good pq (State.coalesce s r) := by
  unfold State.coalesce
  try dsimp only
  repeat' with_reducible first
    | assumption
    | rfl
    | apply keeps_runTo
    | apply keeps_sendVec
    | apply keeps_setCq
    | apply keeps_setEq
    | apply keeps_ite
    | split
theorem keeps_writeFbind {pq} (s : State) (k : Nat) (v : Nat) (gd_s : Good pq s) : Good pq (State.writeFbind s k v) := by
  unfold State.writeFbind
  try dsimp only
  repeat' with_reducible first
    | assumption
    | rfl
    | apply keeps_raise
    | apply keeps_setReg
    | apply keeps_ite
theorem keeps_execSqDoorbell {pq} (r : Fin 32) (ofs : Nat) (size : Nat) (v : Word) (s : State) (gd_s : Good pq s) (t9 : State) (ht : execSqDoorbell r ofs size v s = .next t9) : Good pq t9 := by
  simp only [execSqDoorbell] at ht
  cases ht
  repeat' with_reducible first
    | assumption
    | rfl
    | apply keeps_raise
    | apply keeps_ringSq
    | apply keeps_ite
theorem keeps_execCqDoorbell {pq} (r : Fin 32) (ofs : Nat) (size : Nat) (v : Word) (s : State) (gd_s : Good pq s) (t9 : State) (ht : execCqDoorbell r ofs size v s = .next t9) : Good pq t9 := by
  simp only [execCqDoorbell] at ht
  cases ht
  repeat' with_reducible first
    | assumption
    | rfl
    | apply keeps_raise
    | apply keeps_ringCq
    | apply keeps_ite
theorem keeps_execEqDoorbell {pq} (r : Fin 8) (ofs : Nat) (size : Nat) (v : Word) (s : State) (gd_s : Good pq s) (t9 : State) (ht : execEqDoorbell r ofs size v s = .next t9) : Good pq t9 := by
  simp only [execEqDoorbell] at ht
  cases ht
  repeat' with_reducible first
    | assumption
    | rfl
    | apply keeps_raise
    | apply keeps_ringEq
    | apply keeps_ite
theorem keeps_execRingEnable {pq} (r : RingId) (ctrl : Word) (s : State) (gd_s : Good pq s) (t9 : State) (ht : execRingEnable r ctrl s = .next t9) : Good pq t9 := by
  simp only [execRingEnable] at ht
  cases ht
  repeat' with_reducible first
    | assumption
    | rfl
    | apply keeps_onBlock
    | apply keeps_writeRingCtrl
theorem keeps_execRingDisable {pq} (r : RingId) (ctrl : Word) (s : State) (gd_s : Good pq s) (t9 : State) (ht : execRingDisable r ctrl s = .next t9) : Good pq t9 := by
  simp only [execRingDisable] at ht
  cases ht
  repeat' with_reducible first
    | assumption
    | rfl
    | apply keeps_onBlock
    | apply keeps_writeRingCtrl
theorem keeps_execDescriptorFetch {pq} (r : Fin 32) (data : Option (BitVec 512)) (s : State) (gd_s : Good pq s) (t9 : State) (ht : execDescriptorFetch r data s = .next t9) : Good pq t9 := by
  simp only [execDescriptorFetch] at ht
  cases ht
  repeat' with_reducible first
    | assumption
    | rfl
    | apply keeps_fetch
theorem keeps_execDescriptorStart {pq} (s : State) (gd_s : Good pq s) (t9 : State) (ht : execDescriptorStart s = .next t9) : Good pq t9 := by
  simp only [execDescriptorStart] at ht
  cases ht
  repeat' with_reducible first
    | assumption
    | rfl
    | apply keeps_startNext
theorem keeps_execFenceWaitRelease {pq} (s : State) (gd_s : Good pq s) (t9 : State) (ht : execFenceWaitRelease s = .next t9) : Good pq t9 := by
  simp only [execFenceWaitRelease] at ht
  cases ht
  repeat' with_reducible first
    | assumption
    | rfl
    | apply keeps_releaseWaits
theorem keeps_execCompletionPost {pq} (c : Fin 32) (written : Bool) (s : State) (gd_s : Good pq s) (t9 : State) (ht : execCompletionPost c written s = .next t9) : Good pq t9 := by
  simp only [execCompletionPost] at ht
  cases ht
  repeat' with_reducible first
    | assumption
    | rfl
    | apply keeps_postCompletion
theorem keeps_execMsixCoalesceTimeout {pq} (r : RingId) (s : State) (gd_s : Good pq s) (t9 : State) (ht : execMsixCoalesceTimeout r s = .next t9) : Good pq t9 := by
  simp only [execMsixCoalesceTimeout] at ht
  cases ht
  repeat' with_reducible first
    | assumption
    | rfl
    | apply keeps_coalesce
theorem keeps_execFenceBind {pq} (k : Fin 22) (v : Word) (s : State) (gd_s : Good pq s) (t9 : State) (ht : execFenceBind k v s = .next t9) : Good pq t9 := by
  simp only [execFenceBind] at ht
  cases ht
  repeat' with_reducible first
    | assumption
    | rfl
    | apply keeps_onBlock
    | apply keeps_writeFbind
end Sys2Proof.Machine
end

