-- ==== Sys2Proof/Laws/KeepsDescriptors.lean ====
section
/-! SUPPORT. Every operation of Descriptors.lean keeps the invariant and leaves the queue of commands alone. -/

namespace Sys2Proof.Machine
theorem keeps_stage {pq} (s : State) (d : Running) (payload : List Byte) (due : Option Nat) (gd_s : Good pq s) : Good pq (State.stage s d payload due) := by
  unfold State.stage
  try dsimp only
  repeat' with_reducible first
    | assumption
    | rfl
    | apply keeps_due
    | apply keeps_ite
    | split
    | intro _
    | apply keeps_mk
theorem keeps_sendJournal {pq} (s : State) (origin : Nat) (d : Running) (gd_s : Good pq s) : Good pq (State.sendJournal s origin d) := by
  unfold State.sendJournal
  try dsimp only
  repeat' with_reducible first
    | assumption
    | rfl
    | apply keeps_sendTdm
    | apply keeps_ite
    | split
    | intro _
    | apply keeps_mk
theorem keeps_journalDone {pq} (s : State) (i : Nat) (gd_s : Good pq s) : Good pq (State.journalDone s i) := by
  unfold State.journalDone
  try dsimp only
  repeat' with_reducible first
    | assumption
    | rfl
    | apply keeps_setReg64
    | apply keeps_source
theorem keeps_soloEntry {pq} (s : State) (origin : Nat) (d : Running) (gd_s : Good pq s) : Good pq (State.soloEntry s origin d) := by
  unfold State.soloEntry
  try dsimp only
  repeat' with_reducible first
    | assumption
    | rfl
    | apply keeps_journalDone
    | apply keeps_sendTdm
    | apply keeps_ite
    | split
    | intro _
    | apply keeps_mk
theorem keeps_commitEffect {pq} (s : State) (d : Running) (data : List Byte) (effect : State → Running → List Byte → State) (gd_s : Good pq s) (hfeffect : ∀ a0 a1 a2, Good pq a0 → Good pq (effect a0 a1 a2)) : Good pq (State.commitEffect s d data effect) := by
  unfold State.commitEffect
  try dsimp only
  repeat' with_reducible first
    | assumption
    | rfl
    | apply hfeffect
    | apply keeps_stage
    | apply keeps_ite
theorem keeps_dropRunning {pq} (s : State) (d : Running) (gd_s : Good pq s) : Good pq (State.dropRunning s d) := by
  unfold State.dropRunning
  try dsimp only
  repeat' with_reducible first
    | assumption
    | rfl
    | apply keeps_ite
    | split
    | intro _
    | apply keeps_mk
theorem keeps_failDesc {pq} (s : State) (d : Running) (st : Nat) (res : Nat) (gd_s : Good pq s) : Good pq (State.failDesc s d st res) := by
  unfold State.failDesc
  try dsimp only
  repeat' with_reducible first
    | assumption
    | rfl
    | apply keeps_bridleDeny
    | apply keeps_finish
    | apply keeps_raise
    | apply keeps_ite
theorem keeps_letIn {pq} (s : State) (d : Running) (data : List Byte) (effect : State → Running → List Byte → State) (gd_s : Good pq s) (hfeffect : ∀ a0 a1 a2, Good pq a0 → Good pq (effect a0 a1 a2)) : Good pq (State.letIn s d data effect) := by
  unfold State.letIn
  try dsimp only
  repeat' with_reducible first
    | assumption
    | rfl
    | apply hfeffect
    | apply keeps_commitEffect
    | apply keeps_sendJournal
    | apply keeps_soloEntry
    | apply keeps_stage
    | apply keeps_ite
theorem keeps_execute {pq} (s : State) (d : Running) (payload : Option (List Byte)) (c : OpChecks) (reserve : State → Running → List Byte → State) (effect : State → Running → List Byte → State) (gd_s : Good pq s) (hfreserve : ∀ a0 a1 a2, Good pq a0 → Good pq (reserve a0 a1 a2)) (hfeffect : ∀ a0 a1 a2, Good pq a0 → Good pq (effect a0 a1 a2)) : Good pq (State.execute s d payload c reserve effect) := by
  unfold State.execute
  try dsimp only
  repeat' with_reducible first
    | assumption
    | rfl
    | apply hfreserve
    | apply hfeffect
    | apply keeps_failDesc
    | apply keeps_letIn
    | apply keeps_ite
    | split
theorem keeps_runOp {pq} (s : State) (r : Nat) (op : Nat) (payload : Option (List Byte)) (c : State → List Byte → OpChecks) (reserve : State → Running → List Byte → State) (effect : State → Running → List Byte → State) (gd_s : Good pq s) (hfreserve : ∀ a0 a1 a2, Good pq a0 → Good pq (reserve a0 a1 a2)) (hfeffect : ∀ a0 a1 a2, Good pq a0 → Good pq (effect a0 a1 a2)) : Good pq (State.runOp s r op payload c reserve effect) := by
  unfold State.runOp
  try dsimp only
  repeat' with_reducible first
    | assumption
    | rfl
    | apply hfreserve
    | apply hfeffect
    | apply keeps_dropRunning
    | apply keeps_execute
    | apply keeps_ite
    | split
theorem keeps_noReserve {pq} (s : State) (x1 : Running) (x2 : List Byte) (gd_s : Good pq s) : Good pq (noReserve s x1 x2) := by
  unfold noReserve
  try dsimp only
  repeat' with_reducible first
    | assumption
theorem keeps_done {pq} (s : State) (d : Running) (gd_s : Good pq s) : Good pq (State.done s d) := by
  unfold State.done
  try dsimp only
  repeat' with_reducible first
    | assumption
    | rfl
    | apply keeps_finish
theorem keeps_nopEffect {pq} (s : State) (d : Running) (x2 : List Byte) (gd_s : Good pq s) : Good pq (State.nopEffect s d x2) := by
  unfold State.nopEffect
  try dsimp only
  repeat' with_reducible first
    | assumption
    | rfl
    | apply keeps_finish
theorem keeps_fenceEffect {pq} (s : State) (d : Running) (x2 : List Byte) (gd_s : Good pq s) : Good pq (State.fenceEffect s d x2) := by
  unfold State.fenceEffect
  try dsimp only
  repeat' with_reducible first
    | assumption
    | rfl
    | apply keeps_finish
    | apply keeps_signal
    | apply keeps_ite
end Sys2Proof.Machine
end

