-- ==== Sys2Proof/Laws/KeepsLayers.lean ====
section
/-! SUPPORT. Every operation of Layers.lean keeps the invariant and leaves the queue of commands alone. -/

namespace Sys2Proof.Machine
theorem keeps_place {pq} (s : State) (base : Nat) (size : Nat) (used : List (Nat × Nat)) (need : Nat) (gd_s : Good pq s) (t9) (ht : State.place s base size used need = some t9) : Good pq t9.1 := by
  grind [State.place, keeps_drew]
theorem keeps_setLayer {pq} (s : State) (i : Nat) (l : Option Layer) (gd_s : Good pq s) : Good pq (State.setLayer s i l) := by
  unfold State.setLayer
  try dsimp only
  repeat' with_reducible first
    | assumption
    | rfl
    | apply keeps_ite
    | split
    | intro _
    | apply keeps_mk
theorem keeps_setRegistering {pq} (s : State) (i : Nat) (l : Option Layer) (gd_s : Good pq s) : Good pq (State.setRegistering s i l) := by
  unfold State.setRegistering
  try dsimp only
  repeat' with_reducible first
    | assumption
    | rfl
    | apply keeps_ite
    | split
    | intro _
    | apply keeps_mk
theorem keeps_registerReserve {pq} (s : State) (d : Running) (x2 : List Byte) (gd_s : Good pq s) : Good pq (State.registerReserve s d x2) := by
  unfold State.registerReserve
  try dsimp only
  repeat' with_reducible first
    | assumption
    | rfl
    | exact keeps_place (t9 := (_, _)) (gd_s := by assumption) (ht := by assumption) ..
    | apply keeps_setRegistering
    | apply keeps_ite
    | split
theorem keeps_registerEffect {pq} (s : State) (d : Running) (x2 : List Byte) (gd_s : Good pq s) : Good pq (State.registerEffect s d x2) := by
  unfold State.registerEffect
  try dsimp only
  repeat' with_reducible first
    | assumption
    | rfl
    | apply keeps_done
    | apply keeps_setLayer
    | apply keeps_setRegistering
    | apply keeps_ite
    | split
theorem keeps_updateEffect {pq} (s : State) (d : Running) (x2 : List Byte) (gd_s : Good pq s) : Good pq (State.updateEffect s d x2) := by
  unfold State.updateEffect
  try dsimp only
  repeat' with_reducible first
    | assumption
    | rfl
    | apply keeps_finish
    | apply keeps_setLayer
    | apply keeps_ite
    | split
theorem keeps_signalRel {pq} (s : State) (r : Option (Nat × Nat)) (gd_s : Good pq s) : Good pq (State.signalRel s r) := by
  unfold State.signalRel
  try dsimp only
  repeat' with_reducible first
    | assumption
    | rfl
    | apply keeps_signal
    | apply keeps_ite
    | split
theorem keeps_latchHost {pq} (s : State) (i : Nat) (l : Layer) (gd_s : Good pq s) : Good pq (State.latchHost s i l) := by
  unfold State.latchHost
  try dsimp only
  repeat' with_reducible first
    | assumption
    | rfl
    | apply keeps_setLayer
    | apply keeps_signalRel
    | refine keeps_foldl _ _ _ (fun _ _ _ => ?_) ?_
    | apply keeps_ite
    | split
theorem keeps_retireReserve {pq} (s : State) (d : Running) (x2 : List Byte) (gd_s : Good pq s) : Good pq (State.retireReserve s d x2) := by
  unfold State.retireReserve
  try dsimp only
  repeat' with_reducible first
    | assumption
    | rfl
    | apply keeps_setLayer
    | apply keeps_ite
    | split
theorem keeps_postDiscard {pq} (s : State) (layer : Nat) (cause : Nat) (cs : List CueStep) (gd_s : Good pq s) : Good pq (State.postDiscard s layer cause cs) := by
  unfold State.postDiscard
  try dsimp only
  repeat' with_reducible first
    | assumption
    | rfl
    | apply keeps_postNow
    | refine keeps_foldl _ _ _ (fun _ _ _ => ?_) ?_
    | apply keeps_ite
theorem keeps_discardCues {pq} (s : State) (i : Nat) (cause : Nat) (p : CueStep → Bool) (gd_s : Good pq s) : Good pq (State.discardCues s i cause p) := by
  unfold State.discardCues
  try dsimp only
  repeat' with_reducible first
    | assumption
    | rfl
    | apply keeps_postDiscard
    | apply keeps_ite
    | split
    | intro _
    | apply keeps_mk
theorem keeps_discardAllCues {pq} (s : State) (cause : Nat) (p : CueStep → Bool) (gd_s : Good pq s) : Good pq (State.discardAllCues s cause p) := by
  unfold State.discardAllCues
  try dsimp only
  repeat' with_reducible first
    | assumption
    | rfl
    | apply keeps_discardCues
    | refine keeps_foldl _ _ _ (fun _ _ _ => ?_) ?_
theorem keeps_retireNow {pq} (s : State) (d : Running) (x2 : List Byte) (gd_s : Good pq s) : Good pq (State.retireNow s d x2) := by
  unfold State.retireNow
  try dsimp only
  repeat' with_reducible first
    | assumption
    | rfl
    | apply keeps_discardCues
    | apply keeps_done
    | apply keeps_setLayer
    | apply keeps_signalRel
    | refine keeps_foldl _ _ _ (fun _ _ _ => ?_) ?_
    | apply keeps_ite
    | split
theorem keeps_retireEffect {pq} (s : State) (d : Running) (data : List Byte) (gd_s : Good pq s) : Good pq (State.retireEffect s d data) := by
  unfold State.retireEffect
  try dsimp only
  repeat' with_reducible first
    | assumption
    | rfl
    | apply keeps_retireNow
    | apply keeps_ite
    | split
    | intro _
    | apply keeps_mk
theorem keeps_execLayerRegister {pq} (r : Fin 32) (s : State) (gd_s : Good pq s) (t9 : State) (ht : execLayerRegister r s = .next t9) : Good pq t9 := by
  simp only [execLayerRegister] at ht
  cases ht
  repeat' with_reducible first
    | assumption
    | rfl
    | apply keeps_registerEffect
    | apply keeps_registerReserve
    | apply keeps_runOp
theorem keeps_execLayerUpdate {pq} (r : Fin 32) (s : State) (gd_s : Good pq s) (t9 : State) (ht : execLayerUpdate r s = .next t9) : Good pq t9 := by
  simp only [execLayerUpdate] at ht
  cases ht
  repeat' with_reducible first
    | assumption
    | rfl
    | apply keeps_runOp
    | apply keeps_updateEffect
    | apply keeps_noReserve
theorem keeps_execLayerRetire {pq} (r : Fin 32) (s : State) (gd_s : Good pq s) (t9 : State) (ht : execLayerRetire r s = .next t9) : Good pq t9 := by
  simp only [execLayerRetire] at ht
  cases ht
  repeat' with_reducible first
    | assumption
    | rfl
    | apply keeps_retireEffect
    | apply keeps_retireReserve
    | apply keeps_runOp
end Sys2Proof.Machine
end

