-- ==== Sys2Proof/Laws/KeepsErrors.lean ====
section
/-! SUPPORT. Every operation of Errors.lean keeps the invariant and leaves the queue of commands alone. -/

namespace Sys2Proof.Machine
theorem keeps_record {pq} (s : State) (r : ErrRecord) (gd_s : Good pq s) : Good pq (State.record s r) := by
  unfold State.record
  try dsimp only
  repeat' with_reducible first
    | assumption
    | rfl
    | apply keeps_ite
    | split
    | intro _
    | apply keeps_mk
theorem keeps_deviceFault {pq} (s : State) (memid : Nat) (kind : Nat) (region : Nat) (addr : Nat) (gd_s : Good pq s) : Good pq (State.deviceFault s memid kind region addr) := by
  unfold State.deviceFault
  try dsimp only
  repeat' with_reducible first
    | assumption
    | rfl
    | apply keeps_ite
    | split
    | intro _
    | apply keeps_mk
theorem keeps_breakFence {pq} (s : State) (f : Nat) (gd_s : Good pq s) : Good pq (State.breakFence s f) := by
  unfold State.breakFence
  try dsimp only
  repeat' with_reducible first
    | assumption
    | rfl
    | apply keeps_ite
    | split
    | intro _
    | apply keeps_mk
theorem keeps_loseItem {pq} (s : State) (q : Nat) (n : Nat) (gd_s : Good pq s) : Good pq (State.loseItem s q n) := by
  have hq := queue_le s q gd_s
  unfold State.loseItem
  dsimp only
  split
  · exact keeps_setQueue _ _ _ (by simp only [List.length_eraseIdx]; split <;> omega) gd_s
  · exact gd_s
theorem keeps_loseCue {pq} (s : State) (n : Nat) (gd_s : Good pq s) : Good pq (State.loseCue s n) := by
  unfold State.loseCue
  try dsimp only
  repeat' with_reducible first
    | assumption
    | rfl
    | apply keeps_postDiscard
    | apply keeps_ite
    | split
    | intro _
    | apply keeps_mk
theorem keeps_loseRider {pq} (s : State) (open' : Bool) (gd_s : Good pq s) : Good pq (State.loseRider s open') := by
  unfold State.loseRider
  try dsimp only
  repeat' with_reducible first
    | assumption
    | rfl
    | apply keeps_ite
    | split
    | intro _
    | apply keeps_mk
theorem keeps_clearPoison {pq} (s : State) (a : Nat) (n : Nat) (gd_s : Good pq s) : Good pq (State.clearPoison s a n) := by
  unfold State.clearPoison
  try dsimp only
  repeat' with_reducible first
    | assumption
    | rfl
    | apply keeps_ite
    | split
    | intro _
    | apply keeps_mk
theorem keeps_loseEntry {pq} (s : State) (c : Consumer) (open' : Bool) (gd_s : Good pq s) : Good pq (State.loseEntry s c open') := by
  unfold State.loseEntry
  try dsimp only
  repeat' with_reducible first
    | assumption
    | rfl
    | apply keeps_breakFence
    | apply keeps_deviceFault
    | apply keeps_loseCue
    | apply keeps_loseItem
    | apply keeps_loseRider
    | apply keeps_ite
    | split
    | intro _
    | apply keeps_mk
theorem keeps_noteCorrected {pq} (s : State) (m : Nat) (a : Nat) (gd_s : Good pq s) : Good pq (State.noteCorrected s m a) := by
  unfold State.noteCorrected
  try dsimp only
  repeat' with_reducible first
    | assumption
    | rfl
    | apply keeps_corrected
    | apply keeps_ite
    | split
    | intro _
    | apply keeps_mk
theorem keeps_corrected {pq} (s : State) (w : BadWord) (two : Bool) (scrub : Bool) (gd_s : Good pq s) : Good pq (State.corrected s w two scrub) := by
  unfold State.corrected
  try dsimp only
  repeat' with_reducible first
    | assumption
    | rfl
    | apply keeps_bumpReg
    | apply keeps_noteCorrected
    | apply keeps_record
theorem keeps_uncorrectable {pq} (s : State) (w : BadWord) (scrub : Bool) (gd_s : Good pq s) : Good pq (State.uncorrectable s w scrub) := by
  unfold State.uncorrectable
  try dsimp only
  repeat' with_reducible first
    | assumption
    | rfl
    | apply keeps_bumpReg
    | apply keeps_deviceFault
    | apply keeps_loseEntry
    | apply keeps_record
    | apply keeps_scrub
    | apply keeps_ite
    | split
    | intro _
    | apply keeps_mk
theorem keeps_busError {pq} (s : State) (w : BadWord) (repeats : Nat) (ok : Bool) (scrub : Bool) (gd_s : Good pq s) : Good pq (State.busError s w repeats ok scrub) := by
  unfold State.busError
  try dsimp only
  repeat' with_reducible first
    | assumption
    | rfl
    | apply keeps_deviceFault
    | apply keeps_record
    | apply keeps_scrub
    | apply keeps_uncorrectable
    | apply keeps_ite
    | split
    | intro _
    | apply keeps_mk
theorem keeps_memError {pq} (s : State) (w : BadWord) (scrub : Bool) (gd_s : Good pq s) : Good pq (State.memError s w scrub) := by
  unfold State.memError
  try dsimp only
  repeat' with_reducible first
    | assumption
    | rfl
    | apply keeps_busError
    | apply keeps_corrected
    | apply keeps_scrub
    | apply keeps_uncorrectable
    | apply keeps_ite
    | split
theorem keeps_memErrors {pq} (s : State) (ws : List BadWord) (gd_s : Good pq s) : Good pq (State.memErrors s ws) := by
  unfold State.memErrors
  try dsimp only
  repeat' with_reducible first
    | assumption
    | rfl
    | apply keeps_memError
    | refine keeps_foldl _ _ _ (fun _ _ _ => ?_) ?_
end Sys2Proof.Machine
end

