-- ==== Sys2Proof/Laws/KeepsMap.lean ====
section
/-! SUPPORT. Every operation of Map.lean keeps the invariant and leaves the queue of commands alone. -/

namespace Sys2Proof.Machine
theorem keeps_placeBlocks {pq} (m : Sparse Block) (xs : List Span) (old : List (Nat × Nat × Nat)) (gs : List Nat) :
    ∀ (s : State) (used : List (Nat × Nat)) (t : _), s.placeBlocks m xs old used gs = some t → Good pq s → Good pq t.1 := by
  induction gs with
  | nil => intro s used t ht h; simp only [State.placeBlocks] at ht; cases ht; exact h
  | cons g gs ih =>
    intro s used t ht h
    simp only [State.placeBlocks] at ht
    split at ht
    · obtain ⟨r, hr, rfl⟩ := Option.map_eq_some_iff.1 ht
      exact ih s used r hr h
    · split at ht
      · cases ht
      · rename_i s' a hp
        obtain ⟨r, hr, rfl⟩ := Option.map_eq_some_iff.1 ht
        exact ih s' _ r hr (keeps_place (t9 := (_, _)) (gd_s := h) (ht := hp) ..)
theorem keeps_placeChanges {pq} (cs : List MapChange) :
    ∀ (s : State) (m : Sparse Block) (used : List (Nat × Nat)) (t : _), s.placeChanges m used cs = some t → Good pq s → Good pq t.1 := by
  induction cs with
  | nil => intro s m used t ht h; simp only [State.placeChanges] at ht; cases ht; exact h
  | cons c cs ih =>
    intro s m used t ht h
    simp only [State.placeChanges] at ht
    split at ht
    · cases ht
    · rename_i s' ps used' hp
      obtain ⟨r, hr, rfl⟩ := Option.map_eq_some_iff.1 ht
      exact ih s' _ _ r hr (keeps_placeBlocks _ _ _ _ s _ _ hp h)
theorem keeps_planChange {pq} (s : State) (xs : List Span) (first : Bool) (gd_s : Good pq s) (t9) (ht : s.planChange xs first = some t9) :
    Good pq t9.1 := by
  simp only [State.planChange] at ht
  split at ht
  · cases ht
  · exact keeps_placeChanges _ s _ _ _ ht gd_s
theorem keeps_mapReserve {pq} (s : State) (d : Running) (data : List Byte) (gd_s : Good pq s) : Good pq (State.mapReserve s d data) := by
  unfold State.mapReserve
  try dsimp only
  repeat' with_reducible first
    | assumption
    | rfl
    | exact keeps_planChange (t9 := (_, _)) (gd_s := by assumption) (ht := by assumption) ..
    | apply keeps_clearPoison
    | refine keeps_foldl _ _ _ (fun _ _ _ => ?_) ?_
    | apply keeps_ite
    | split
    | intro _
    | apply keeps_mk
theorem keeps_mapEffect {pq} (s : State) (d : Running) (x2 : List Byte) (gd_s : Good pq s) : Good pq (State.mapEffect s d x2) := by
  unfold State.mapEffect
  try dsimp only
  repeat' with_reducible first
    | assumption
    | rfl
    | apply keeps_done
    | apply keeps_ite
    | split
    | intro _
    | apply keeps_mk
theorem keeps_failStaged {pq} (s : State) (x : Staged) (gd_s : Good pq s) : Good pq (State.failStaged s x) := by
  unfold State.failStaged
  try dsimp only
  repeat' with_reducible first
    | assumption
    | rfl
    | apply keeps_finish
    | apply keeps_ite
    | split
theorem keeps_discardMap {pq} (s : State) (gd_s : Good pq s) : Good pq (State.discardMap s) := by
  unfold State.discardMap
  try dsimp only
  repeat' with_reducible first
    | assumption
    | rfl
    | apply keeps_failStaged
    | refine keeps_foldl _ _ _ (fun _ _ _ => ?_) ?_
    | apply keeps_ite
    | split
    | intro _
    | apply keeps_mk
theorem keeps_writeMapRegion {pq} (s : State) (off : Nat) (v : Nat) (gd_s : Good pq s) : Good pq (State.writeMapRegion s off v) := by
  unfold State.writeMapRegion
  try dsimp only
  repeat' with_reducible first
    | assumption
    | rfl
    | apply keeps_discardMap
    | apply keeps_setReg64
    | apply keeps_ite
    | split
    | intro _
    | apply keeps_mk
theorem keeps_execMapLoad {pq} (r : Fin 32) (payload : Option (List Byte)) (s : State) (gd_s : Good pq s) (t9 : State) (ht : execMapLoad r payload s = .next t9) : Good pq t9 := by
  simp only [execMapLoad] at ht
  cases ht
  repeat' with_reducible first
    | assumption
    | rfl
    | apply keeps_mapEffect
    | apply keeps_mapReserve
    | apply keeps_runOp
theorem keeps_execMapPatch {pq} (r : Fin 32) (payload : Option (List Byte)) (s : State) (gd_s : Good pq s) (t9 : State) (ht : execMapPatch r payload s = .next t9) : Good pq t9 := by
  simp only [execMapPatch] at ht
  cases ht
  repeat' with_reducible first
    | assumption
    | rfl
    | apply keeps_mapEffect
    | apply keeps_mapReserve
    | apply keeps_runOp
end Sys2Proof.Machine
end

