-- ==== Sys2Proof/Laws/KeepsColour.lean ====
section
/-! SUPPORT. Every operation of Colour.lean keeps the invariant and leaves the queue of commands alone. -/

namespace Sys2Proof.Machine
theorem keeps_colourEffect {pq} (s : State) (d : Running) (data : List Byte) (gd_s : Good pq s) : Good pq (State.colourEffect s d data) := by
  unfold State.colourEffect
  try dsimp only
  repeat' with_reducible first
    | assumption
    | rfl
    | apply keeps_done
    | refine keeps_foldl _ _ _ (fun _ _ _ => ?_) ?_
    | apply keeps_ite
    | split
    | intro _
    | apply keeps_mk
theorem keeps_writeTemp {pq} (s : State) (k : Nat) (v : Nat) (gd_s : Good pq s) : Good pq (State.writeTemp s k v) := by
  unfold State.writeTemp
  try dsimp only
  repeat' with_reducible first
    | assumption
    | rfl
    | apply keeps_ite
    | split
    | intro _
    | apply keeps_mk
theorem keeps_closeTemps {pq} (s : State) (gd_s : Good pq s) : Good pq (State.closeTemps s) := by
  unfold State.closeTemps
  try dsimp only
  repeat' with_reducible first
    | assumption
    | rfl
    | apply keeps_postNow
    | apply keeps_setReg
    | apply keeps_ite
    | split
    | intro _
    | apply keeps_mk
theorem keeps_moveTrims {pq} (s : State) (gd_s : Good pq s) : Good pq (State.moveTrims s) := by
  unfold State.moveTrims
  try dsimp only
  repeat' with_reducible first
    | assumption
    | rfl
    | refine keeps_foldl _ _ _ (fun _ _ _ => ?_) ?_
    | apply keeps_ite
    | split
    | intro _
    | apply keeps_mk
theorem keeps_holdCue {pq} (s : State) (id : Nat) (target : Nat) (recs : List CueRec) (gd_s : Good pq s) : Good pq (State.holdCue s id target recs) := by
  unfold State.holdCue
  try dsimp only
  repeat' with_reducible first
    | assumption
    | rfl
    | apply keeps_ite
    | split
    | intro _
    | apply keeps_mk
theorem keeps_cueEffect {pq} (s : State) (d : Running) (data : List Byte) (gd_s : Good pq s) : Good pq (State.cueEffect s d data) := by
  unfold State.cueEffect
  try dsimp only
  repeat' with_reducible first
    | assumption
    | rfl
    | apply keeps_finish
    | apply keeps_holdCue
    | apply keeps_ite
theorem keeps_enterCue {pq} (s : State) (c : CueStep) (gd_s : Good pq s) : Good pq (State.enterCue s c) := by
  unfold State.enterCue
  try dsimp only
  repeat' with_reducible first
    | assumption
    | rfl
    | apply keeps_setLayer
    | refine keeps_foldl _ _ _ (fun _ _ _ => ?_) ?_
    | apply keeps_ite
    | split
theorem keeps_enterCues {pq} (s : State) (gd_s : Good pq s) : Good pq (State.enterCues s) := by
  unfold State.enterCues
  try dsimp only
  repeat' with_reducible first
    | assumption
    | rfl
    | apply keeps_due
    | apply keeps_enterCue
    | refine keeps_foldl _ _ _ (fun _ _ _ => ?_) ?_
    | apply keeps_ite
    | split
    | intro _
    | apply keeps_mk
theorem keeps_execColourLoad {pq} (r : Fin 32) (payload : Option (List Byte)) (s : State) (gd_s : Good pq s) (t9 : State) (ht : execColourLoad r payload s = .next t9) : Good pq t9 := by
  simp only [execColourLoad] at ht
  cases ht
  repeat' with_reducible first
    | assumption
    | rfl
    | apply keeps_colourEffect
    | apply keeps_runOp
    | apply keeps_noReserve
theorem keeps_execCueStep {pq} (r : Fin 32) (payload : Option (List Byte)) (s : State) (gd_s : Good pq s) (t9 : State) (ht : execCueStep r payload s = .next t9) : Good pq t9 := by
  simp only [execCueStep] at ht
  cases ht
  repeat' with_reducible first
    | assumption
    | rfl
    | apply keeps_cueEffect
    | apply keeps_runOp
    | apply keeps_noReserve
theorem keeps_execLocalTempWrite {pq} (sensor : Fin 16) (v : Half) (s : State) (gd_s : Good pq s) (t9 : State) (ht : execLocalTempWrite sensor v s = .next t9) : Good pq t9 := by
  simp only [execLocalTempWrite] at ht
  cases ht
  repeat' with_reducible first
    | assumption
    | rfl
    | apply keeps_writeTemp
theorem keeps_execTrimTargetSet {pq} (node : BitVec 18) (c : Fin 4) (t : Half) (s : State) (gd_s : Good pq s) (t9 : State) (ht : execTrimTargetSet node c t s = .next t9) : Good pq t9 := by
  simp only [execTrimTargetSet] at ht
  cases ht
  repeat' with_reducible first
    | assumption
    | rfl
    | apply keeps_ite
    | split
    | intro _
    | apply keeps_mk
end Sys2Proof.Machine
end

