-- ==== Sys2Proof/Laws/KeepsCompose.lean ====
section
/-! SUPPORT. Every operation of Compose.lean keeps the invariant and leaves the queue of commands alone. -/

namespace Sys2Proof.Machine
theorem keeps_setFrame {pq} (s : State) (f : Frame) (gd_s : Good pq s) : Good pq (State.setFrame s f) := by
  unfold State.setFrame
  try dsimp only
  repeat' with_reducible first
    | assumption
    | rfl
    | apply keeps_ite
    | split
    | intro _
    | apply keeps_mk
theorem keeps_readTile {pq} (s : State) (f : Frame) (h : HostTile) (gd_s : Good pq s) : Good pq (State.readTile s f h).1 := by
  unfold State.readTile
  try dsimp only
  repeat' with_reducible first
    | assumption
    | rfl
    | apply keeps_setLayer
    | apply keeps_ite
    | split
theorem keeps_checkHeader {pq} (s : State) (f : Frame) (hs : List GuardHeader) (id : Nat) (l : LatLayer) (gd_s : Good pq s) : Good pq (State.checkHeader s f hs id l).1 := by
  unfold State.checkHeader
  try dsimp only
  repeat' with_reducible first
    | assumption
    | rfl
    | apply keeps_bumpReg
    | apply keeps_postNow
    | apply keeps_setLayer
    | apply keeps_ite
    | split
    | intro _
    | apply keeps_mk
theorem keeps_checkHeaders {pq} (s : State) (hs : List GuardHeader) (f : Frame) (gd_s : Good pq s) : Good pq (State.checkHeaders s hs f).1 := by
  exact keeps_foldl_pair _ _ _ (fun a x h => keeps_checkHeader a.1 a.2 _ _ _ h) gd_s
theorem keeps_withFrame {pq} (p : State × Frame) (gd_p : Good pq p.1) : Good pq (State.withFrame p) := by
  unfold State.withFrame
  try dsimp only
  repeat' with_reducible first
    | assumption
    | rfl
    | apply keeps_setFrame
theorem keeps_settleHolds {pq} (s : State) (f : Frame) (held : List Nat) (gd_s : Good pq s) : Good pq (State.settleHolds s f held) := by
  unfold State.settleHolds
  try dsimp only
  repeat' with_reducible first
    | assumption
    | rfl
    | apply keeps_bumpReg
    | apply keeps_postNow
    | apply keeps_setFrame
    | apply keeps_setReg64
    | refine keeps_foldl _ _ _ (fun _ _ _ => ?_) ?_
    | apply keeps_ite
    | split
    | intro _
    | apply keeps_mk
theorem keeps_composeOver {pq} (s : State) (f : Frame) (gd_s : Good pq s) : Good pq (State.composeOver s f) := by
  unfold State.composeOver
  try dsimp only
  repeat' with_reducible first
    | assumption
    | rfl
    | apply keeps_done
    | apply keeps_sendTdm
    | apply keeps_settleHolds
    | apply keeps_ite
    | split
    | intro _
    | apply keeps_mk
theorem keeps_startCompose {pq} (s : State) (hs : List GuardHeader) (gd_s : Good pq s) : Good pq (State.startCompose s hs) := by
  unfold State.startCompose
  try dsimp only
  repeat' with_reducible first
    | assumption
    | rfl
    | apply keeps_checkHeaders
    | apply keeps_composeOver
    | apply keeps_runTo
    | apply keeps_setFrame
    | apply keeps_ite
    | split
    | intro _
    | apply keeps_mk
theorem keeps_holdSegment {pq} (s : State) (f : Frame) (seg : Nat) (gd_s : Good pq s) : Good pq (State.holdSegment s f seg) := by
  unfold State.holdSegment
  try dsimp only
  repeat' with_reducible first
    | assumption
    | rfl
    | apply keeps_bumpReg
    | apply keeps_setFrame
theorem keeps_completeSegment {pq} (s : State) (f : Frame) (seg : Nat) (stall : Nat) (alone : Nat) (gd_s : Good pq s) : Good pq (State.completeSegment s f seg stall alone) := by
  unfold State.completeSegment
  try dsimp only
  repeat' with_reducible first
    | assumption
    | rfl
    | apply keeps_clip
    | apply keeps_composeOver
    | apply keeps_done
    | apply keeps_runTo
    | apply keeps_setFrame
    | apply keeps_ite
theorem keeps_readTiles {pq} (s : State) (f : Frame) (host : List HostTile) (gd_s : Good pq s) : Good pq (State.readTiles s f host).1 := by
  exact keeps_foldl_pair _ _ _ (fun a x h => keeps_readTile a.1 a.2 _ h) gd_s
theorem keeps_composeStep {pq} (s : State) (seg : Nat) (stall : Nat) (alone : Nat) (host : List HostTile) (dram : List DramTile) (errs : List BadWord) (gd_s : Good pq s) : Good pq (State.composeStep s seg stall alone host dram errs) := by
  unfold State.composeStep
  try dsimp only
  repeat' with_reducible first
    | assumption
    | rfl
    | apply keeps_completeSegment
    | apply keeps_composeOver
    | apply keeps_holdSegment
    | apply keeps_memErrors
    | apply keeps_readTiles
    | refine keeps_foldl _ _ _ (fun _ _ _ => ?_) ?_
    | apply keeps_ite
    | split
theorem keeps_composeEnd {pq} (s : State) (gd_s : Good pq s) : Good pq (State.composeEnd s) := by
  unfold State.composeEnd
  try dsimp only
  repeat' with_reducible first
    | assumption
    | rfl
    | apply keeps_composeOver
    | apply keeps_runTo
    | apply keeps_setFrame
    | apply keeps_ite
    | split
theorem keeps_execComposeStart {pq} (headers : List GuardHeader) (s : State) (gd_s : Good pq s) (t9 : State) (ht : execComposeStart headers s = .next t9) : Good pq t9 := by
  simp only [execComposeStart] at ht
  cases ht
  repeat' with_reducible first
    | assumption
    | rfl
    | apply keeps_startCompose
theorem keeps_execSegmentCompose {pq} (seg : Fin 2560) (stallNs : Word) (aloneNs : Word) (host : List HostTile) (dram : List DramTile) (errs : List BadWord) (s : State) (gd_s : Good pq s) (t9 : State) (ht : execSegmentCompose seg stallNs aloneNs host dram errs s = .next t9) : Good pq t9 := by
  simp only [execSegmentCompose] at ht
  cases ht
  repeat' with_reducible first
    | assumption
    | rfl
    | apply keeps_composeStep
theorem keeps_execComposeDeadline {pq} (s : State) (gd_s : Good pq s) (t9 : State) (ht : execComposeDeadline s = .next t9) : Good pq t9 := by
  simp only [execComposeDeadline] at ht
  cases ht
  repeat' with_reducible first
    | assumption
    | rfl
    | apply keeps_composeEnd
end Sys2Proof.Machine
end

