-- ==== Sys2Proof/Laws/KeepsCurb.lean ====
section
/-! SUPPORT. Every operation of Curb.lean keeps the invariant and leaves the queue of commands alone. -/

namespace Sys2Proof.Machine
theorem keeps_setLimit {pq} (s : State) (kind : Nat) (i : Nat) (v : Nat) (gd_s : Good pq s) : Good pq (State.setLimit s kind i v) := by
  unfold State.setLimit
  try dsimp only
  repeat' with_reducible first
    | assumption
    | rfl
    | apply keeps_ite
    | split
    | intro _
    | apply keeps_mk
theorem keeps_limitRecord {pq} (s : State) (r : List Byte) (gd_s : Good pq s) : Good pq (State.limitRecord s r) := by
  unfold State.limitRecord
  try dsimp only
  repeat' with_reducible first
    | assumption
    | rfl
    | apply keeps_setLimit
    | apply keeps_ite
    | split
    | intro _
    | apply keeps_mk
theorem keeps_curbEffect {pq} (s : State) (d : Running) (data : List Byte) (gd_s : Good pq s) : Good pq (State.curbEffect s d data) := by
  unfold State.curbEffect
  try dsimp only
  repeat' with_reducible first
    | assumption
    | rfl
    | apply keeps_done
    | apply keeps_limitRecord
    | apply keeps_setLimit
    | refine keeps_foldl _ _ _ (fun _ _ _ => ?_) ?_
    | apply keeps_ite
    | split
theorem keeps_settlePair {pq} (s : State) (f : Frame) (gd_s : Good pq s) : Good pq (State.settlePair s f) := by
  unfold State.settlePair
  try dsimp only
  repeat' with_reducible first
    | assumption
    | rfl
    | apply keeps_done
    | apply keeps_settleHolds
    | apply keeps_ite
    | split
    | intro _
    | apply keeps_mk
theorem keeps_curbSolve {pq} (s : State) (gd_s : Good pq s) : Good pq (State.curbSolve s) := by
  unfold State.curbSolve
  try dsimp only
  repeat' with_reducible first
    | assumption
    | rfl
    | apply keeps_due
    | apply keeps_setFrame
    | apply keeps_settlePair
    | apply keeps_ite
    | split
    | intro _
    | apply keeps_mk
theorem keeps_curbEvent {pq} (s : State) (typ : Nat) (v : Solve) (key : Nat) (gd_s : Good pq s) : Good pq (State.curbEvent s typ v key) := by
  unfold State.curbEvent
  try dsimp only
  repeat' with_reducible first
    | assumption
    | rfl
    | apply keeps_postNow
theorem keeps_curbEvents {pq} (s : State) (v : Solve) (gd_s : Good pq s) : Good pq (State.curbEvents s v) := by
  unfold State.curbEvents
  try dsimp only
  repeat' with_reducible first
    | assumption
    | rfl
    | apply keeps_curbEvent
    | refine keeps_foldl _ _ _ (fun _ _ _ => ?_) ?_
    | apply keeps_ite
    | split
    | intro _
    | apply keeps_mk
theorem keeps_curbRegs {pq} (s : State) (x : Inputs) (v : Solve) (gd_s : Good pq s) : Good pq (State.curbRegs s x v) := by
  unfold State.curbRegs
  try dsimp only
  repeat' with_reducible first
    | assumption
    | rfl
    | apply keeps_bumpReg
    | apply keeps_setFld
    | apply keeps_setReg
    | refine keeps_foldl _ _ _ (fun _ _ _ => ?_) ?_
    | apply keeps_ite
theorem keeps_closeCurb {pq} (s : State) (gd_s : Good pq s) : Good pq (State.closeCurb s) := by
  unfold State.closeCurb
  try dsimp only
  repeat' with_reducible first
    | assumption
    | rfl
    | apply keeps_curbEvents
    | apply keeps_curbRegs
    | apply keeps_due
    | apply keeps_ite
    | split
    | intro _
    | apply keeps_mk
theorem keeps_correct {pq} (s : State) (ended : Nat) (fp : Nat) (meas : Option Nat) (gd_s : Good pq s) : Good pq (State.correct s ended fp meas) := by
  unfold State.correct
  try dsimp only
  repeat' with_reducible first
    | assumption
    | rfl
    | apply keeps_postNow
    | apply keeps_ite
    | split
    | intro _
    | apply keeps_mk
theorem keeps_correctAll {pq} (s : State) (ended : Nat) (first : Bool) (meas : Nat → Option Nat) (gd_s : Good pq s) : Good pq (State.correctAll s ended first meas) := by
  unfold State.correctAll
  try dsimp only
  repeat' with_reducible first
    | assumption
    | rfl
    | apply keeps_clear
    | apply keeps_correct
    | refine keeps_foldl _ _ _ (fun _ _ _ => ?_) ?_
    | apply keeps_ite
    | split
    | intro _
    | apply keeps_mk
theorem keeps_clearCorr {pq} (s : State) (gd_s : Good pq s) : Good pq (State.clearCorr s) := by
  unfold State.clearCorr
  try dsimp only
  repeat' with_reducible first
    | assumption
    | rfl
    | apply keeps_clear
    | apply keeps_ite
    | split
    | intro _
    | apply keeps_mk
theorem keeps_execCurbLimits {pq} (r : Fin 32) (payload : Option (List Byte)) (s : State) (gd_s : Good pq s) (t9 : State) (ht : execCurbLimits r payload s = .next t9) : Good pq t9 := by
  simp only [execCurbLimits] at ht
  cases ht
  repeat' with_reducible first
    | assumption
    | rfl
    | apply keeps_curbEffect
    | apply keeps_runOp
    | apply keeps_noReserve
theorem keeps_execCurbSolve {pq} (s : State) (gd_s : Good pq s) (t9 : State) (ht : execCurbSolve s = .next t9) : Good pq t9 := by
  simp only [execCurbSolve] at ht
  cases ht
  repeat' with_reducible first
    | assumption
    | rfl
    | apply keeps_curbSolve
theorem keeps_execCurbCorrClear {pq} (s : State) (gd_s : Good pq s) (t9 : State) (ht : execCurbCorrClear s = .next t9) : Good pq t9 := by
  simp only [execCurbCorrClear] at ht
  cases ht
  repeat' with_reducible first
    | assumption
    | rfl
    | apply keeps_clearCorr
    | apply keeps_onBlock
end Sys2Proof.Machine
end

