-- ==== Sys2Proof/Laws/KeepsIngest.lean ====
section
/-! SUPPORT. Every operation of Ingest.lean keeps the invariant and leaves the queue of commands alone. -/

namespace Sys2Proof.Machine
theorem keeps_setStream {pq} (s : State) (i : Nat) (x : Stream) (gd_s : Good pq s) : Good pq (State.setStream s i x) := by
  unfold State.setStream
  try dsimp only
  repeat' with_reducible first
    | assumption
    | rfl
    | apply keeps_ite
    | split
    | intro _
    | apply keeps_mk
theorem keeps_streamState {pq} (s : State) (i : Nat) (st : Nat) (gd_s : Good pq s) : Good pq (State.streamState s i st) := by
  unfold State.streamState
  try dsimp only
  repeat' with_reducible first
    | assumption
    | rfl
    | apply keeps_postNow
    | apply keeps_setStream
theorem keeps_expireMissing {pq} (s : State) (i : Nat) (gd_s : Good pq s) : Good pq (State.expireMissing s i) := by
  unfold State.expireMissing
  try dsimp only
  repeat' with_reducible first
    | assumption
    | rfl
    | apply keeps_bumpReg
    | apply keeps_setStream
theorem keeps_countPath {pq} (s : State) (i : Nat) (secondary : Bool) (n : Nat) (gd_s : Good pq s) : Good pq (State.countPath s i secondary n) := by
  unfold State.countPath
  try dsimp only
  repeat' with_reducible first
    | assumption
    | rfl
    | apply keeps_bump
    | apply keeps_setStream
    | apply keeps_ite
theorem keeps_frameWhole {pq} (s : State) (i : Nat) (f : StreamFrame) (gd_s : Good pq s) : Good pq (State.frameWhole s i f).1 := by
  unfold State.frameWhole
  try dsimp only
  repeat' with_reducible first
    | assumption
    | rfl
    | apply keeps_sendTdm
    | apply keeps_ite
    | split
theorem keeps_checkLine {pq} (s : State) (i : Nat) (f : StreamFrame) (k : Nat) (gd_s : Good pq s) : Good pq (State.checkLine s i f k) := by
  unfold State.checkLine
  try dsimp only
  repeat' with_reducible first
    | assumption
    | rfl
    | apply keeps_sendTdm
    | apply keeps_ite
theorem keeps_lineWhole {pq} (s : State) (i : Nat) (f : StreamFrame) (k : Nat) (gd_s : Good pq s) : Good pq (State.lineWhole s i f k) := by
  unfold State.lineWhole
  try dsimp only
  repeat' with_reducible first
    | assumption
    | rfl
    | apply keeps_checkLine
    | apply keeps_sendTdm
    | apply keeps_ite
theorem keeps_askLines {pq} (s : State) (i : Nat) (f : StreamFrame) (gd_s : Good pq s) : Good pq (State.askLines s i f) := by
  unfold State.askLines
  try dsimp only
  repeat' with_reducible first
    | assumption
    | rfl
    | apply keeps_sendTdm
    | refine keeps_foldl _ _ _ (fun _ _ _ => ?_) ?_
    | apply keeps_ite
theorem keeps_endFrames {pq} (s : State) (i : Nat) (ts : Nat) (marker : Bool) (gd_s : Good pq s) : Good pq (State.endFrames s i ts marker) := by
  unfold State.endFrames
  try dsimp only
  repeat' with_reducible first
    | assumption
    | rfl
    | apply keeps_askLines
    | apply keeps_done
    | apply keeps_setStream
    | refine keeps_foldl _ _ _ (fun _ _ _ => ?_) ?_
theorem keeps_storePacket {pq} (s : State) (i : Nat) (p : StreamPacket) (gd_s : Good pq s) : Good pq (State.storePacket s i p) := by
  unfold State.storePacket
  try dsimp only
  repeat' with_reducible first
    | assumption
    | rfl
    | apply keeps_capture
    | apply keeps_endFrames
    | apply keeps_frameWhole
    | apply keeps_lineWhole
    | apply keeps_setFrame
    | apply keeps_setStream
    | refine keeps_foldl _ _ _ (fun _ _ _ => ?_) ?_
theorem keeps_streamPacket {pq} (s : State) (i : Nat) (p : StreamPacket) (gd_s : Good pq s) : Good pq (State.streamPacket s i p) := by
  unfold State.streamPacket
  try dsimp only
  repeat' with_reducible first
    | assumption
    | rfl
    | apply keeps_countPath
    | apply keeps_expireMissing
    | apply keeps_raise
    | apply keeps_setStream
    | apply keeps_storePacket
    | apply keeps_streamState
    | apply keeps_ite
theorem keeps_streamLost {pq} (s : State) (i : Nat) (gd_s : Good pq s) : Good pq (State.streamLost s i) := by
  unfold State.streamLost
  try dsimp only
  repeat' with_reducible first
    | assumption
    | rfl
    | apply keeps_clear
    | apply keeps_raise
    | apply keeps_runTo
    | apply keeps_streamState
    | apply keeps_ite
theorem keeps_writeStrmCtrl {pq} (s : State) (i : Nat) (v : Nat) (gd_s : Good pq s) : Good pq (State.writeStrmCtrl s i v) := by
  unfold State.writeStrmCtrl
  try dsimp only
  repeat' with_reducible first
    | assumption
    | rfl
    | apply keeps_clear
    | apply keeps_setFld
    | apply keeps_setReg
    | apply keeps_setStream
    | apply keeps_ite
theorem keeps_latchFrame {pq} (s : State) (id : Nat) (l : Layer) (f : StreamFrame) (gd_s : Good pq s) : Good pq (State.latchFrame s id l f) := by
  unfold State.latchFrame
  try dsimp only
  repeat' with_reducible first
    | assumption
    | rfl
    | apply keeps_capture
    | apply keeps_clear
    | apply keeps_clearPoison
    | apply keeps_setLayer
    | apply keeps_setStream
    | apply keeps_streamState
    | apply keeps_ite
theorem keeps_latchStream {pq} (s : State) (id : Nat) (l : Layer) (b : Nat) (gd_s : Good pq s) : Good pq (State.latchStream s id l b) := by
  unfold State.latchStream
  try dsimp only
  repeat' with_reducible first
    | assumption
    | rfl
    | apply keeps_capture
    | apply keeps_clear
    | apply keeps_latchFrame
    | apply keeps_setLayer
    | apply keeps_ite
    | split
theorem keeps_setUni {pq} (s : State) (u : Nat) (x : Universe) (gd_s : Good pq s) : Good pq (State.setUni s u x) := by
  unfold State.setUni
  try dsimp only
  repeat' with_reducible first
    | assumption
    | rfl
    | apply keeps_ite
    | split
    | intro _
    | apply keeps_mk
theorem keeps_sacnEvent {pq} (s : State) (u : Nat) (cause : Nat) (cid : Nat) (gd_s : Good pq s) : Good pq (State.sacnEvent s u cause cid) := by
  unfold State.sacnEvent
  try dsimp only
  repeat' with_reducible first
    | assumption
    | rfl
    | apply keeps_postNow
theorem keeps_selectSource {pq} (s : State) (u : Nat) (gd_s : Good pq s) : Good pq (State.selectSource s u) := by
  unfold State.selectSource
  try dsimp only
  repeat' with_reducible first
    | assumption
    | rfl
    | apply keeps_sacnEvent
    | apply keeps_setUni
    | apply keeps_ite
    | split
theorem keeps_sourceTook {pq} (s : State) (u : Nat) (c : SacnSource) (gd_s : Good pq s) : Good pq (State.sourceTook s u c) := by
  unfold State.sourceTook
  try dsimp only
  repeat' with_reducible first
    | assumption
    | rfl
    | apply keeps_setUni
theorem keeps_dropSource {pq} (s : State) (u : Nat) (cid : Nat) (gd_s : Good pq s) : Good pq (State.dropSource s u cid) := by
  unfold State.dropSource
  try dsimp only
  repeat' with_reducible first
    | assumption
    | rfl
    | apply keeps_selectSource
    | apply keeps_setUni
theorem keeps_sacnData {pq} (s : State) (u : Nat) (p : SacnPacket) (old : Option SacnSource) (gd_s : Good pq s) : Good pq (State.sacnData s u p old) := by
  unfold State.sacnData
  try dsimp only
  repeat' with_reducible first
    | assumption
    | rfl
    | apply keeps_selectSource
    | apply keeps_setUni
    | apply keeps_sourceTook
    | apply keeps_ite
theorem keeps_sacnPacket {pq} (s : State) (port : Nat) (p : SacnPacket) (gd_s : Good pq s) : Good pq (State.sacnPacket s port p) := by
  unfold State.sacnPacket
  try dsimp only
  repeat' with_reducible first
    | assumption
    | rfl
    | apply keeps_dropSource
    | apply keeps_sacnData
    | apply keeps_ite
theorem keeps_syncUni {pq} (s : State) (cid : Nat) (address : Nat) (u : Nat) (gd_s : Good pq s) : Good pq (State.syncUni s cid address u) := by
  unfold State.syncUni
  try dsimp only
  repeat' with_reducible first
    | assumption
    | rfl
    | apply keeps_sourceTook
    | apply keeps_ite
    | split
theorem keeps_sacnSync {pq} (s : State) (port : Nat) (cid : Nat) (address : Nat) (gd_s : Good pq s) : Good pq (State.sacnSync s port cid address) := by
  unfold State.sacnSync
  try dsimp only
  repeat' with_reducible first
    | assumption
    | rfl
    | apply keeps_syncUni
    | refine keeps_foldl _ _ _ (fun _ _ _ => ?_) ?_
    | apply keeps_ite
theorem keeps_sacnSilent {pq} (s : State) (u : Nat) (cid : Nat) (gd_s : Good pq s) : Good pq (State.sacnSilent s u cid) := by
  unfold State.sacnSilent
  try dsimp only
  repeat' with_reducible first
    | assumption
    | rfl
    | apply keeps_dropSource
    | apply keeps_runTo
    | apply keeps_ite
    | split
theorem keeps_latchUni {pq} (s : State) (u : Nat) (cut : Nat) (gd_s : Good pq s) : Good pq (State.latchUni s u cut) := by
  unfold State.latchUni
  try dsimp only
  repeat' with_reducible first
    | assumption
    | rfl
    | apply keeps_setUni
theorem keeps_fillSacn {pq} (s : State) (id : Nat) (l : Layer) (gd_s : Good pq s) : Good pq (State.fillSacn s id l) := by
  unfold State.fillSacn
  try dsimp only
  repeat' with_reducible first
    | assumption
    | rfl
    | apply keeps_clearPoison
    | apply keeps_setLayer
theorem keeps_latchSacn {pq} (s : State) (id : Nat) (l : Layer) (b : Nat) (gd_s : Good pq s) : Good pq (State.latchSacn s id l b) := by
  unfold State.latchSacn
  try dsimp only
  repeat' with_reducible first
    | assumption
    | rfl
    | apply keeps_fillSacn
    | apply keeps_latchUni
    | refine keeps_foldl _ _ _ (fun _ _ _ => ?_) ?_
    | apply keeps_ite
theorem keeps_latchValue {pq} (s : State) (id : Nat) (l : Layer) (gd_s : Good pq s) : Good pq (State.latchValue s id l) := by
  unfold State.latchValue
  try dsimp only
  repeat' with_reducible first
    | assumption
    | rfl
    | apply keeps_clearPoison
    | apply keeps_setLayer
theorem keeps_latchLayer {pq} (s : State) (b : Nat) (id : Nat) (gd_s : Good pq s) : Good pq (State.latchLayer s b id) := by
  unfold State.latchLayer
  try dsimp only
  repeat' with_reducible first
    | assumption
    | rfl
    | apply keeps_latchHost
    | apply keeps_latchSacn
    | apply keeps_latchStream
    | apply keeps_latchValue
    | apply keeps_ite
    | split
theorem keeps_dropCue {pq} (s : State) (port : Nat) (cause : Nat) (seq : Nat) (gd_s : Good pq s) : Good pq (State.dropCue s port cause seq) := by
  unfold State.dropCue
  try dsimp only
  repeat' with_reducible first
    | assumption
    | rfl
    | apply keeps_bumpReg
    | apply keeps_postNow
theorem keeps_acceptCue {pq} (s : State) (port : Nat) (seq : Nat) (b : List Byte) (gd_s : Good pq s) : Good pq (State.acceptCue s port seq b) := by
  unfold State.acceptCue
  try dsimp only
  repeat' with_reducible first
    | assumption
    | rfl
    | apply keeps_holdCue
    | apply keeps_sendJournal
    | apply keeps_soloEntry
    | apply keeps_source
    | apply keeps_ite
    | split
    | intro _
    | apply keeps_mk
theorem keeps_networkCue {pq} (s : State) (port : Nat) (dst : Nat) (b : List Byte) (gd_s : Good pq s) : Good pq (State.networkCue s port dst b) := by
  unfold State.networkCue
  try dsimp only
  repeat' with_reducible first
    | assumption
    | rfl
    | apply keeps_acceptCue
    | apply keeps_bridleDeny
    | apply keeps_dropCue
    | apply keeps_ite
    | split
theorem keeps_execNetworkCueReceive {pq} (port : Fin 4) (dstPort : Half) (datagram : List Byte) (s : State) (gd_s : Good pq s) (t9 : State) (ht : execNetworkCueReceive port dstPort datagram s = .next t9) : Good pq t9 := by
  simp only [execNetworkCueReceive] at ht
  cases ht
  repeat' with_reducible first
    | assumption
    | rfl
    | apply keeps_networkCue
    | apply keeps_ite
theorem keeps_execStreamLossTimeout {pq} (i : Fin 16) (s : State) (gd_s : Good pq s) (t9 : State) (ht : execStreamLossTimeout i s = .next t9) : Good pq t9 := by
  simp only [execStreamLossTimeout] at ht
  cases ht
  repeat' with_reducible first
    | assumption
    | rfl
    | apply keeps_streamLost
theorem keeps_execSacnSourceTimeout {pq} (u : Half) (cid : BitVec 128) (s : State) (gd_s : Good pq s) (t9 : State) (ht : execSacnSourceTimeout u cid s = .next t9) : Good pq t9 := by
  simp only [execSacnSourceTimeout] at ht
  cases ht
  repeat' with_reducible first
    | assumption
    | rfl
    | apply keeps_sacnSilent
end Sys2Proof.Machine
end

