-- ==== Sys2Proof/Laws/KeepsEgress.lean ====
section
/-! SUPPORT. Every operation of Egress.lean keeps the invariant and leaves the queue of commands alone. -/

namespace Sys2Proof.Machine
theorem keeps_setPort {pq} (s : State) (p : Nat) (x : TracePort) (gd_s : Good pq s) : Good pq (State.setPort s p x) := by
  unfold State.setPort
  try dsimp only
  repeat' with_reducible first
    | assumption
    | rfl
    | apply keeps_ite
    | split
    | intro _
    | apply keeps_mk
theorem keeps_setTeam {pq} (s : State) (t : Nat) (x : TeamOut) (gd_s : Good pq s) : Good pq (State.setTeam s t x) := by
  unfold State.setTeam
  try dsimp only
  repeat' with_reducible first
    | assumption
    | rfl
    | apply keeps_ite
    | split
    | intro _
    | apply keeps_mk
theorem keeps_putVals {pq} (s : State) (ys : List (Nat × Nat × Nat)) (gd_s : Good pq s) : Good pq (State.putVals s ys) := by
  unfold State.putVals
  try dsimp only
  repeat' with_reducible first
    | assumption
    | rfl
    | refine keeps_foldl _ _ _ (fun _ _ _ => ?_) ?_
    | apply keeps_ite
    | split
    | intro _
    | apply keeps_mk
theorem keeps_putDigest {pq} (s : State) (g : Nat) (p : Nat) (v : Nat) (gd_s : Good pq s) : Good pq (State.putDigest s g p v) := by
  unfold State.putDigest
  try dsimp only
  repeat' with_reducible first
    | assumption
    | rfl
    | apply keeps_ite
    | split
    | intro _
    | apply keeps_mk
theorem keeps_countUniverses {pq} (s : State) (p : Nat) (g : Nat) (gd_s : Good pq s) : Good pq (State.countUniverses s p g) := by
  unfold State.countUniverses
  try dsimp only
  repeat' with_reducible first
    | assumption
    | rfl
    | apply keeps_done
    | apply keeps_setPort
    | refine keeps_foldl _ _ _ (fun _ _ _ => ?_) ?_
    | apply keeps_ite
theorem keeps_setFrozen {pq} (s : State) (t : Nat) (v : Bool) (gd_s : Good pq s) : Good pq (State.setFrozen s t v) := by
  unfold State.setFrozen
  try dsimp only
  repeat' with_reducible first
    | assumption
    | rfl
    | apply keeps_setFld
theorem keeps_atClose {pq} (s : State) (e : Event) (gd_s : Good pq s) : Good pq (State.atClose s e) := by
  unfold State.atClose
  try dsimp only
  repeat' with_reducible first
    | assumption
    | rfl
    | apply keeps_ite
    | split
    | intro _
    | apply keeps_mk
theorem keeps_unfreeze {pq} (s : State) (t : Nat) (cause : Nat) (z : Nat) (gd_s : Good pq s) : Good pq (State.unfreeze s t cause z) := by
  unfold State.unfreeze
  try dsimp only
  repeat' with_reducible first
    | assumption
    | rfl
    | apply keeps_atClose
    | apply keeps_setFrozen
theorem keeps_fixTeam {pq} (s : State) (f : Frame) (t : Nat) (gd_s : Good pq s) : Good pq (State.fixTeam s f t) := by
  unfold State.fixTeam
  try dsimp only
  repeat' with_reducible first
    | assumption
    | rfl
    | apply keeps_atClose
    | apply keeps_setFld
    | apply keeps_setFrozen
    | apply keeps_setReg64
    | apply keeps_setTeam
    | apply keeps_unfreeze
    | refine keeps_foldl _ _ _ (fun _ _ _ => ?_) ?_
    | apply keeps_ite
theorem keeps_freezeEnable {pq} (s : State) (t : Nat) (on : Bool) (gd_s : Good pq s) : Good pq (State.freezeEnable s t on) := by
  unfold State.freezeEnable
  try dsimp only
  repeat' with_reducible first
    | assumption
    | rfl
    | apply keeps_setTeam
    | apply keeps_unfreeze
    | apply keeps_ite
theorem keeps_noteFetch {pq} (s : State) (p : Nat) (starved : Nat) (l3 : Nat) (level : Nat) (gd_s : Good pq s) : Good pq (State.noteFetch s p starved l3 level) := by
  unfold State.noteFetch
  try dsimp only
  repeat' with_reducible first
    | assumption
    | rfl
    | apply keeps_bump
    | apply keeps_bumpReg
    | apply keeps_setFld
    | apply keeps_setPort
theorem keeps_clearSegment {pq} (s : State) (g : Nat) (gd_s : Good pq s) : Good pq (State.clearSegment s g) := by
  unfold State.clearSegment
  try dsimp only
  repeat' with_reducible first
    | assumption
    | rfl
    | apply keeps_ite
    | split
    | intro _
    | apply keeps_mk
theorem keeps_partDone {pq} (s : State) (f : Frame) (g : Nat) (gd_s : Good pq s) : Good pq (State.partDone s f g) := by
  unfold State.partDone
  try dsimp only
  repeat' with_reducible first
    | assumption
    | rfl
    | apply keeps_clearSegment
    | apply keeps_ite
theorem keeps_encodePort {pq} (s : State) (f : Frame) (p : Nat) (g : Nat) (lost : Bool) (gd_s : Good pq s) : Good pq (State.encodePort s f p g lost) := by
  unfold State.encodePort
  try dsimp only
  repeat' with_reducible first
    | assumption
    | rfl
    | apply keeps_countUniverses
    | apply keeps_fixTeam
    | apply keeps_partDone
    | apply keeps_putDigest
    | apply keeps_putVals
    | apply keeps_setFld
    | apply keeps_setPort
    | apply keeps_ite
theorem keeps_encodeResidual {pq} (s : State) (f : Frame) (gd_s : Good pq s) : Good pq (State.encodeResidual s f) := by
  unfold State.encodeResidual
  try dsimp only
  repeat' with_reducible first
    | assumption
    | rfl
    | apply keeps_partDone
    | apply keeps_putDigest
    | apply keeps_putVals
    | apply keeps_ite
    | split
    | intro _
    | apply keeps_mk
theorem keeps_encodeNext {pq} (s : State) (p : Nat) (starved : Nat) (l3 : Nat) (level : Nat) (errs : List BadWord) (gd_s : Good pq s) : Good pq (State.encodeNext s p starved l3 level errs) := by
  unfold State.encodeNext
  try dsimp only
  repeat' with_reducible first
    | assumption
    | rfl
    | apply keeps_encodePort
    | apply keeps_encodeResidual
    | apply keeps_memErrors
    | apply keeps_noteFetch
    | apply keeps_ite
    | split
theorem keeps_placeFrame {pq} (s : State) (p : Nat) (kind : FrameKind) (octets : Nat) (start : Nat) (bytes : List Byte) (gd_s : Good pq s) : Good pq (State.placeFrame s p kind octets start bytes) := by
  unfold State.placeFrame
  try dsimp only
  repeat' with_reducible first
    | assumption
    | rfl
    | apply keeps_emit
    | apply keeps_setPort
theorem keeps_placeTrace {pq} (s : State) (p : Nat) (kind : FrameKind) (octets : Nat) (start : Nat) (bytes : List Byte) (gd_s : Good pq s) : Good pq (State.placeTrace s p kind octets start bytes) := by
  unfold State.placeTrace
  try dsimp only
  repeat' with_reducible first
    | assumption
    | rfl
    | apply keeps_placeFrame
    | apply keeps_setPort
theorem keeps_sendData {pq} (s : State) (f : Frame) (p : Nat) (r : Nat × Nat) (cont : Bool) (start : Nat) (gd_s : Good pq s) : Good pq (State.sendData s f p r cont start) := by
  unfold State.sendData
  try dsimp only
  repeat' with_reducible first
    | assumption
    | rfl
    | apply keeps_placeTrace
    | apply keeps_ite
    | split
theorem keeps_sendUniverse {pq} (s : State) (f : Frame) (p : Nat) (u : Nat × Nat) (start : Nat) (gd_s : Good pq s) : Good pq (State.sendUniverse s f p u start) := by
  unfold State.sendUniverse
  try dsimp only
  repeat' with_reducible first
    | assumption
    | rfl
    | apply keeps_placeFrame
theorem keeps_sendFrame {pq} (f : Frame) (p : Nat) (last : Nat) (at' : Nat) (acc : State × Bool) (r : (Nat × Nat) × Nat) (gd_acc : Good pq acc.1) : Good pq (sendFrame f p last at' acc r).1 := by
  unfold sendFrame
  dsimp only
  split
  · exact gd_acc
  · split
    · exact keeps_sendUniverse _ _ _ _ _ gd_acc
    · exact keeps_sendData _ _ _ _ _ _ gd_acc
theorem keeps_sendUnit {pq} (s : State) (f : Frame) (p : Nat) (u : Nat × Nat) (at' : Nat) (gd_s : Good pq s) : Good pq (State.sendUnit s f p u at') := by
  have hf := keeps_foldl_pair (pq := pq) (sendFrame f p (s.unitStop p u) at') (s.unitFrames f p u) (s, true)
    (fun a x h => keeps_sendFrame f p _ _ a x h) gd_s
  unfold State.sendUnit
  split
  · exact gd_s
  · dsimp only
    split
    · exact keeps_setPort _ _ _ hf
    · exact hf
theorem keeps_sendSync {pq} (s : State) (start : Nat) (p : Nat) (gd_s : Good pq s) : Good pq (State.sendSync s start p) := by
  unfold State.sendSync
  try dsimp only
  repeat' with_reducible first
    | assumption
    | rfl
    | apply keeps_placeTrace
    | apply keeps_setPort
    | apply keeps_ite
    | split
end Sys2Proof.Machine
end

