-- ==== Sys2Proof/Laws/KeepsScanout.lean ====
section
/-! SUPPORT. Every operation of Scanout.lean keeps the invariant and leaves the queue of commands alone. -/

namespace Sys2Proof.Machine
theorem keeps_rasterBegin {pq} (s : State) (t : Nat) (gd_s : Good pq s) : Good pq (State.rasterBegin s t) := by
  unfold State.rasterBegin
  try dsimp only
  repeat' with_reducible first
    | assumption
    | rfl
    | apply keeps_runTo
    | apply keeps_sendSync
    | apply keeps_setPort
    | apply keeps_setTeam
    | refine keeps_foldl _ _ _ (fun _ _ _ => ?_) ?_
    | apply keeps_ite
    | split
theorem keeps_noteSlip {pq} (s : State) (p : Nat) (at' : Nat) (gd_s : Good pq s) : Good pq (State.noteSlip s p at') := by
  unfold State.noteSlip
  try dsimp only
  repeat' with_reducible first
    | assumption
    | rfl
    | apply keeps_bump
    | apply keeps_ite
theorem keeps_sendDeferred {pq} (s : State) (f : Frame) (p : Nat) (u : Nat × Nat) (at' : Nat) (gd_s : Good pq s) : Good pq (State.sendDeferred s f p u at') := by
  unfold State.sendDeferred
  try dsimp only
  repeat' with_reducible first
    | assumption
    | rfl
    | apply keeps_sendUnit
    | apply keeps_setPort
theorem keeps_pruneDeferred {pq} (s : State) (p : Nat) (gd_s : Good pq s) : Good pq (State.pruneDeferred s p) := by
  unfold State.pruneDeferred
  try dsimp only
  repeat' with_reducible first
    | assumption
    | rfl
    | apply keeps_setPort
theorem keeps_runLine {pq} (s : State) (f : Frame) (p : Nat) (n : Nat) (at' : Nat) (gd_s : Good pq s) : Good pq (State.runLine s f p n at') := by
  unfold State.runLine
  try dsimp only
  repeat' with_reducible first
    | assumption
    | rfl
    | apply keeps_bump
    | apply keeps_noteSlip
    | apply keeps_pruneDeferred
    | apply keeps_sendDeferred
    | apply keeps_sendUnit
    | apply keeps_setPort
    | apply keeps_ite
    | split
theorem keeps_nextLine {pq} (s : State) (p : Nat) (gd_s : Good pq s) : Good pq (State.nextLine s p) := by
  unfold State.nextLine
  try dsimp only
  repeat' with_reducible first
    | assumption
    | rfl
    | apply keeps_runLine
    | apply keeps_runTo
    | apply keeps_setPort
    | apply keeps_ite
    | split
theorem keeps_drainDeferred {pq} (s : State) (f : Frame) (p : Nat) (at' : Nat) (gd_s : Good pq s) : Good pq (State.drainDeferred s f p at') := by
  unfold State.drainDeferred
  try dsimp only
  repeat' with_reducible first
    | assumption
    | rfl
    | apply keeps_sendDeferred
    | refine keeps_foldl _ _ _ (fun _ _ _ => ?_) ?_
theorem keeps_rasterFinish {pq} (s : State) (t : Nat) (gd_s : Good pq s) : Good pq (State.rasterFinish s t) := by
  unfold State.rasterFinish
  try dsimp only
  repeat' with_reducible first
    | assumption
    | rfl
    | apply keeps_drainDeferred
    | apply keeps_pruneDeferred
    | apply keeps_runTo
    | apply keeps_setPort
    | refine keeps_foldl _ _ _ (fun _ _ _ => ?_) ?_
    | apply keeps_ite
    | split
theorem keeps_looseBegin {pq} (s : State) (t : Nat) (gd_s : Good pq s) : Good pq (State.looseBegin s t) := by
  unfold State.looseBegin
  try dsimp only
  repeat' with_reducible first
    | assumption
    | rfl
    | apply keeps_sendSync
    | apply keeps_setTeam
    | refine keeps_foldl _ _ _ (fun _ _ _ => ?_) ?_
theorem keeps_stretchLimit {pq} (s : State) (t : Nat) (gd_s : Good pq s) : Good pq (State.stretchLimit s t) := by
  unfold State.stretchLimit
  try dsimp only
  repeat' with_reducible first
    | assumption
    | rfl
    | apply keeps_bump
    | apply keeps_looseBegin
    | apply keeps_runTo
    | apply keeps_ite
    | split
theorem keeps_loseUnit {pq} (s : State) (p : Nat) (u : Nat × Nat) (gd_s : Good pq s) : Good pq (State.loseUnit s p u) := by
  unfold State.loseUnit
  try dsimp only
  repeat' with_reducible first
    | assumption
    | rfl
    | apply keeps_setPort
theorem keeps_tryUnit {pq} (s : State) (f : Frame) (p : Nat) (u : Nat × Nat) (lost : Bool) (gd_s : Good pq s) : Good pq (State.tryUnit s f p u lost) := by
  unfold State.tryUnit
  try dsimp only
  repeat' with_reducible first
    | assumption
    | rfl
    | apply keeps_loseUnit
    | apply keeps_sendUnit
    | apply keeps_ite
theorem keeps_looseStart {pq} (s : State) (f : Frame) (t : Nat) (gd_s : Good pq s) : Good pq (State.looseStart s f t) := by
  unfold State.looseStart
  try dsimp only
  repeat' with_reducible first
    | assumption
    | rfl
    | apply keeps_looseBegin
    | apply keeps_runTo
    | apply keeps_ite
theorem keeps_transmitData {pq} (s : State) (p : Nat) (errs : List BadWord) (gd_s : Good pq s) : Good pq (State.transmitData s p errs) := by
  unfold State.transmitData
  try dsimp only
  repeat' with_reducible first
    | assumption
    | rfl
    | apply keeps_looseStart
    | apply keeps_memErrors
    | apply keeps_setPort
    | apply keeps_tryUnit
    | apply keeps_ite
    | split
theorem keeps_markReady {pq} (s : State) (g : Nat) (gd_s : Good pq s) : Good pq (State.markReady s g) := by
  unfold State.markReady
  try dsimp only
  repeat' with_reducible first
    | assumption
    | rfl
    | apply keeps_ite
    | split
    | intro _
    | apply keeps_mk
theorem keeps_discardPart {pq} (s : State) (g : Nat) (p : Nat) (gd_s : Good pq s) : Good pq (State.discardPart s g p) := by
  unfold State.discardPart
  try dsimp only
  repeat' with_reducible first
    | assumption
    | rfl
    | apply keeps_bumpReg
    | apply keeps_setPort
    | apply keeps_ite
theorem keeps_partReady {pq} (s : State) (g : Nat) (gd_s : Good pq s) : Good pq (State.partReady s g) := by
  unfold State.partReady
  try dsimp only
  repeat' with_reducible first
    | assumption
    | rfl
    | apply keeps_discardPart
    | apply keeps_looseStart
    | apply keeps_markReady
    | refine keeps_foldl _ _ _ (fun _ _ _ => ?_) ?_
    | apply keeps_ite
    | split
theorem keeps_countLate {pq} (s : State) (f : Frame) (t : Nat) (gd_s : Good pq s) : Good pq (State.countLate s f t) := by
  unfold State.countLate
  try dsimp only
  repeat' with_reducible first
    | assumption
    | rfl
    | apply keeps_bump
    | apply keeps_postNow
    | apply keeps_ite
    | split
    | intro _
    | apply keeps_mk
theorem keeps_sendSacnSync {pq} (s : State) (p : Nat) (gd_s : Good pq s) : Good pq (State.sendSacnSync s p) := by
  unfold State.sendSacnSync
  try dsimp only
  repeat' with_reducible first
    | assumption
    | rfl
    | apply keeps_placeFrame
    | apply keeps_sacnSync
    | apply keeps_setPort
    | apply keeps_ite
theorem keeps_releaseEnd {pq} (s : State) (gd_s : Good pq s) : Good pq (State.releaseEnd s) := by
  unfold State.releaseEnd
  try dsimp only
  repeat' with_reducible first
    | assumption
    | rfl
    | apply keeps_countLate
    | apply keeps_fixTeam
    | apply keeps_runTo
    | apply keeps_sendSacnSync
    | refine keeps_foldl _ _ _ (fun _ _ _ => ?_) ?_
    | apply keeps_ite
    | split
    | intro _
    | apply keeps_mk
theorem keeps_queueMgmt {pq} (s : State) (p : Nat) (q : Nat) (m : MgmtFrame) (gd_s : Good pq s) : Good pq (State.queueMgmt s p q m) := by
  unfold State.queueMgmt
  try dsimp only
  repeat' with_reducible first
    | assumption
    | rfl
    | apply keeps_setPort
    | apply keeps_ite
theorem keeps_transmitMgmt {pq} (s : State) (p : Nat) (gd_s : Good pq s) : Good pq (State.transmitMgmt s p) := by
  unfold State.transmitMgmt
  try dsimp only
  repeat' with_reducible first
    | assumption
    | rfl
    | apply keeps_placeTrace
    | apply keeps_setPort
    | apply keeps_ite
    | split
theorem keeps_setLink {pq} (s : State) (w : Nat) (up : Bool) (gd_s : Good pq s) : Good pq (State.setLink s w up) := by
  unfold State.setLink
  try dsimp only
  repeat' with_reducible first
    | assumption
    | rfl
    | apply keeps_ite
    | split
    | intro _
    | apply keeps_mk
theorem keeps_sendDiscovery {pq} (s : State) (p : Nat) (gd_s : Good pq s) : Good pq (State.sendDiscovery s p) := by
  unfold State.sendDiscovery
  try dsimp only
  repeat' with_reducible first
    | assumption
    | rfl
    | apply keeps_placeFrame
    | apply keeps_ite
theorem keeps_terminate {pq} (s : State) (p : Nat) (gd_s : Good pq s) : Good pq (State.terminate s p) := by
  unfold State.terminate
  try dsimp only
  repeat' with_reducible first
    | assumption
    | rfl
    | apply keeps_placeFrame
    | apply keeps_setPort
    | refine keeps_foldl _ _ _ (fun _ _ _ => ?_) ?_
    | apply keeps_ite
theorem keeps_execPartEncode {pq} (path : Fin 9) (starvedNs : Word) (l3 : Word) (level : Fin 4) (errs : List BadWord) (s : State) (gd_s : Good pq s) (t9 : State) (ht : execPartEncode path starvedNs l3 level errs s = .next t9) : Good pq t9 := by
  simp only [execPartEncode] at ht
  cases ht
  repeat' with_reducible first
    | assumption
    | rfl
    | apply keeps_encodeNext
theorem keeps_execPartReady {pq} (seg : Fin 2560) (s : State) (gd_s : Good pq s) (t9 : State) (ht : execPartReady seg s = .next t9) : Good pq t9 := by
  simp only [execPartReady] at ht
  cases ht
  repeat' with_reducible first
    | assumption
    | rfl
    | apply keeps_partReady
theorem keeps_execRasterStart {pq} (team : Fin 16) (s : State) (gd_s : Good pq s) (t9 : State) (ht : execRasterStart team s = .next t9) : Good pq t9 := by
  simp only [execRasterStart] at ht
  cases ht
  repeat' with_reducible first
    | assumption
    | rfl
    | apply keeps_rasterBegin
theorem keeps_execRasterLine {pq} (port : Fin 8) (s : State) (gd_s : Good pq s) (t9 : State) (ht : execRasterLine port s = .next t9) : Good pq t9 := by
  simp only [execRasterLine] at ht
  cases ht
  repeat' with_reducible first
    | assumption
    | rfl
    | apply keeps_nextLine
theorem keeps_execRasterEnd {pq} (team : Fin 16) (s : State) (gd_s : Good pq s) (t9 : State) (ht : execRasterEnd team s = .next t9) : Good pq t9 := by
  simp only [execRasterEnd] at ht
  cases ht
  repeat' with_reducible first
    | assumption
    | rfl
    | apply keeps_rasterFinish
theorem keeps_execLooseUpperBound {pq} (team : Fin 16) (s : State) (gd_s : Good pq s) (t9 : State) (ht : execLooseUpperBound team s = .next t9) : Good pq t9 := by
  simp only [execLooseUpperBound] at ht
  cases ht
  repeat' with_reducible first
    | assumption
    | rfl
    | apply keeps_stretchLimit
theorem keeps_execDataFrameTransmit {pq} (port : Fin 8) (errs : List BadWord) (s : State) (gd_s : Good pq s) (t9 : State) (ht : execDataFrameTransmit port errs s = .next t9) : Good pq t9 := by
  simp only [execDataFrameTransmit] at ht
  cases ht
  repeat' with_reducible first
    | assumption
    | rfl
    | apply keeps_transmitData
theorem keeps_execManagementFrameTransmit {pq} (port : Fin 8) (s : State) (gd_s : Good pq s) (t9 : State) (ht : execManagementFrameTransmit port s = .next t9) : Good pq t9 := by
  simp only [execManagementFrameTransmit] at ht
  cases ht
  repeat' with_reducible first
    | assumption
    | rfl
    | apply keeps_transmitMgmt
theorem keeps_execReleaseDeadline {pq} (s : State) (gd_s : Good pq s) (t9 : State) (ht : execReleaseDeadline s = .next t9) : Good pq t9 := by
  simp only [execReleaseDeadline] at ht
  cases ht
  repeat' with_reducible first
    | assumption
    | rfl
    | apply keeps_releaseEnd
theorem keeps_execEthLinkChange {pq} (w : Fin 15) (up : Bool) (s : State) (gd_s : Good pq s) (t9 : State) (ht : execEthLinkChange w up s = .next t9) : Good pq t9 := by
  simp only [execEthLinkChange] at ht
  cases ht
  repeat' with_reducible first
    | assumption
    | rfl
    | apply keeps_setLink
theorem keeps_execSacnDiscoverySend {pq} (port : Fin 8) (s : State) (gd_s : Good pq s) (t9 : State) (ht : execSacnDiscoverySend port s = .next t9) : Good pq t9 := by
  simp only [execSacnDiscoverySend] at ht
  cases ht
  repeat' with_reducible first
    | assumption
    | rfl
    | apply keeps_sendDiscovery
end Sys2Proof.Machine
end

