-- ==== Sys2Proof/Laws/KeepsNodes.lean ====
section
/-! SUPPORT. Every operation of Nodes.lean keeps the invariant and leaves the queue of commands alone. -/

namespace Sys2Proof.Machine
theorem keeps_setNode {pq} (s : State) (n : Nat) (x : Node) (gd_s : Good pq s) : Good pq (State.setNode s n x) := by
  unfold State.setNode
  try dsimp only
  repeat' with_reducible first
    | assumption
    | rfl
    | apply keeps_ite
    | split
    | intro _
    | apply keeps_mk
theorem keeps_queueKey {pq} (s : State) (n : Nat) (gd_s : Good pq s) : Good pq (State.queueKey s n) := by
  unfold State.queueKey
  try dsimp only
  repeat' with_reducible first
    | assumption
    | rfl
    | apply keeps_queueMgmt
    | apply keeps_ite
    | split
theorem keeps_postNode {pq} (s : State) (n : Nat) (level : Nat) (port : Nat) (cause : Nat) (gd_s : Good pq s) : Good pq (State.postNode s n level port cause) := by
  unfold State.postNode
  try dsimp only
  repeat' with_reducible first
    | assumption
    | rfl
    | apply keeps_postNow
theorem keeps_hearNode {pq} (s : State) (n : Nat) (level : Nat) (p : Nat) (seq : Nat) (image : Nat) (gd_s : Good pq s) : Good pq (State.hearNode s n level p seq image) := by
  unfold State.hearNode
  try dsimp only
  repeat' with_reducible first
    | assumption
    | rfl
    | apply keeps_postNode
    | apply keeps_queueKey
    | apply keeps_setNode
    | apply keeps_ite
theorem keeps_settleNodes {pq} (s : State) (gd_s : Good pq s) : Good pq (State.settleNodes s) := by
  unfold State.settleNodes
  try dsimp only
  repeat' with_reducible first
    | assumption
    | rfl
    | apply keeps_ite
    | split
    | intro _
    | apply keeps_mk
theorem keeps_queuePlan {pq} (s : State) (p : Nat) (n : Nat) (body : List Byte) (gd_s : Good pq s) : Good pq (State.queuePlan s p n body) := by
  unfold State.queuePlan
  try dsimp only
  repeat' with_reducible first
    | assumption
    | rfl
    | apply keeps_queueMgmt
theorem keeps_setDmx {pq} (s : State) (n : Nat) (x : DmxPort) (gd_s : Good pq s) : Good pq (State.setDmx s n x) := by
  unfold State.setDmx
  try dsimp only
  repeat' with_reducible first
    | assumption
    | rfl
    | apply keeps_ite
    | split
    | intro _
    | apply keeps_mk
theorem keeps_setRelay {pq} (s : State) (i : Nat) (x : RelayRec) (gd_s : Good pq s) : Good pq (State.setRelay s i x) := by
  unfold State.setRelay
  try dsimp only
  repeat' with_reducible first
    | assumption
    | rfl
    | apply keeps_setReg
    | apply keeps_ite
    | split
    | intro _
    | apply keeps_mk
theorem keeps_postRelay {pq} (s : State) (image : Nat) (total : Nat) (cause : Nat) (gd_s : Good pq s) : Good pq (State.postRelay s image total cause) := by
  unfold State.postRelay
  try dsimp only
  repeat' with_reducible first
    | assumption
    | rfl
    | apply keeps_postNow
theorem keeps_claimRelay {pq} (s : State) (image : Nat) (total : Nat) (gd_s : Good pq s) : Good pq (State.claimRelay s image total) := by
  unfold State.claimRelay
  try dsimp only
  repeat' with_reducible first
    | assumption
    | rfl
    | apply keeps_postRelay
    | apply keeps_setRelay
    | refine keeps_foldl _ _ _ (fun _ _ _ => ?_) ?_
    | apply keeps_ite
    | split
theorem keeps_relayDone {pq} (s : State) (b : List Byte) (gd_s : Good pq s) : Good pq (State.relayDone s b).1 := by
  unfold State.relayDone
  try dsimp only
  repeat' with_reducible first
    | assumption
    | rfl
    | apply keeps_postRelay
    | apply keeps_setRelay
    | apply keeps_ite
    | split
theorem keeps_sendCmd {pq} (s : State) (c : NodeCmd) (gd_s : Good pq s) : Good pq (State.sendCmd s c) := by
  unfold State.sendCmd
  try dsimp only
  repeat' with_reducible first
    | assumption
    | rfl
    | apply keeps_queueMgmt
    | refine keeps_foldl _ _ _ (fun _ _ _ => ?_) ?_
    | apply keeps_ite
theorem keeps_putCmd {pq} (s : State) (c : NodeCmd) (gd_s : Good pq s) : Good pq (State.putCmd s c) := by
  unfold State.putCmd
  try dsimp only
  repeat' with_reducible first
    | assumption
    | rfl
    | apply keeps_ite
    | split
    | intro _
    | apply keeps_mk
theorem keeps_dropCmd {pq} (s : State) (c : NodeCmd) (gd_s : Good pq s) : Good pq (State.dropCmd s c) := by
  unfold State.dropCmd
  try dsimp only
  repeat' with_reducible first
    | assumption
    | rfl
    | apply keeps_ite
    | split
    | intro _
    | apply keeps_mk
theorem keeps_endCmd {pq} (s : State) (c : NodeCmd) (gd_s : Good pq s) : Good pq (State.endCmd s c) := by
  unfold State.endCmd
  try dsimp only
  repeat' with_reducible first
    | assumption
    | rfl
    | apply keeps_cmdResult
    | apply keeps_dropCmd
    | apply keeps_postNow
    | apply keeps_relayDone
    | apply keeps_ite
theorem keeps_journalItem {pq} (s : State) (origin : Nat) (d : Running) (data : List Byte) (gd_s : Good pq s) : Good pq (State.journalItem s origin d data) := by
  unfold State.journalItem
  try dsimp only
  repeat' with_reducible first
    | assumption
    | rfl
    | apply keeps_sendJournal
    | apply keeps_soloEntry
    | apply keeps_ite
theorem keeps_openCmd {pq} (s : State) (d : Running) (c : NodeCmd) (gd_s : Good pq s) : Good pq (State.openCmd s d c) := by
  unfold State.openCmd
  try dsimp only
  repeat' with_reducible first
    | assumption
    | rfl
    | apply keeps_journalItem
    | apply keeps_endCmd
    | apply keeps_sendCmd
    | apply keeps_ite
    | split
    | intro _
    | apply keeps_mk
theorem keeps_beginCmd {pq} (s : State) (d : Running) (gd_s : Good pq s) : Good pq (State.beginCmd s d) := by
  unfold State.beginCmd
  try dsimp only
  repeat' with_reducible first
    | assumption
    | rfl
    | apply keeps_openCmd
    | apply keeps_finish
theorem keeps_beginChunk {pq} (s : State) (d : Running) (data : List Byte) (gd_s : Good pq s) : Good pq (State.beginChunk s d data) := by
  unfold State.beginChunk
  try dsimp only
  repeat' with_reducible first
    | assumption
    | rfl
    | apply keeps_openCmd
    | apply keeps_finish
    | apply keeps_claimRelay
theorem keeps_cmdReply {pq} (s : State) (n : Nat) (id : Nat) (result : Nat) (gd_s : Good pq s) : Good pq (State.cmdReply s n id result) := by
  unfold State.cmdReply
  try dsimp only
  repeat' with_reducible first
    | assumption
    | rfl
    | apply keeps_endCmd
    | apply keeps_putCmd
    | apply keeps_ite
    | split
theorem keeps_cmdTimeout {pq} (s : State) (id : Nat) (gd_s : Good pq s) : Good pq (State.cmdTimeout s id) := by
  unfold State.cmdTimeout
  try dsimp only
  repeat' with_reducible first
    | assumption
    | rfl
    | apply keeps_endCmd
    | apply keeps_putCmd
    | apply keeps_sendCmd
    | apply keeps_ite
    | split
theorem keeps_resendCmds {pq} (s : State) (gd_s : Good pq s) : Good pq (State.resendCmds s) := by
  unfold State.resendCmds
  try dsimp only
  repeat' with_reducible first
    | assumption
    | rfl
    | apply keeps_sendCmd
    | refine keeps_foldl _ _ _ (fun _ _ _ => ?_) ?_
    | apply keeps_ite
    | split
    | intro _
    | apply keeps_mk
theorem keeps_dmxStart {pq} (s : State) (n : Nat) (gd_s : Good pq s) : Good pq (State.dmxStart s n) := by
  unfold State.dmxStart
  try dsimp only
  repeat' with_reducible first
    | assumption
    | rfl
    | apply keeps_emit
    | apply keeps_raise
    | apply keeps_setDmx
    | apply keeps_setFld
    | apply keeps_ite
theorem keeps_rdmLoad {pq} (s : State) (n : Nat) (gd_s : Good pq s) : Good pq (State.rdmLoad s n) := by
  unfold State.rdmLoad
  try dsimp only
  repeat' with_reducible first
    | assumption
    | rfl
    | apply keeps_setDmx
    | apply keeps_ite
    | split
theorem keeps_rdmEnd {pq} (s : State) (n : Nat) (st : Nat) (gd_s : Good pq s) : Good pq (State.rdmEnd s n st) := by
  unfold State.rdmEnd
  try dsimp only
  repeat' with_reducible first
    | assumption
    | rfl
    | apply keeps_cmdResult
    | apply keeps_rdmLoad
    | apply keeps_setDmx
    | apply keeps_ite
    | split
theorem keeps_rdmNext {pq} (s : State) (n : Nat) (more : List RdmJob) (gd_s : Good pq s) : Good pq (State.rdmNext s n more) := by
  unfold State.rdmNext
  try dsimp only
  repeat' with_reducible first
    | assumption
    | rfl
    | apply keeps_rdmEnd
    | apply keeps_setDmx
    | apply keeps_ite
theorem keeps_rdmPlace {pq} (s : State) (n : Nat) (gd_s : Good pq s) : Good pq (State.rdmPlace s n) := by
  unfold State.rdmPlace
  try dsimp only
  repeat' with_reducible first
    | assumption
    | rfl
    | apply keeps_emit
    | apply keeps_rdmNext
    | apply keeps_setDmx
    | apply keeps_ite
    | split
theorem keeps_beginRdm {pq} (s : State) (d : Running) (gd_s : Good pq s) : Good pq (State.beginRdm s d) := by
  unfold State.beginRdm
  try dsimp only
  repeat' with_reducible first
    | assumption
    | rfl
    | apply keeps_finish
    | apply keeps_rdmLoad
    | apply keeps_rdmPlace
    | apply keeps_setDmx
    | apply keeps_ite
theorem keeps_nodeEffect {pq} (s : State) (d : Running) (x2 : List Byte) (gd_s : Good pq s) : Good pq (State.nodeEffect s d x2) := by
  unfold State.nodeEffect
  try dsimp only
  repeat' with_reducible first
    | assumption
    | rfl
    | apply keeps_beginCmd
    | apply keeps_beginRdm
    | apply keeps_ite
theorem keeps_postRdm {pq} (s : State) (n : Nat) (d : Running) (typ : Nat) (data : List Byte) (gd_s : Good pq s) : Good pq (State.postRdm s n d typ data) := by
  unfold State.postRdm
  try dsimp only
  repeat' with_reducible first
    | assumption
    | rfl
    | apply keeps_postNow
    | refine keeps_foldl _ _ _ (fun _ _ _ => ?_) ?_
theorem keeps_rdmBranch {pq} (s : State) (n : Nat) (low : Nat) (high : Nat) (uid : Option Nat) (gd_s : Good pq s) : Good pq (State.rdmBranch s n low high uid) := by
  unfold State.rdmBranch
  try dsimp only
  repeat' with_reducible first
    | assumption
    | rfl
    | apply keeps_postNow
    | apply keeps_rdmNext
    | apply keeps_ite
    | split
theorem keeps_rdmReceive {pq} (s : State) (n : Nat) (reply : RdmReply) (gd_s : Good pq s) : Good pq (State.rdmReceive s n reply) := by
  unfold State.rdmReceive
  try dsimp only
  repeat' with_reducible first
    | assumption
    | rfl
    | apply keeps_postRdm
    | apply keeps_rdmBranch
    | apply keeps_rdmNext
    | apply keeps_setDmx
    | apply keeps_ite
    | split
theorem keeps_rdmSpent {pq} (s : State) (n : Nat) (j : RdmJob) (gd_s : Good pq s) : Good pq (State.rdmSpent s n j) := by
  unfold State.rdmSpent
  try dsimp only
  repeat' with_reducible first
    | assumption
    | rfl
    | apply keeps_bump
    | apply keeps_rdmEnd
    | apply keeps_rdmNext
    | apply keeps_setDmx
    | apply keeps_ite
    | split
theorem keeps_rdmTimeout {pq} (s : State) (n : Nat) (gd_s : Good pq s) : Good pq (State.rdmTimeout s n) := by
  unfold State.rdmTimeout
  try dsimp only
  repeat' with_reducible first
    | assumption
    | rfl
    | apply keeps_rdmSpent
    | apply keeps_runTo
    | apply keeps_setDmx
    | apply keeps_ite
    | split
theorem keeps_dmxEnd {pq} (s : State) (n : Nat) (gd_s : Good pq s) : Good pq (State.dmxEnd s n) := by
  unfold State.dmxEnd
  try dsimp only
  repeat' with_reducible first
    | assumption
    | rfl
    | apply keeps_rdmPlace
    | apply keeps_runTo
    | apply keeps_setDmx
    | apply keeps_ite
theorem keeps_runNode {pq} (s : State) (r : Nat) (p : Nat → Bool) (gd_s : Good pq s) : Good pq (State.runNode s r p) := by
  unfold State.runNode
  try dsimp only
  repeat' with_reducible first
    | assumption
    | rfl
    | apply keeps_dropRunning
    | apply keeps_execute
    | apply keeps_nodeEffect
    | apply keeps_noReserve
    | apply keeps_ite
    | split
theorem keeps_execNodeCommand {pq} (r : Fin 32) (s : State) (gd_s : Good pq s) (t9 : State) (ht : execNodeCommand r s = .next t9) : Good pq t9 := by
  simp only [execNodeCommand] at ht
  cases ht
  repeat' with_reducible first
    | assumption
    | rfl
    | apply keeps_runNode
theorem keeps_execRdmRequest {pq} (r : Fin 32) (s : State) (gd_s : Good pq s) (t9 : State) (ht : execRdmRequest r s = .next t9) : Good pq t9 := by
  simp only [execRdmRequest] at ht
  cases ht
  repeat' with_reducible first
    | assumption
    | rfl
    | apply keeps_runNode
theorem keeps_execRdmDiscovery {pq} (r : Fin 32) (s : State) (gd_s : Good pq s) (t9 : State) (ht : execRdmDiscovery r s = .next t9) : Good pq t9 := by
  simp only [execRdmDiscovery] at ht
  cases ht
  repeat' with_reducible first
    | assumption
    | rfl
    | apply keeps_runNode
theorem keeps_execNodeImageChunk {pq} (r : Fin 32) (payload : Option (List Byte)) (s : State) (gd_s : Good pq s) (t9 : State) (ht : execNodeImageChunk r payload s = .next t9) : Good pq t9 := by
  simp only [execNodeImageChunk] at ht
  cases ht
  repeat' with_reducible first
    | assumption
    | rfl
    | apply keeps_beginChunk
    | apply keeps_runOp
    | apply keeps_noReserve
theorem keeps_execNodeCommandRetryTimeout {pq} (id : Word) (s : State) (gd_s : Good pq s) (t9 : State) (ht : execNodeCommandRetryTimeout id s = .next t9) : Good pq t9 := by
  simp only [execNodeCommandRetryTimeout] at ht
  cases ht
  repeat' with_reducible first
    | assumption
    | rfl
    | apply keeps_cmdTimeout
theorem keeps_execDmxPacketStart {pq} (port : Fin 16) (s : State) (gd_s : Good pq s) (t9 : State) (ht : execDmxPacketStart port s = .next t9) : Good pq t9 := by
  simp only [execDmxPacketStart] at ht
  cases ht
  repeat' with_reducible first
    | assumption
    | rfl
    | apply keeps_dmxStart
theorem keeps_execRdmResponseReceive {pq} (port : Fin 16) (reply : RdmReply) (s : State) (gd_s : Good pq s) (t9 : State) (ht : execRdmResponseReceive port reply s = .next t9) : Good pq t9 := by
  simp only [execRdmResponseReceive] at ht
  cases ht
  repeat' with_reducible first
    | assumption
    | rfl
    | apply keeps_rdmReceive
theorem keeps_execRdmResponseTimeout {pq} (port : Fin 16) (s : State) (gd_s : Good pq s) (t9 : State) (ht : execRdmResponseTimeout port s = .next t9) : Good pq t9 := by
  simp only [execRdmResponseTimeout] at ht
  cases ht
  repeat' with_reducible first
    | assumption
    | rfl
    | apply keeps_rdmTimeout
end Sys2Proof.Machine
end

