-- ==== Sys2Proof/Laws/KeepsDrive.lean ====
section
/-! SUPPORT. Every operation of Drive.lean keeps the invariant and leaves the queue of commands alone. -/

namespace Sys2Proof.Machine
theorem keeps_setChan {pq} (s : State) (ch : Nat) (x : DrvChan) (gd_s : Good pq s) : Good pq (State.setChan s ch x) := by
  unfold State.setChan
  try dsimp only
  repeat' with_reducible first
    | assumption
    | rfl
    | apply keeps_ite
    | split
    | intro _
    | apply keeps_mk
theorem keeps_setPwm {pq} (s : State) (f : Nat) (x : DrvFeed) (gd_s : Good pq s) : Good pq (State.setPwm s f x) := by
  unfold State.setPwm
  try dsimp only
  repeat' with_reducible first
    | assumption
    | rfl
    | apply keeps_ite
    | split
    | intro _
    | apply keeps_mk
theorem keeps_startPulse {pq} (s : State) (k : Nat) (n : Nat) (ch : Nat) (gd_s : Good pq s) : Good pq (State.startPulse s k n ch) := by
  unfold State.startPulse
  try dsimp only
  repeat' with_reducible first
    | assumption
    | rfl
    | apply keeps_bumpReg
    | apply keeps_setChan
theorem keeps_pwmStart {pq} (s : State) (f : Nat) (cycles : Nat) (gd_s : Good pq s) : Good pq (State.pwmStart s f cycles) := by
  unfold State.pwmStart
  try dsimp only
  repeat' with_reducible first
    | assumption
    | rfl
    | apply keeps_runTo
    | apply keeps_setPwm
    | apply keeps_startPulse
    | refine keeps_foldl _ _ _ (fun _ _ _ => ?_) ?_
theorem keeps_shortPulse {pq} (s : State) (n : Nat) (ch : Nat) (gd_s : Good pq s) : Good pq (State.shortPulse s n ch) := by
  unfold State.shortPulse
  try dsimp only
  repeat' with_reducible first
    | assumption
    | rfl
    | apply keeps_setChan
theorem keeps_changePeriods {pq} (s : State) (b : Nat) (gd_s : Good pq s) : Good pq (State.changePeriods s b) := by
  unfold State.changePeriods
  try dsimp only
  repeat' with_reducible first
    | assumption
    | rfl
    | apply keeps_due
    | apply keeps_setPwm
    | apply keeps_shortPulse
    | refine keeps_foldl _ _ _ (fun _ _ _ => ?_) ?_
    | apply keeps_ite
    | split
    | intro _
    | apply keeps_mk
theorem keeps_drvPeriodSet {pq} (s : State) (f : Nat) (gd_s : Good pq s) : Good pq (State.drvPeriodSet s f) := by
  unfold State.drvPeriodSet
  try dsimp only
  repeat' with_reducible first
    | assumption
    | rfl
    | apply keeps_setPwm
    | apply keeps_ite
    | split
    | intro _
    | apply keeps_mk
theorem keeps_adcConvert {pq} (s : State) (code : Nat) (gd_s : Good pq s) : Good pq (State.adcConvert s code) := by
  unfold State.adcConvert
  try dsimp only
  repeat' with_reducible first
    | assumption
    | rfl
    | apply keeps_raise
    | apply keeps_setFld
    | apply keeps_ite
    | split
    | intro _
    | apply keeps_mk
theorem keeps_noteResult {pq} (s : State) (ch : Nat) (r : Nat) (gd_s : Good pq s) : Good pq (State.noteResult s ch r) := by
  unfold State.noteResult
  try dsimp only
  repeat' with_reducible first
    | assumption
    | rfl
    | apply keeps_bump
    | apply keeps_setChan
    | apply keeps_ite
theorem keeps_qualify {pq} (s : State) (ch : Nat) (low : Nat) (high : Nat) (code : Nat) (gd_s : Good pq s) : Good pq (State.qualify s ch low high code) := by
  unfold State.qualify
  try dsimp only
  repeat' with_reducible first
    | assumption
    | rfl
    | apply keeps_adcConvert
    | apply keeps_noteResult
    | apply keeps_runTo
    | apply keeps_setChan
    | apply keeps_ite
    | split
theorem keeps_drvEvent {pq} (s : State) (typ : Nat) (kind : Nat) (cause : Nat) (ch : Nat) (node : Nat) (ep : Nat) (gd_s : Good pq s) : Good pq (State.drvEvent s typ kind cause ch node ep) := by
  unfold State.drvEvent
  try dsimp only
  repeat' with_reducible first
    | assumption
    | rfl
    | apply keeps_postNow
theorem keeps_localEvent {pq} (s : State) (typ : Nat) (cause : Nat) (ch : Nat) (gd_s : Good pq s) : Good pq (State.localEvent s typ cause ch) := by
  unfold State.localEvent
  try dsimp only
  repeat' with_reducible first
    | assumption
    | rfl
    | apply keeps_drvEvent
theorem keeps_toLadder {pq} (s : State) (ch : Nat) (st : Nat) (r : Nat) (gd_s : Good pq s) : Good pq (State.toLadder s ch st r) := by
  unfold State.toLadder
  try dsimp only
  repeat' with_reducible first
    | assumption
    | rfl
    | apply keeps_setFld
theorem keeps_setRetired {pq} (s : State) (ch : Nat) (v : Bool) (gd_s : Good pq s) : Good pq (State.setRetired s ch v) := by
  unfold State.setRetired
  try dsimp only
  repeat' with_reducible first
    | assumption
    | rfl
    | apply keeps_setReg64
theorem keeps_toPersist {pq} (s : State) (ch : Nat) (r : Nat) (b : Nat) (gd_s : Good pq s) : Good pq (State.toPersist s ch r b) := by
  unfold State.toPersist
  try dsimp only
  repeat' with_reducible first
    | assumption
    | rfl
    | apply keeps_toLadder
theorem keeps_firstFault {pq} (s : State) (ch : Nat) (cause : Nat) (b : Nat) (gd_s : Good pq s) : Good pq (State.firstFault s ch cause b) := by
  unfold State.firstFault
  try dsimp only
  repeat' with_reducible first
    | assumption
    | rfl
    | apply keeps_bump
    | apply keeps_localEvent
    | apply keeps_setChan
    | apply keeps_setFld
    | apply keeps_toLadder
    | apply keeps_toPersist
    | apply keeps_ite
theorem keeps_ladderRecover {pq} (s : State) (ch : Nat) (gd_s : Good pq s) : Good pq (State.ladderRecover s ch) := by
  unfold State.ladderRecover
  try dsimp only
  repeat' with_reducible first
    | assumption
    | rfl
    | apply keeps_bump
    | apply keeps_localEvent
    | apply keeps_setFld
theorem keeps_advance {pq} (s : State) (ch : Nat) (o : Nat) (b : Nat) (gd_s : Good pq s) : Good pq (State.advance s ch o b) := by
  unfold State.advance
  try dsimp only
  repeat' with_reducible first
    | assumption
    | rfl
    | apply keeps_firstFault
    | apply keeps_ladderRecover
    | apply keeps_localEvent
    | apply keeps_setChan
    | apply keeps_setFld
    | apply keeps_setRetired
    | apply keeps_toLadder
    | apply keeps_toPersist
    | apply keeps_ite
theorem keeps_loadWait {pq} (s : State) (ch : Nat) (b : Nat) (gd_s : Good pq s) : Good pq (State.loadWait s ch b) := by
  unfold State.loadWait
  try dsimp only
  repeat' with_reducible first
    | assumption
    | rfl
    | apply keeps_setReg
theorem keeps_advanceAll {pq} (s : State) (b : Nat) (gd_s : Good pq s) : Good pq (State.advanceAll s b) := by
  unfold State.advanceAll
  try dsimp only
  repeat' with_reducible first
    | assumption
    | rfl
    | apply keeps_advance
    | apply keeps_loadWait
    | apply keeps_setChan
    | apply keeps_setFld
    | refine keeps_foldl _ _ _ (fun _ _ _ => ?_) ?_
    | apply keeps_ite
theorem keeps_presentDrive {pq} (s : State) (f : Frame) (gd_s : Good pq s) : Good pq (State.presentDrive s f) := by
  unfold State.presentDrive
  try dsimp only
  repeat' with_reducible first
    | assumption
    | rfl
    | apply keeps_drive
    | apply keeps_setChan
    | refine keeps_foldl _ _ _ (fun _ _ _ => ?_) ?_
    | apply keeps_ite
    | split
theorem keeps_stopDrive {pq} (s : State) (gd_s : Good pq s) : Good pq (State.stopDrive s) := by
  unfold State.stopDrive
  try dsimp only
  repeat' with_reducible first
    | assumption
    | rfl
    | apply keeps_setChan
    | refine keeps_foldl _ _ _ (fun _ _ _ => ?_) ?_
theorem keeps_reportRetired {pq} (s : State) (n : Nat) (c : Nat) (tick : Nat) (gd_s : Good pq s) : Good pq (State.reportRetired s n c tick) := by
  unfold State.reportRetired
  try dsimp only
  repeat' with_reducible first
    | assumption
    | rfl
    | apply keeps_ite
    | split
    | intro _
    | apply keeps_mk
theorem keeps_closeReports {pq} (s : State) (gd_s : Good pq s) : Good pq (State.closeReports s) := by
  unfold State.closeReports
  try dsimp only
  repeat' with_reducible first
    | assumption
    | rfl
    | apply keeps_drvEvent
    | apply keeps_setReg
    | refine keeps_foldl _ _ _ (fun _ _ _ => ?_) ?_
    | apply keeps_ite
    | split
    | intro _
    | apply keeps_mk
theorem keeps_planDrive {pq} (s : State) (n : Nat) (eff : Nat) (flags : Nat) (r : List Byte) (gd_s : Good pq s) : Good pq (State.planDrive s n eff flags r) := by
  unfold State.planDrive
  try dsimp only
  repeat' with_reducible first
    | assumption
    | rfl
    | apply keeps_queuePlan
    | apply keeps_ite
theorem keeps_planStored {pq} (s : State) (eff : Nat) (p : Nat → Bool) (gd_s : Good pq s) : Good pq (State.planStored s eff p) := by
  unfold State.planStored
  try dsimp only
  repeat' with_reducible first
    | assumption
    | rfl
    | apply keeps_planDrive
    | refine keeps_foldl _ _ _ (fun _ _ _ => ?_) ?_
theorem keeps_configChan {pq} (s : State) (ch : Nat) (r : List Byte) (gd_s : Good pq s) : Good pq (State.configChan s ch r) := by
  unfold State.configChan
  try dsimp only
  repeat' with_reducible first
    | assumption
    | rfl
    | apply keeps_setChan
    | apply keeps_setFld
    | apply keeps_setReg
    | apply keeps_ite
theorem keeps_configNode {pq} (s : State) (n : Nat) (r : List Byte) (gd_s : Good pq s) : Good pq (State.configNode s n r) := by
  unfold State.configNode
  try dsimp only
  repeat' with_reducible first
    | assumption
    | rfl
    | apply keeps_planDrive
    | apply keeps_ite
    | split
    | intro _
    | apply keeps_mk
theorem keeps_driveEffect {pq} (s : State) (d : Running) (data : List Byte) (gd_s : Good pq s) : Good pq (State.driveEffect s d data) := by
  unfold State.driveEffect
  try dsimp only
  repeat' with_reducible first
    | assumption
    | rfl
    | apply keeps_configChan
    | apply keeps_configNode
    | apply keeps_done
    | refine keeps_foldl _ _ _ (fun _ _ _ => ?_) ?_
    | apply keeps_ite
theorem keeps_reinstateLocal {pq} (s : State) (ch : Nat) (gd_s : Good pq s) : Good pq (State.reinstateLocal s ch) := by
  unfold State.reinstateLocal
  try dsimp only
  repeat' with_reducible first
    | assumption
    | rfl
    | apply keeps_localEvent
    | apply keeps_setRetired
    | apply keeps_toLadder
    | apply keeps_ite
theorem keeps_reinstateNode {pq} (s : State) (n : Nat) (c : Nat) (gd_s : Good pq s) : Good pq (State.reinstateNode s n c) := by
  unfold State.reinstateNode
  try dsimp only
  repeat' with_reducible first
    | assumption
    | rfl
    | apply keeps_drvEvent
    | apply keeps_planDrive
    | apply keeps_setReg
    | apply keeps_ite
    | split
    | intro _
    | apply keeps_mk
theorem keeps_reinstateEffect {pq} (s : State) (d : Running) (x2 : List Byte) (gd_s : Good pq s) : Good pq (State.reinstateEffect s d x2) := by
  unfold State.reinstateEffect
  try dsimp only
  repeat' with_reducible first
    | assumption
    | rfl
    | apply keeps_done
    | apply keeps_reinstateLocal
    | apply keeps_reinstateNode
    | refine keeps_foldl _ _ _ (fun _ _ _ => ?_) ?_
    | apply keeps_ite
    | split
theorem keeps_execDriveConfig {pq} (r : Fin 32) (payload : Option (List Byte)) (s : State) (gd_s : Good pq s) (t9 : State) (ht : execDriveConfig r payload s = .next t9) : Good pq t9 := by
  simp only [execDriveConfig] at ht
  cases ht
  repeat' with_reducible first
    | assumption
    | rfl
    | apply keeps_driveEffect
    | apply keeps_runOp
    | apply keeps_noReserve
theorem keeps_execReinstate {pq} (r : Fin 32) (s : State) (gd_s : Good pq s) (t9 : State) (ht : execReinstate r s = .next t9) : Good pq t9 := by
  simp only [execReinstate] at ht
  cases ht
  repeat' with_reducible first
    | assumption
    | rfl
    | apply keeps_reinstateEffect
    | apply keeps_runOp
    | apply keeps_noReserve
theorem keeps_execPwmPeriodStart {pq} (feed : Fin 16) (cycles : Word) (s : State) (gd_s : Good pq s) (t9 : State) (ht : execPwmPeriodStart feed cycles s = .next t9) : Good pq t9 := by
  simp only [execPwmPeriodStart] at ht
  cases ht
  repeat' with_reducible first
    | assumption
    | rfl
    | apply keeps_pwmStart
theorem keeps_execQualifyWindowEnd {pq} (ch : Fin 48) (lowUv : Word) (highUv : Word) (adc : BitVec 12) (s : State) (gd_s : Good pq s) (t9 : State) (ht : execQualifyWindowEnd ch lowUv highUv adc s = .next t9) : Good pq t9 := by
  simp only [execQualifyWindowEnd] at ht
  cases ht
  repeat' with_reducible first
    | assumption
    | rfl
    | apply keeps_qualify
end Sys2Proof.Machine
end

