-- ==== Sys2Proof/Laws/KeepsFarrier.lean ====
section
/-! SUPPORT. Every operation of Farrier.lean keeps the invariant and leaves the queue of commands alone. -/

namespace Sys2Proof.Machine
theorem keeps_calSet {pq} (s : State) (k : Nat) (cause : Nat) (gd_s : Good pq s) : Good pq (State.calSet s k cause) := by
  unfold State.calSet
  try dsimp only
  repeat' with_reducible first
    | assumption
    | rfl
    | apply keeps_postNow
theorem keeps_putEntry {pq} (s : State) (k : Nat) (gd_s : Good pq s) : Good pq (State.putEntry s k) := by
  unfold State.putEntry
  try dsimp only
  repeat' with_reducible first
    | assumption
    | rfl
    | apply keeps_ite
    | split
    | intro _
    | apply keeps_mk
theorem keeps_turnLedger {pq} (s : State) (gd_s : Good pq s) : Good pq (State.turnLedger s) := by
  unfold State.turnLedger
  try dsimp only
  repeat' with_reducible first
    | assumption
    | rfl
    | apply keeps_putEntry
    | refine keeps_foldl _ _ _ (fun _ _ _ => ?_) ?_
    | apply keeps_ite
    | split
    | intro _
    | apply keeps_mk
theorem keeps_appendLedger {pq} (s : State) (k : Nat) (ok : Bool) (gd_s : Good pq s) : Good pq (State.appendLedger s k ok) := by
  unfold State.appendLedger
  try dsimp only
  repeat' with_reducible first
    | assumption
    | rfl
    | apply keeps_bump
    | apply keeps_calSet
    | apply keeps_putEntry
    | apply keeps_raise
    | apply keeps_turnLedger
    | apply keeps_ite
    | split
    | intro _
    | apply keeps_mk
theorem keeps_retryLedger {pq} (s : State) (ok : Bool) (gd_s : Good pq s) : Good pq (State.retryLedger s ok) := by
  unfold State.retryLedger
  try dsimp only
  repeat' with_reducible first
    | assumption
    | rfl
    | apply keeps_appendLedger
    | refine keeps_foldl _ _ _ (fun _ _ _ => ?_) ?_
theorem keeps_loadSet {pq} (s : State) (es : List (Nat × Nat × List Byte)) (k : Nat) (gd_s : Good pq s) : Good pq (State.loadSet s es k) := by
  unfold State.loadSet
  try dsimp only
  repeat' with_reducible first
    | assumption
    | rfl
    | apply keeps_setReg
    | apply keeps_setReg64
    | refine keeps_foldl _ _ _ (fun _ _ _ => ?_) ?_
    | apply keeps_ite
    | split
    | intro _
    | apply keeps_mk
theorem keeps_readLedger {pq} (s : State) (gd_s : Good pq s) : Good pq (State.readLedger s) := by
  unfold State.readLedger
  try dsimp only
  repeat' with_reducible first
    | assumption
    | rfl
    | apply keeps_loadSet
    | apply keeps_raise
    | refine keeps_foldl _ _ _ (fun _ _ _ => ?_) ?_
    | apply keeps_ite
    | split
    | intro _
    | apply keeps_mk
theorem keeps_applyTrims {pq} (s : State) (gd_s : Good pq s) : Good pq (State.applyTrims s) := by
  unfold State.applyTrims
  try dsimp only
  repeat' with_reducible first
    | assumption
    | rfl
    | refine keeps_foldl _ _ _ (fun _ _ _ => ?_) ?_
    | apply keeps_ite
    | split
    | intro _
    | apply keeps_mk
theorem keeps_loadTj {pq} (s : State) (raw : List Int) (i : Nat) (gd_s : Good pq s) : Good pq (State.loadTj s raw i) := by
  unfold State.loadTj
  try dsimp only
  repeat' with_reducible first
    | assumption
    | rfl
    | apply keeps_drew
    | apply keeps_setFld
    | apply keeps_ite
    | split
theorem keeps_moveSet {pq} (s : State) (k : Nat) (gd_s : Good pq s) : Good pq (State.moveSet s k) := by
  unfold State.moveSet
  try dsimp only
  repeat' with_reducible first
    | assumption
    | rfl
    | apply keeps_setFld
    | apply keeps_ite
    | split
    | intro _
    | apply keeps_mk
theorem keeps_trimUpdate {pq} (s : State) (raw : List Int) (gd_s : Good pq s) : Good pq (State.trimUpdate s raw) := by
  unfold State.trimUpdate
  try dsimp only
  repeat' with_reducible first
    | assumption
    | rfl
    | apply keeps_applyTrims
    | apply keeps_loadTj
    | apply keeps_moveSet
    | apply keeps_runTo
    | refine keeps_foldl _ _ _ (fun _ _ _ => ?_) ?_
    | apply keeps_ite
    | split
    | intro _
    | apply keeps_mk
theorem keeps_loadFactory {pq} (s : State) (gd_s : Good pq s) : Good pq (State.loadFactory s) := by
  unfold State.loadFactory
  try dsimp only
  repeat' with_reducible first
    | assumption
    | rfl
    | apply keeps_setFld
    | apply keeps_setReg
    | apply keeps_setReg64
    | refine keeps_foldl _ _ _ (fun _ _ _ => ?_) ?_
theorem keeps_capStat {pq} (s : State) (c : Capture) (status : Nat) (gd_s : Good pq s) : Good pq (State.capStat s c status) := by
  unfold State.capStat
  try dsimp only
  repeat' with_reducible first
    | assumption
    | rfl
    | apply keeps_done
    | apply keeps_setFld
theorem keeps_capResults {pq} (s : State) (c : Capture) (instant : Nat) (gd_s : Good pq s) : Good pq (State.capResults s c instant) := by
  unfold State.capResults
  try dsimp only
  repeat' with_reducible first
    | assumption
    | rfl
    | apply keeps_setReg
    | refine keeps_foldl _ _ _ (fun _ _ _ => ?_) ?_
    | apply keeps_ite
    | split
    | intro _
    | apply keeps_mk
theorem keeps_capEnd {pq} (s : State) (gd_s : Good pq s) : Good pq (State.capEnd s) := by
  unfold State.capEnd
  try dsimp only
  repeat' with_reducible first
    | assumption
    | rfl
    | apply keeps_capResults
    | apply keeps_capStat
    | apply keeps_capture
    | apply keeps_done
    | apply keeps_postNow
    | apply keeps_ite
    | split
    | intro _
    | apply keeps_mk
theorem keeps_abortCapture {pq} (s : State) (f : Nat) (status : Nat) (gd_s : Good pq s) : Good pq (State.abortCapture s f status) := by
  unfold State.abortCapture
  try dsimp only
  repeat' with_reducible first
    | assumption
    | rfl
    | apply keeps_capture
    | apply keeps_ite
    | split
    | intro _
    | apply keeps_mk
theorem keeps_capFields {pq} (s : State) (v : Nat) (gd_s : Good pq s) : Good pq (State.capFields s v) := by
  unfold State.capFields
  try dsimp only
  repeat' with_reducible first
    | assumption
    | rfl
    | apply keeps_setFld
theorem keeps_capStart {pq} (s : State) (v : Nat) (gd_s : Good pq s) : Good pq (State.capStart s v) := by
  unfold State.capStart
  try dsimp only
  repeat' with_reducible first
    | assumption
    | rfl
    | apply keeps_abortCapture
    | apply keeps_capEnd
    | apply keeps_capFields
    | apply keeps_capStat
    | apply keeps_capture
    | apply keeps_raise
    | apply keeps_ite
    | split
    | intro _
    | apply keeps_mk
theorem keeps_capStop {pq} (s : State) (v : Nat) (gd_s : Good pq s) : Good pq (State.capStop s v) := by
  unfold State.capStop
  try dsimp only
  repeat' with_reducible first
    | assumption
    | rfl
    | apply keeps_abortCapture
    | apply keeps_capEnd
    | apply keeps_capFields
    | apply keeps_capture
    | apply keeps_ite
    | split
theorem keeps_execLedgerRead {pq} (s : State) (gd_s : Good pq s) (t9 : State) (ht : execLedgerRead s = .next t9) : Good pq t9 := by
  simp only [execLedgerRead] at ht
  cases ht
  repeat' with_reducible first
    | assumption
    | rfl
    | apply keeps_readLedger
theorem keeps_execFactoryTrimUpdate {pq} (raw : List Half) (s : State) (gd_s : Good pq s) (t9 : State) (ht : execFactoryTrimUpdate raw s = .next t9) : Good pq t9 := by
  simp only [execFactoryTrimUpdate] at ht
  cases ht
  repeat' with_reducible first
    | assumption
    | rfl
    | apply keeps_trimUpdate
theorem keeps_execFarCaptureStart {pq} (ctrl : Word) (s : State) (gd_s : Good pq s) (t9 : State) (ht : execFarCaptureStart ctrl s = .next t9) : Good pq t9 := by
  simp only [execFarCaptureStart] at ht
  cases ht
  repeat' with_reducible first
    | assumption
    | rfl
    | apply keeps_capStart
    | apply keeps_onBlock
theorem keeps_execFarCaptureStop {pq} (ctrl : Word) (s : State) (gd_s : Good pq s) (t9 : State) (ht : execFarCaptureStop ctrl s = .next t9) : Good pq t9 := by
  simp only [execFarCaptureStop] at ht
  cases ht
  repeat' with_reducible first
    | assumption
    | rfl
    | apply keeps_capStop
    | apply keeps_onBlock
theorem keeps_execFarCaptureEnd {pq} (s : State) (gd_s : Good pq s) (t9 : State) (ht : execFarCaptureEnd s = .next t9) : Good pq t9 := by
  simp only [execFarCaptureEnd] at ht
  cases ht
  repeat' with_reducible first
    | assumption
    | rfl
    | apply keeps_capEnd
end Sys2Proof.Machine
end

