-- ==== Sys2Proof/Laws/KeepsMetering.lean ====
section
/-! SUPPORT. Every operation of Metering.lean keeps the invariant and leaves the queue of commands alone. -/

namespace Sys2Proof.Machine
theorem keeps_setFeed {pq} (s : State) (f : Nat) (x : MeterFeed) (gd_s : Good pq s) : Good pq (State.setFeed s f x) := by
  unfold State.setFeed
  try dsimp only
  repeat' with_reducible first
    | assumption
    | rfl
    | apply keeps_ite
    | split
    | intro _
    | apply keeps_mk
theorem keeps_setPhaseFeed {pq} (s : State) (f : Nat) (x : PhaseFeed) (gd_s : Good pq s) : Good pq (State.setPhaseFeed s f x) := by
  unfold State.setPhaseFeed
  try dsimp only
  repeat' with_reducible first
    | assumption
    | rfl
    | apply keeps_ite
    | split
    | intro _
    | apply keeps_mk
theorem keeps_voidWindow {pq} (s : State) (f : Nat) (gd_s : Good pq s) : Good pq (State.voidWindow s f) := by
  unfold State.voidWindow
  try dsimp only
  repeat' with_reducible first
    | assumption
    | rfl
    | apply keeps_setPhaseFeed
theorem keeps_meterEvent {pq} (s : State) (typ : Nat) (f : Nat) (fs : List (Nat × Nat × Nat)) (gd_s : Good pq s) : Good pq (State.meterEvent s typ f fs) := by
  unfold State.meterEvent
  try dsimp only
  repeat' with_reducible first
    | assumption
    | rfl
    | apply keeps_postNow
theorem keeps_stopFeed {pq} (s : State) (f : Nat) (gd_s : Good pq s) : Good pq (State.stopFeed s f) := by
  unfold State.stopFeed
  try dsimp only
  repeat' with_reducible first
    | assumption
    | rfl
    | apply keeps_abortCapture
    | apply keeps_clear
    | apply keeps_voidWindow
theorem keeps_putFs {pq} (s : State) (f : Nat) (fs : List Nat) (gd_s : Good pq s) : Good pq (State.putFs s f fs) := by
  unfold State.putFs
  try dsimp only
  repeat' with_reducible first
    | assumption
    | rfl
    | apply keeps_abortCapture
    | apply keeps_setFeed
    | apply keeps_ite
theorem keeps_putKind0 {pq} (s : State) (f : Nat) (b : List Byte) (gd_s : Good pq s) : Good pq (State.putKind0 s f b) := by
  unfold State.putKind0
  try dsimp only
  repeat' with_reducible first
    | assumption
    | rfl
    | apply keeps_putFs
    | apply keeps_setFeed
    | apply keeps_setReg
    | apply keeps_stopFeed
    | apply keeps_ite
theorem keeps_putRecord {pq} (s : State) (f : Nat) (r : List Byte) (gd_s : Good pq s) : Good pq (State.putRecord s f r) := by
  unfold State.putRecord
  try dsimp only
  repeat' with_reducible first
    | assumption
    | rfl
    | apply keeps_abortCapture
    | apply keeps_record
    | apply keeps_setFeed
    | apply keeps_ite
theorem keeps_putConfig {pq} (s : State) (f : Nat) (kind : Nat) (b : List Byte) (gd_s : Good pq s) : Good pq (State.putConfig s f kind b) := by
  unfold State.putConfig
  try dsimp only
  repeat' with_reducible first
    | assumption
    | rfl
    | apply keeps_putFs
    | apply keeps_putKind0
    | apply keeps_putRecord
    | apply keeps_setFeed
    | apply keeps_setReg
    | refine keeps_foldl _ _ _ (fun _ _ _ => ?_) ?_
    | apply keeps_ite
    | split
theorem keeps_loadPhase {pq} (s : State) (f : Nat) (m : MeterSums) (p : Nat) (gd_s : Good pq s) : Good pq (State.loadPhase s f m p) := by
  unfold State.loadPhase
  try dsimp only
  repeat' with_reducible first
    | assumption
    | rfl
    | apply keeps_setFld
    | apply keeps_setReg
theorem keeps_loadEnergy {pq} (s : State) (f : Nat) (l : MeterLatch) (p : Nat) (a : Nat) (gd_s : Good pq s) : Good pq (State.loadEnergy s f l p a) := by
  unfold State.loadEnergy
  try dsimp only
  repeat' with_reducible first
    | assumption
    | rfl
    | apply keeps_setFeed
    | apply keeps_setFld
    | apply keeps_setReg
    | apply keeps_ite
theorem keeps_loadTotal {pq} (s : State) (f : Nat) (l : MeterLatch) (a : Nat) (gd_s : Good pq s) : Good pq (State.loadTotal s f l a) := by
  unfold State.loadTotal
  try dsimp only
  repeat' with_reducible first
    | assumption
    | rfl
    | apply keeps_setReg64
theorem keeps_countSet {pq} (s : State) (f : Nat) (t : Nat) (ok : Bool) (gd_s : Good pq s) : Good pq (State.countSet s f t ok) := by
  unfold State.countSet
  try dsimp only
  repeat' with_reducible first
    | assumption
    | rfl
    | apply keeps_appendLedger
    | apply keeps_bumpReg
    | apply keeps_calSet
    | apply keeps_setReg
    | apply keeps_setReg64
    | apply keeps_ite
    | split
    | intro _
    | apply keeps_mk
theorem keeps_completeLatch {pq} (s : State) (f : Nat) (ok : Bool) (gd_s : Good pq s) : Good pq (State.completeLatch s f ok) := by
  unfold State.completeLatch
  try dsimp only
  repeat' with_reducible first
    | assumption
    | rfl
    | apply keeps_countSet
    | apply keeps_done
    | apply keeps_loadEnergy
    | apply keeps_loadPhase
    | apply keeps_loadTotal
    | apply keeps_meterEvent
    | apply keeps_setFeed
    | apply keeps_setReg
    | apply keeps_setReg64
    | apply keeps_source
    | refine keeps_foldl _ _ _ (fun _ _ _ => ?_) ?_
    | apply keeps_ite
    | split
theorem keeps_latchFeed {pq} (s : State) (f : Nat) (t : Nat) (forced : Bool) (gd_s : Good pq s) : Good pq (State.latchFeed s f t forced) := by
  unfold State.latchFeed
  try dsimp only
  repeat' with_reducible first
    | assumption
    | rfl
    | apply keeps_completeLatch
    | apply keeps_done
    | apply keeps_putConfig
    | apply keeps_setFeed
    | refine keeps_foldl _ _ _ (fun _ _ _ => ?_) ?_
theorem keeps_process {pq} (s : State) (f : Nat) (t : Nat) (gd_s : Good pq s) : Good pq (State.process s f t).1 := by
  unfold State.process
  try dsimp only
  repeat' with_reducible first
    | assumption
    | rfl
    | apply keeps_setFeed
theorem keeps_forceLatch {pq} (s : State) (f : Nat) (t : Nat) (gd_s : Good pq s) : Good pq (State.forceLatch s f t) := by
  unfold State.forceLatch
  try dsimp only
  repeat' with_reducible first
    | assumption
    | rfl
    | apply keeps_latchFeed
    | apply keeps_process
    | apply keeps_setFeed
    | refine keeps_foldl _ _ _ (fun _ _ _ => ?_) ?_
    | apply keeps_ite
theorem keeps_feedEvent {pq} (s : State) (f : Nat) (gd_s : Good pq s) : Good pq (State.feedEvent s f) := by
  unfold State.feedEvent
  try dsimp only
  repeat' with_reducible first
    | assumption
    | rfl
    | apply keeps_setFeed
    | apply keeps_voidWindow
theorem keeps_countSeq {pq} (s : State) (f : Nat) (q : Nat) (gd_s : Good pq s) : Good pq (State.countSeq s f q) := by
  unfold State.countSeq
  try dsimp only
  repeat' with_reducible first
    | assumption
    | rfl
    | apply keeps_clear
    | apply keeps_feedEvent
    | apply keeps_meterEvent
    | apply keeps_raise
    | apply keeps_setFeed
    | apply keeps_ite
theorem keeps_countNeutral {pq} (s : State) (f : Nat) (m : MeterSums) (gd_s : Good pq s) : Good pq (State.countNeutral s f m) := by
  unfold State.countNeutral
  try dsimp only
  repeat' with_reducible first
    | assumption
    | rfl
    | apply keeps_clear
    | apply keeps_feedEvent
    | apply keeps_meterEvent
    | apply keeps_raise
    | apply keeps_setFeed
    | apply keeps_ite
theorem keeps_capCycle {pq} (s : State) (f : Nat) (t : Nat) (synth : Bool) (rs : List MeterRaw) (gd_s : Good pq s) : Good pq (State.capCycle s f t synth rs) := by
  unfold State.capCycle
  try dsimp only
  repeat' with_reducible first
    | assumption
    | rfl
    | apply keeps_capStat
    | apply keeps_capture
    | apply keeps_done
    | apply keeps_ite
    | split
    | intro _
    | apply keeps_mk
theorem keeps_moveRef {pq} (s : State) (f : Nat) (m : MeterSums) (gd_s : Good pq s) : Good pq (State.moveRef s f m) := by
  unfold State.moveRef
  try dsimp only
  repeat' with_reducible first
    | assumption
    | rfl
    | apply keeps_present
    | apply keeps_setFeed
    | apply keeps_setFld
    | apply keeps_ite
    | split
theorem keeps_closeCycle {pq} (s : State) (f : Nat) (t : Nat) (cs : List (Nat × Nat)) (gd_s : Good pq s) : Good pq (State.closeCycle s f t cs) := by
  unfold State.closeCycle
  try dsimp only
  repeat' with_reducible first
    | assumption
    | rfl
    | apply keeps_latchFeed
    | apply keeps_setFeed
    | refine keeps_foldl _ _ _ (fun _ _ _ => ?_) ?_
    | apply keeps_ite
theorem keeps_endCycle {pq} (s : State) (f : Nat) (t : Nat) (synth : Bool) (gd_s : Good pq s) : Good pq (State.endCycle s f t synth) := by
  unfold State.endCycle
  try dsimp only
  repeat' with_reducible first
    | assumption
    | rfl
    | apply keeps_boundary
    | apply keeps_bumpReg
    | apply keeps_capCycle
    | apply keeps_closeCycle
    | apply keeps_countNeutral
    | apply keeps_countSeq
    | apply keeps_due
    | apply keeps_moveRef
    | apply keeps_present
    | apply keeps_process
    | apply keeps_setFeed
    | apply keeps_setFld
    | apply keeps_ite
theorem keeps_lineCycle {pq} (s : State) (f : Nat) (gd_s : Good pq s) : Good pq (State.lineCycle s f) := by
  unfold State.lineCycle
  try dsimp only
  repeat' with_reducible first
    | assumption
    | rfl
    | apply keeps_boundary
    | apply keeps_due
    | apply keeps_endCycle
    | apply keeps_runTo
    | apply keeps_ite
    | split
theorem keeps_crossing {pq} (s : State) (f : Nat) (p : Nat) (c : Nat) (gd_s : Good pq s) : Good pq (State.crossing s f p c) := by
  unfold State.crossing
  try dsimp only
  repeat' with_reducible first
    | assumption
    | rfl
    | apply keeps_boundary
    | apply keeps_due
    | apply keeps_setFeed
theorem keeps_detect {pq} (s : State) (f : Nat) (t : Nat) (codes : List Int) (p : Nat) (gd_s : Good pq s) : Good pq (State.detect s f t codes p) := by
  unfold State.detect
  try dsimp only
  repeat' with_reducible first
    | assumption
    | rfl
    | apply keeps_crossing
    | apply keeps_setFeed
    | apply keeps_ite
    | split
theorem keeps_clip {pq} (s : State) (f : Nat) (codes : List Int) (gd_s : Good pq s) : Good pq (State.clip s f codes) := by
  unfold State.clip
  try dsimp only
  repeat' with_reducible first
    | assumption
    | rfl
    | apply keeps_setFld
    | refine keeps_foldl _ _ _ (fun _ _ _ => ?_) ?_
    | apply keeps_ite
theorem keeps_meterGap {pq} (s : State) (f : Nat) (t : Nat) (gd_s : Good pq s) : Good pq (State.meterGap s f t) := by
  unfold State.meterGap
  try dsimp only
  repeat' with_reducible first
    | assumption
    | rfl
    | apply keeps_meterEvent
    | apply keeps_setFeed
    | apply keeps_ite
theorem keeps_meterSample {pq} (s : State) (f : Nat) (codes : List Int) (plain : List Int) (gd_s : Good pq s) : Good pq (State.meterSample s f codes plain) := by
  unfold State.meterSample
  try dsimp only
  repeat' with_reducible first
    | assumption
    | rfl
    | apply keeps_clip
    | apply keeps_detect
    | apply keeps_meterGap
    | apply keeps_runTo
    | apply keeps_setFeed
    | refine keeps_foldl _ _ _ (fun _ _ _ => ?_) ?_
theorem keeps_highSample {pq} (s : State) (f : Nat) (codes : List Int) (gd_s : Good pq s) : Good pq (State.highSample s f codes) := by
  unfold State.highSample
  try dsimp only
  repeat' with_reducible first
    | assumption
    | rfl
    | apply keeps_clip
    | apply keeps_runTo
    | apply keeps_setFeed
    | apply keeps_setPhaseFeed
theorem keeps_sample {pq} (s : State) (f : Nat) (high : Bool) (codes : List Int) (plain : List Int) (gd_s : Good pq s) : Good pq (State.sample s f high codes plain) := by
  unfold State.sample
  try dsimp only
  repeat' with_reducible first
    | assumption
    | rfl
    | apply keeps_highSample
    | apply keeps_meterSample
    | apply keeps_ite
theorem keeps_startFeed {pq} (s : State) (f : Nat) (gd_s : Good pq s) : Good pq (State.startFeed s f) := by
  unfold State.startFeed
  try dsimp only
  repeat' with_reducible first
    | assumption
    | rfl
    | apply keeps_boundary
    | apply keeps_clear
    | apply keeps_due
    | apply keeps_raise
    | apply keeps_runTo
    | apply keeps_setFeed
    | apply keeps_voidWindow
    | apply keeps_ite
    | split
theorem keeps_meterSecond {pq} (s : State) (f : Nat) (clocks : Nat) (gd_s : Good pq s) : Good pq (State.meterSecond s f clocks) := by
  unfold State.meterSecond
  try dsimp only
  repeat' with_reducible first
    | assumption
    | rfl
    | apply keeps_runTo
    | apply keeps_setFeed
    | apply keeps_ite
theorem keeps_clockEvent {pq} (s : State) (f : Nat) (st : Nat) (gd_s : Good pq s) : Good pq (State.clockEvent s f st) := by
  unfold State.clockEvent
  try dsimp only
  repeat' with_reducible first
    | assumption
    | rfl
    | apply keeps_meterEvent
theorem keeps_clockLost {pq} (s : State) (f : Nat) (gd_s : Good pq s) : Good pq (State.clockLost s f) := by
  unfold State.clockLost
  try dsimp only
  repeat' with_reducible first
    | assumption
    | rfl
    | apply keeps_clockEvent
    | apply keeps_forceLatch
    | apply keeps_raise
    | apply keeps_stopFeed
    | apply keeps_ite
theorem keeps_clockReturn {pq} (s : State) (f : Nat) (gd_s : Good pq s) : Good pq (State.clockReturn s f) := by
  unfold State.clockReturn
  try dsimp only
  repeat' with_reducible first
    | assumption
    | rfl
    | apply keeps_clear
    | apply keeps_clockEvent
    | apply keeps_setFeed
    | apply keeps_ite
theorem keeps_holdConfig {pq} (s : State) (f : Nat) (kind : Nat) (d : Option Running) (data : List Byte) (gd_s : Good pq s) : Good pq (State.holdConfig s f kind d data) := by
  unfold State.holdConfig
  try dsimp only
  repeat' with_reducible first
    | assumption
    | rfl
    | apply keeps_setFeed
theorem keeps_meterEffect {pq} (s : State) (d : Running) (data : List Byte) (gd_s : Good pq s) : Good pq (State.meterEffect s d data) := by
  unfold State.meterEffect
  try dsimp only
  repeat' with_reducible first
    | assumption
    | rfl
    | apply keeps_done
    | apply keeps_forceLatch
    | apply keeps_holdConfig
    | apply keeps_putKind0
    | apply keeps_setReg
    | apply keeps_ite
theorem keeps_startSave {pq} (s : State) (sec : Nat) (gd_s : Good pq s) : Good pq (State.startSave s sec) := by
  unfold State.startSave
  try dsimp only
  repeat' with_reducible first
    | assumption
    | rfl
    | apply keeps_raise
    | apply keeps_ite
    | split
    | intro _
    | apply keeps_mk
theorem keeps_meterSave {pq} (s : State) (ok : Bool) (gd_s : Good pq s) : Good pq (State.meterSave s ok) := by
  unfold State.meterSave
  try dsimp only
  repeat' with_reducible first
    | assumption
    | rfl
    | apply keeps_retryLedger
    | apply keeps_runTo
    | apply keeps_startSave
    | apply keeps_ite
    | split
    | intro _
    | apply keeps_mk
theorem keeps_saveComplete {pq} (s : State) (result : Nat) (gd_s : Good pq s) : Good pq (State.saveComplete s result) := by
  unfold State.saveComplete
  try dsimp only
  repeat' with_reducible first
    | assumption
    | rfl
    | apply keeps_bump
    | apply keeps_clear
    | apply keeps_postNow
    | apply keeps_setReg64
    | apply keeps_ite
    | split
    | intro _
    | apply keeps_mk
theorem keeps_restoreFeed {pq} (s : State) (rec : Option (List Byte)) (f : Nat) (gd_s : Good pq s) : Good pq (State.restoreFeed s rec f) := by
  unfold State.restoreFeed
  try dsimp only
  repeat' with_reducible first
    | assumption
    | rfl
    | apply keeps_setFeed
    | refine keeps_foldl _ _ _ (fun _ _ _ => ?_) ?_
    | apply keeps_ite
    | split
theorem keeps_meterRestore {pq} (s : State) (gd_s : Good pq s) : Good pq (State.meterRestore s) := by
  unfold State.meterRestore
  try dsimp only
  repeat' with_reducible first
    | assumption
    | rfl
    | apply keeps_raise
    | apply keeps_restoreFeed
    | apply keeps_setReg64
    | refine keeps_foldl _ _ _ (fun _ _ _ => ?_) ?_
    | apply keeps_ite
    | split
    | intro _
    | apply keeps_mk
theorem keeps_readEnergy {pq} (s : State) (f : Nat) (p : Nat) (a : Nat) (gd_s : Good pq s) : Good pq (State.readEnergy s f p a) := by
  unfold State.readEnergy
  try dsimp only
  repeat' with_reducible first
    | assumption
    | rfl
    | apply keeps_setFeed
    | apply keeps_ite
    | split
    | intro _
    | apply keeps_mk
theorem keeps_tickFeed {pq} (s : State) (b0 : Nat) (b1 : Nat) (f : Nat) (gd_s : Good pq s) : Good pq (State.tickFeed s b0 b1 f) := by
  unfold State.tickFeed
  try dsimp only
  repeat' with_reducible first
    | assumption
    | rfl
    | apply keeps_setFeed
    | apply keeps_setReg
    | refine keeps_foldl _ _ _ (fun _ _ _ => ?_) ?_
theorem keeps_clearFlags {pq} (s : State) (gd_s : Good pq s) : Good pq (State.clearFlags s) := by
  unfold State.clearFlags
  try dsimp only
  repeat' with_reducible first
    | assumption
    | rfl
    | apply keeps_setFeed
    | refine keeps_foldl _ _ _ (fun _ _ _ => ?_) ?_
theorem keeps_execMeterConfig {pq} (r : Fin 32) (payload : Option (List Byte)) (s : State) (gd_s : Good pq s) (t9 : State) (ht : execMeterConfig r payload s = .next t9) : Good pq t9 := by
  simp only [execMeterConfig] at ht
  cases ht
  repeat' with_reducible first
    | assumption
    | rfl
    | apply keeps_meterEffect
    | apply keeps_runOp
    | apply keeps_noReserve
theorem keeps_execMeterFeedStart {pq} (feed : Fin 16) (s : State) (gd_s : Good pq s) (t9 : State) (ht : execMeterFeedStart feed s = .next t9) : Good pq t9 := by
  simp only [execMeterFeedStart] at ht
  cases ht
  repeat' with_reducible first
    | assumption
    | rfl
    | apply keeps_startFeed
theorem keeps_execMeterSecond {pq} (feed : Fin 16) (clocks : Word) (s : State) (gd_s : Good pq s) (t9 : State) (ht : execMeterSecond feed clocks s = .next t9) : Good pq t9 := by
  simp only [execMeterSecond] at ht
  cases ht
  repeat' with_reducible first
    | assumption
    | rfl
    | apply keeps_meterSecond
theorem keeps_execMeterClockLost {pq} (feed : Fin 16) (s : State) (gd_s : Good pq s) (t9 : State) (ht : execMeterClockLost feed s = .next t9) : Good pq t9 := by
  simp only [execMeterClockLost] at ht
  cases ht
  repeat' with_reducible first
    | assumption
    | rfl
    | apply keeps_clockLost
theorem keeps_execMeterClockReturn {pq} (feed : Fin 16) (s : State) (gd_s : Good pq s) (t9 : State) (ht : execMeterClockReturn feed s = .next t9) : Good pq t9 := by
  simp only [execMeterClockReturn] at ht
  cases ht
  repeat' with_reducible first
    | assumption
    | rfl
    | apply keeps_clockReturn
theorem keeps_execLineCycleEnd {pq} (feed : Fin 16) (s : State) (gd_s : Good pq s) (t9 : State) (ht : execLineCycleEnd feed s = .next t9) : Good pq t9 := by
  simp only [execLineCycleEnd] at ht
  cases ht
  repeat' with_reducible first
    | assumption
    | rfl
    | apply keeps_lineCycle
theorem keeps_execMeterLatch {pq} (feed : Fin 16) (ledgerOk : Bool) (s : State) (gd_s : Good pq s) (t9 : State) (ht : execMeterLatch feed ledgerOk s = .next t9) : Good pq t9 := by
  simp only [execMeterLatch] at ht
  cases ht
  repeat' with_reducible first
    | assumption
    | rfl
    | apply keeps_completeLatch
theorem keeps_execMeterMtrPhERead {pq} (feed : Fin 16) (p : Fin 3) (a : Fin 6) (s : State) (gd_s : Good pq s) (t9 : State) (ht : execMeterMtrPhERead feed p a s = .next t9) : Good pq t9 := by
  simp only [execMeterMtrPhERead] at ht
  cases ht
  repeat' with_reducible first
    | assumption
    | rfl
    | apply keeps_onRead
    | apply keeps_readEnergy
theorem keeps_execMeterSave {pq} (ledgerOk : Bool) (s : State) (gd_s : Good pq s) (t9 : State) (ht : execMeterSave ledgerOk s = .next t9) : Good pq t9 := by
  simp only [execMeterSave] at ht
  cases ht
  repeat' with_reducible first
    | assumption
    | rfl
    | apply keeps_meterSave
theorem keeps_execMeterSaveComplete {pq} (result : Fin 4) (s : State) (gd_s : Good pq s) (t9 : State) (ht : execMeterSaveComplete result s = .next t9) : Good pq t9 := by
  simp only [execMeterSaveComplete] at ht
  cases ht
  repeat' with_reducible first
    | assumption
    | rfl
    | apply keeps_saveComplete
theorem keeps_execMeterRestore {pq} (s : State) (gd_s : Good pq s) (t9 : State) (ht : execMeterRestore s = .next t9) : Good pq t9 := by
  simp only [execMeterRestore] at ht
  cases ht
  repeat' with_reducible first
    | assumption
    | rfl
    | apply keeps_meterRestore
theorem keeps_execMeteringSample {pq} (feed : Fin 16) (high : Bool) (codes : List (BitVec 24)) (plain : List (BitVec 24)) (s : State) (gd_s : Good pq s) (t9 : State) (ht : execMeteringSample feed high codes plain s = .next t9) : Good pq t9 := by
  simp only [execMeteringSample] at ht
  cases ht
  repeat' with_reducible first
    | assumption
    | rfl
    | apply keeps_sample
end Sys2Proof.Machine
end

