-- ==== Sys2Proof/Laws/KeepsPhase.lean ====
section
/-! SUPPORT. Every operation of Phase.lean keeps the invariant and leaves the queue of commands alone. -/

namespace Sys2Proof.Machine
theorem keeps_addPhasors {pq} (s : State) (f : Nat) (gd_s : Good pq s) : Good pq (State.addPhasors s f) := by
  unfold State.addPhasors
  try dsimp only
  repeat' with_reducible first
    | assumption
    | rfl
    | apply keeps_setPhaseFeed
    | refine keeps_foldl _ _ _ (fun _ _ _ => ?_) ?_
    | apply keeps_ite
theorem keeps_presentPhase {pq} (s : State) (f : Frame) (gd_s : Good pq s) : Good pq (State.presentPhase s f) := by
  unfold State.presentPhase
  try dsimp only
  repeat' with_reducible first
    | assumption
    | rfl
    | apply keeps_addPhasors
    | refine keeps_foldl _ _ _ (fun _ _ _ => ?_) ?_
    | apply keeps_ite
    | split
    | intro _
    | apply keeps_mk
theorem keeps_windowMean {pq} (s : State) (f : Nat) (k : Nat) (gd_s : Good pq s) : Good pq (State.windowMean s f k).1 := by
  unfold State.windowMean
  try dsimp only
  repeat' with_reducible first
    | assumption
    | rfl
    | apply keeps_drew
    | apply keeps_ite
    | split
theorem keeps_planDue {pq} (s : State) (f : Nat) (free : Bool) (gd_s : Good pq s) : Good pq (State.planDue s f free) := by
  unfold State.planDue
  try dsimp only
  repeat' with_reducible first
    | assumption
    | rfl
    | apply keeps_due
    | apply keeps_raise
    | apply keeps_setPhaseFeed
    | apply keeps_ite
theorem keeps_measure {pq} (s : State) (f : Nat) (c : Nat) (h : Nat) (gd_s : Good pq s) : Good pq (State.measure s f c h).1 := by
  unfold State.measure
  try dsimp only
  repeat' with_reducible first
    | assumption
    | rfl
    | apply keeps_setFld
    | apply keeps_setPhaseFeed
    | apply keeps_setReg
    | apply keeps_windowMean
    | apply keeps_ite
    | split
theorem keeps_windowPart {pq} (f : Nat) (acc : State × Option (Nat × Nat × Nat)) (i : Nat) (gd_acc : Good pq acc.1) : Good pq (State.windowPart f acc i).1 := by
  unfold State.windowPart
  try dsimp only
  repeat' with_reducible first
    | assumption
    | rfl
    | apply keeps_measure
theorem keeps_validWindow {pq} (s : State) (f : Nat) (gd_s : Good pq s) : Good pq (State.validWindow s f) := by
  have hr := keeps_foldl_pair (pq := pq) (State.windowPart f) (List.range 8) (s, none) (fun a x h => keeps_windowPart f a x h) gd_s
  unfold State.validWindow
  dsimp only
  generalize (List.range 8).foldl (State.windowPart f) (s, none) = r at hr ⊢
  split
  · exact keeps_setPhaseFeed _ _ _ hr
  · refine keeps_planDue _ _ _ (keeps_setPhaseFeed _ _ _ ?_)
    split
    · exact hr
    · exact keeps_postNow _ _ _ _ _ hr
theorem keeps_openWindow {pq} (s : State) (f : Nat) (k : Nat) (gd_s : Good pq s) : Good pq (State.openWindow s f k) := by
  unfold State.openWindow
  try dsimp only
  repeat' with_reducible first
    | assumption
    | rfl
    | apply keeps_setPhaseFeed
theorem keeps_windowEnd {pq} (s : State) (f : Nat) (gd_s : Good pq s) : Good pq (State.windowEnd s f) := by
  unfold State.windowEnd
  try dsimp only
  repeat' with_reducible first
    | assumption
    | rfl
    | apply keeps_bumpReg
    | apply keeps_openWindow
    | apply keeps_runTo
    | apply keeps_setPhaseFeed
    | apply keeps_validWindow
    | apply keeps_ite
theorem keeps_sendPhase {pq} (s : State) (n : Nat) (r : NodePhase) (gd_s : Good pq s) : Good pq (State.sendPhase s n r) := by
  unfold State.sendPhase
  try dsimp only
  repeat' with_reducible first
    | assumption
    | rfl
    | apply keeps_queuePlan
    | apply keeps_ite
theorem keeps_announcePhases {pq} (s : State) (gd_s : Good pq s) : Good pq (State.announcePhases s) := by
  unfold State.announcePhases
  try dsimp only
  repeat' with_reducible first
    | assumption
    | rfl
    | apply keeps_sendPhase
    | refine keeps_foldl _ _ _ (fun _ _ _ => ?_) ?_
    | apply keeps_ite
    | split
theorem keeps_refreshPhases {pq} (s : State) (gd_s : Good pq s) : Good pq (State.refreshPhases s) := by
  unfold State.refreshPhases
  try dsimp only
  repeat' with_reducible first
    | assumption
    | rfl
    | apply keeps_sendPhase
    | refine keeps_foldl _ _ _ (fun _ _ _ => ?_) ?_
theorem keeps_putPlan {pq} (s : State) (p : PhasePlan) (gd_s : Good pq s) : Good pq (State.putPlan s p) := by
  unfold State.putPlan
  try dsimp only
  repeat' with_reducible first
    | assumption
    | rfl
    | apply keeps_boundary
    | apply keeps_drew
    | apply keeps_postNow
    | apply keeps_setPhaseFeed
    | apply keeps_setReg
    | apply keeps_source
    | refine keeps_foldl _ _ _ (fun _ _ _ => ?_) ?_
    | apply keeps_ite
    | split
    | intro _
    | apply keeps_mk
theorem keeps_switchPlan {pq} (s : State) (p : PhasePlan) (gd_s : Good pq s) : Good pq (State.switchPlan s p) := by
  unfold State.switchPlan
  try dsimp only
  repeat' with_reducible first
    | assumption
    | rfl
    | apply keeps_boundary
    | apply keeps_done
    | apply keeps_setFld
    | apply keeps_setPhaseFeed
    | apply keeps_setReg
    | apply keeps_voidWindow
    | refine keeps_foldl _ _ _ (fun _ _ _ => ?_) ?_
    | apply keeps_ite
    | split
    | intro _
    | apply keeps_mk
theorem keeps_switchPlans {pq} (s : State) (b : Nat) (gd_s : Good pq s) : Good pq (State.switchPlans s b) := by
  unfold State.switchPlans
  try dsimp only
  repeat' with_reducible first
    | assumption
    | rfl
    | apply keeps_boundary
    | apply keeps_switchPlan
    | refine keeps_foldl _ _ _ (fun _ _ _ => ?_) ?_
    | apply keeps_ite
    | split
    | intro _
    | apply keeps_mk
theorem keeps_dropPlans {pq} (s : State) (f : Nat) (gd_s : Good pq s) : Good pq (State.dropPlans s f) := by
  unfold State.dropPlans
  try dsimp only
  repeat' with_reducible first
    | assumption
    | rfl
    | apply keeps_clear
    | apply keeps_source
    | apply keeps_ite
    | split
    | intro _
    | apply keeps_mk
theorem keeps_phasePeriod {pq} (s : State) (f : Nat) (gd_s : Good pq s) : Good pq (State.phasePeriod s f) := by
  unfold State.phasePeriod
  try dsimp only
  repeat' with_reducible first
    | assumption
    | rfl
    | apply keeps_dropPlans
    | apply keeps_due
    | apply keeps_planDue
    | apply keeps_setPhaseFeed
theorem keeps_commitPlan {pq} (s : State) (f : Nat) (gd_s : Good pq s) : Good pq (State.commitPlan s f) := by
  unfold State.commitPlan
  try dsimp only
  repeat' with_reducible first
    | assumption
    | rfl
    | apply keeps_clear
    | apply keeps_due
    | apply keeps_journalItem
    | apply keeps_raise
    | apply keeps_setPhaseFeed
    | apply keeps_ite
    | split
    | intro _
    | apply keeps_mk
theorem keeps_policyFeed {pq} (s : State) (p : PhasePolicy) (f : Nat) (gd_s : Good pq s) : Good pq (State.policyFeed s p f) := by
  unfold State.policyFeed
  try dsimp only
  repeat' with_reducible first
    | assumption
    | rfl
    | apply keeps_boundary
    | apply keeps_dropPlans
    | apply keeps_due
    | apply keeps_planDue
    | apply keeps_putPlan
    | apply keeps_setFld
    | apply keeps_setPhaseFeed
    | apply keeps_setReg
    | apply keeps_switchPlans
    | apply keeps_ite
theorem keeps_putPolicy {pq} (s : State) (p : PhasePolicy) (gd_s : Good pq s) : Good pq (State.putPolicy s p) := by
  unfold State.putPolicy
  try dsimp only
  repeat' with_reducible first
    | assumption
    | rfl
    | apply keeps_policyFeed
    | refine keeps_foldl _ _ _ (fun _ _ _ => ?_) ?_
theorem keeps_phaseBoundary {pq} (s : State) (b : Nat) (gd_s : Good pq s) : Good pq (State.phaseBoundary s b) := by
  unfold State.phaseBoundary
  try dsimp only
  repeat' with_reducible first
    | assumption
    | rfl
    | apply keeps_boundary
    | apply keeps_putPlan
    | apply keeps_putPolicy
    | refine keeps_foldl _ _ _ (fun _ _ _ => ?_) ?_
    | apply keeps_ite
    | split
    | intro _
    | apply keeps_mk
theorem keeps_phaseEffect {pq} (s : State) (d : Running) (data : List Byte) (gd_s : Good pq s) : Good pq (State.phaseEffect s d data) := by
  unfold State.phaseEffect
  try dsimp only
  repeat' with_reducible first
    | assumption
    | rfl
    | apply keeps_boundary
    | apply keeps_done
    | apply keeps_putPolicy
    | apply keeps_ite
    | split
    | intro _
    | apply keeps_mk
theorem keeps_phaseStart {pq} (s : State) (gd_s : Good pq s) : Good pq (State.phaseStart s) := by
  unfold State.phaseStart
  try dsimp only
  repeat' with_reducible first
    | assumption
    | rfl
    | apply keeps_planDue
    | refine keeps_foldl _ _ _ (fun _ _ _ => ?_) ?_
theorem keeps_voidAll {pq} (s : State) (gd_s : Good pq s) : Good pq (State.voidAll s) := by
  unfold State.voidAll
  try dsimp only
  repeat' with_reducible first
    | assumption
    | rfl
    | apply keeps_voidWindow
    | refine keeps_foldl _ _ _ (fun _ _ _ => ?_) ?_
theorem keeps_phaseTakeover {pq} (s : State) (gd_s : Good pq s) : Good pq (State.phaseTakeover s) := by
  unfold State.phaseTakeover
  try dsimp only
  repeat' with_reducible first
    | assumption
    | rfl
    | apply keeps_due
    | apply keeps_setPhaseFeed
    | refine keeps_foldl _ _ _ (fun _ _ _ => ?_) ?_
theorem keeps_execPhasePolicy {pq} (r : Fin 32) (payload : Option (List Byte)) (s : State) (gd_s : Good pq s) (t9 : State) (ht : execPhasePolicy r payload s = .next t9) : Good pq t9 := by
  simp only [execPhasePolicy] at ht
  cases ht
  repeat' with_reducible first
    | assumption
    | rfl
    | apply keeps_phaseEffect
    | apply keeps_runOp
    | apply keeps_noReserve
theorem keeps_execMeasurementWindowEnd {pq} (feed : Fin 16) (s : State) (gd_s : Good pq s) (t9 : State) (ht : execMeasurementWindowEnd feed s = .next t9) : Good pq t9 := by
  simp only [execMeasurementWindowEnd] at ht
  cases ht
  repeat' with_reducible first
    | assumption
    | rfl
    | apply keeps_windowEnd
theorem keeps_execPhasePlanCommit {pq} (feed : Fin 16) (s : State) (gd_s : Good pq s) (t9 : State) (ht : execPhasePlanCommit feed s = .next t9) : Good pq t9 := by
  simp only [execPhasePlanCommit] at ht
  cases ht
  repeat' with_reducible first
    | assumption
    | rfl
    | apply keeps_commitPlan
end Sys2Proof.Machine
end

