-- ==== Sys2Proof/Laws/KeepsTelemetry.lean ====
section
/-! SUPPORT. Every operation of Telemetry.lean keeps the invariant and leaves the queue of commands alone. -/

namespace Sys2Proof.Machine
theorem keeps_report {pq} (s : State) (h : Herd) (gd_s : Good pq s) : Good pq (State.report s h) := by
  unfold State.report
  try dsimp only
  repeat' with_reducible first
    | assumption
    | rfl
    | apply keeps_bumpReg
    | apply keeps_ite
    | split
    | intro _
    | apply keeps_mk
theorem keeps_closeHerds {pq} (s : State) (gd_s : Good pq s) : Good pq (State.closeHerds s) := by
  unfold State.closeHerds
  try dsimp only
  repeat' with_reducible first
    | assumption
    | rfl
    | apply keeps_post
    | refine keeps_foldl _ _ _ (fun _ _ _ => ?_) ?_
    | apply keeps_ite
    | split
    | intro _
    | apply keeps_mk
theorem keeps_silenceReport {pq} (s : State) (typ : Nat) (n : Nat) (gd_s : Good pq s) : Good pq (State.silenceReport s typ n) := by
  unfold State.silenceReport
  try dsimp only
  repeat' with_reducible first
    | assumption
    | rfl
    | apply keeps_report
theorem keeps_closeSilence {pq} (s : State) (gd_s : Good pq s) : Good pq (State.closeSilence s) := by
  unfold State.closeSilence
  try dsimp only
  repeat' with_reducible first
    | assumption
    | rfl
    | apply keeps_setNode
    | apply keeps_silenceReport
    | refine keeps_foldl _ _ _ (fun _ _ _ => ?_) ?_
    | apply keeps_ite
theorem keeps_setZone {pq} (s : State) (z : Nat) (x : Zone) (gd_s : Good pq s) : Good pq (State.setZone s z x) := by
  unfold State.setZone
  try dsimp only
  repeat' with_reducible first
    | assumption
    | rfl
    | apply keeps_ite
    | split
    | intro _
    | apply keeps_mk
theorem keeps_closeZone {pq} (s : State) (z : Nat) (gd_s : Good pq s) : Good pq (State.closeZone s z) := by
  unfold State.closeZone
  try dsimp only
  repeat' with_reducible first
    | assumption
    | rfl
    | apply keeps_postNow
    | apply keeps_setZone
    | apply keeps_ite
    | split
theorem keeps_closeZones {pq} (s : State) (gd_s : Good pq s) : Good pq (State.closeZones s) := by
  unfold State.closeZones
  try dsimp only
  repeat' with_reducible first
    | assumption
    | rfl
    | apply keeps_closeZone
    | refine keeps_foldl _ _ _ (fun _ _ _ => ?_) ?_
theorem keeps_sendPresence {pq} (s : State) (zs : List Nat) (gd_s : Good pq s) : Good pq (State.sendPresence s zs) := by
  unfold State.sendPresence
  try dsimp only
  repeat' with_reducible first
    | assumption
    | rfl
    | apply keeps_queueMgmt
    | refine keeps_foldl _ _ _ (fun _ _ _ => ?_) ?_
    | apply keeps_ite
    | split
theorem keeps_refreshPresence {pq} (s : State) (gd_s : Good pq s) : Good pq (State.refreshPresence s) := by
  unfold State.refreshPresence
  try dsimp only
  repeat' with_reducible first
    | assumption
    | rfl
    | apply keeps_sendPresence
    | apply keeps_ite
    | split
theorem keeps_presenceStep {pq} (s : State) (m : Nat) (gd_s : Good pq s) : Good pq (State.presenceStep s m) := by
  unfold State.presenceStep
  try dsimp only
  repeat' with_reducible first
    | assumption
    | rfl
    | apply keeps_sendPresence
    | apply keeps_setFld
    | apply keeps_setLayer
    | apply keeps_setZone
    | refine keeps_foldl _ _ _ (fun _ _ _ => ?_) ?_
    | apply keeps_ite
    | split
theorem keeps_faultRecord {pq} (s : State) (p : Nat) (n : Nat) (seq : Nat) (tick : Nat) (r : List Byte) (gd_s : Good pq s) : Good pq (State.faultRecord s p n seq tick r) := by
  unfold State.faultRecord
  try dsimp only
  repeat' with_reducible first
    | assumption
    | rfl
    | apply keeps_report
    | apply keeps_reportRetired
    | apply keeps_ite
theorem keeps_trafficRecord {pq} (s : State) (r : List Byte) (gd_s : Good pq s) : Good pq (State.trafficRecord s r) := by
  unfold State.trafficRecord
  try dsimp only
  repeat' with_reducible first
    | assumption
    | rfl
    | apply keeps_bumpReg
    | apply keeps_setZone
    | apply keeps_ite
theorem keeps_tlmRecord {pq} (s : State) (p : Nat) (n : Nat) (seq : Nat) (tick : Nat) (r : List Byte) (gd_s : Good pq s) : Good pq (State.tlmRecord s p n seq tick r) := by
  unfold State.tlmRecord
  try dsimp only
  repeat' with_reducible first
    | assumption
    | rfl
    | apply keeps_bumpReg
    | apply keeps_cmdReply
    | apply keeps_faultRecord
    | apply keeps_postNow
    | apply keeps_trafficRecord
    | apply keeps_writeTemp
    | apply keeps_ite
    | split
theorem keeps_tlmRecords {pq} (p n seq tick k : Nat) :
    ∀ (s : State) (b : List Byte), Good pq s → Good pq (s.tlmRecords p n seq tick b k) := by
  induction k with
  | zero => intro s b h; exact h
  | succ k ih =>
    intro s b h
    simp only [State.tlmRecords]
    split
    · exact h
    · split
      · exact keeps_bump _ _ _ h
      · have hk : ∀ (c : Bool) (r : List Byte), Good pq (if c = true then s.tlmRecord p n seq tick r else s.bump TLM_RX_STAT_MALFORMED 1) := by
          intro c r
          split
          · exact keeps_tlmRecord _ _ _ _ _ _ h
          · exact keeps_bump _ _ _ h
        exact ih _ _ (hk _ _)
theorem keeps_hearEpoch {pq} (s : State) (e : Nat) (gd_s : Good pq s) : Good pq (State.hearEpoch s e) := by
  unfold State.hearEpoch
  try dsimp only
  repeat' with_reducible first
    | assumption
    | rfl
    | apply keeps_ite
    | split
    | intro _
    | apply keeps_mk
theorem keeps_tlmAccept {pq} (s : State) (p : Nat) (n : Nat) (level : Nat) (seq : Nat) (b : List Byte) (gd_s : Good pq s) : Good pq (State.tlmAccept s p n level seq b) := by
  unfold State.tlmAccept
  try dsimp only
  repeat' with_reducible first
    | assumption
    | rfl
    | apply keeps_hearEpoch
    | apply keeps_hearNode
    | apply keeps_setNode
    | apply keeps_tlmRecords
    | apply keeps_ite
theorem keeps_tlmReceive {pq} (s : State) (p : Nat) (b : List Byte) (gd_s : Good pq s) : Good pq (State.tlmReceive s p b) := by
  unfold State.tlmReceive
  try dsimp only
  repeat' with_reducible first
    | assumption
    | rfl
    | apply keeps_bump
    | apply keeps_tlmAccept
    | apply keeps_ite
    | split
theorem keeps_readQueue {pq} (s : State) (e : Nat) (gd_s : Good pq s) : Good pq (State.readQueue s e) := by
  have hl : ∀ (t : State) (b : List Byte), Good pq t → Good pq (t.setQueue e { t.queue e with latched := b }) :=
    fun t b h => keeps_setQueue _ _ _ (queue_le t e h) h
  unfold State.readQueue
  dsimp only
  split
  · exact hl _ _ (keeps_raise _ _ gd_s)
  · split
    · exact hl _ _ gd_s
    · exact hl _ _ (keeps_removeHead _ _ gd_s)
theorem keeps_execTlmFrameReceive {pq} (port : Fin 8) (frame : List Byte) (s : State) (gd_s : Good pq s) (t9 : State) (ht : execTlmFrameReceive port frame s = .next t9) : Good pq t9 := by
  simp only [execTlmFrameReceive] at ht
  cases ht
  repeat' with_reducible first
    | assumption
    | rfl
    | apply keeps_tlmReceive
    | apply keeps_ite
theorem keeps_execEventQueueRead {pq} (e : Fin 8) (s : State) (gd_s : Good pq s) (t9 : State) (ht : execEventQueueRead e s = .next t9) : Good pq t9 := by
  simp only [execEventQueueRead] at ht
  cases ht
  repeat' with_reducible first
    | assumption
    | rfl
    | apply keeps_onRead
    | apply keeps_readQueue
end Sys2Proof.Machine
end

