-- ==== Sys2Proof/Laws/KeepsIntegrity.lean ====
section
/-! SUPPORT. Every operation of Integrity.lean keeps the invariant and leaves the queue of commands alone. -/

namespace Sys2Proof.Machine
theorem lowestRank_mem : ∀ log : List ErrRecord, log ≠ [] → ∃ r ∈ log, r.sev = lowestRank log
  | [], h => absurd rfl h
  | [r], _ => ⟨r, by simp, rfl⟩
  | r :: r' :: rs, _ => by
    obtain ⟨x, hx, he⟩ := lowestRank_mem (r' :: rs) (by simp)
    simp only [lowestRank]
    rcases Nat.le_total r.sev (lowestRank (r' :: rs)) with h | h
    · exact ⟨r, by simp, by omega⟩
    · exact ⟨x, by simp [List.mem_cons.1 hx], by omega⟩
theorem dropRank_length (k : Nat) : ∀ log : List ErrRecord, (∃ r ∈ log, r.sev = k) → (dropRank k log).length + 1 = log.length
  | [], h => by simp at h
  | r :: rs, h => by
    unfold dropRank
    split
    · rfl
    · rename_i hne
      have : ∃ r ∈ rs, r.sev = k := by
        obtain ⟨x, hx, he⟩ := h
        rcases List.mem_cons.1 hx with rfl | hx
        · exact absurd he hne
        · exact ⟨x, hx, he⟩
      simp [dropRank_length k rs this]
theorem keeps_logRecord {pq} (s : State) (r : ErrRecord) (gd_s : Good pq s) : Good pq (State.logRecord s r) := by
  have hl := log_le s gd_s
  unfold State.logRecord
  dsimp only
  split
  · exact keeps_log _ _ (by simp; omega) gd_s
  · split
    · refine keeps_log _ _ ?_ gd_s
      have := dropRank_length _ _ (lowestRank_mem s.mem.log (by intro h; simp_all))
      simp; omega
    · exact keeps_bumpReg _ _ _ gd_s
theorem keeps_postCorrected {pq} (s : State) (m : Nat) (gd_s : Good pq s) : Good pq (State.postCorrected s m) := by
  unfold State.postCorrected
  try dsimp only
  repeat' with_reducible first
    | assumption
    | rfl
    | apply keeps_post
    | apply keeps_ite
    | split
    | intro _
    | apply keeps_mk
theorem keeps_flushCorrected {pq} (s : State) (gd_s : Good pq s) : Good pq (State.flushCorrected s) := by
  unfold State.flushCorrected
  try dsimp only
  repeat' with_reducible first
    | assumption
    | rfl
    | apply keeps_postCorrected
    | refine keeps_foldl _ _ _ (fun _ _ _ => ?_) ?_
theorem keeps_sumCorrected {pq} (s : State) (r : ErrRecord) (gd_s : Good pq s) : Good pq (State.sumCorrected s r) := by
  unfold State.sumCorrected
  try dsimp only
  repeat' with_reducible first
    | assumption
    | rfl
    | apply keeps_postCorrected
    | apply keeps_ite
    | split
    | intro _
    | apply keeps_mk
theorem keeps_fileRecord {pq} (s : State) (r : ErrRecord) (extra : Nat) (gd_s : Good pq s) : Good pq (State.fileRecord s r extra) := by
  unfold State.fileRecord
  try dsimp only
  repeat' with_reducible first
    | assumption
    | rfl
    | apply keeps_logRecord
    | apply keeps_post
    | apply keeps_sumCorrected
    | apply keeps_ite
theorem keeps_watchWord {pq} (s : State) (w : Nat × Nat) (gd_s : Good pq s) : Good pq (State.watchWord s w) := by
  unfold State.watchWord
  try dsimp only
  repeat' with_reducible first
    | assumption
    | rfl
    | apply keeps_raise
    | apply keeps_ite
    | split
    | intro _
    | apply keeps_mk
theorem keeps_closeRecord {pq} (s : State) (gd_s : Good pq s) : Good pq (State.closeRecord s) := by
  unfold State.closeRecord
  try dsimp only
  repeat' with_reducible first
    | assumption
    | rfl
    | apply keeps_fileRecord
    | apply keeps_watchWord
    | refine keeps_foldl _ _ _ (fun _ _ _ => ?_) ?_
    | apply keeps_ite
    | split
    | intro _
    | apply keeps_mk
theorem keeps_handlerLate {pq} (s : State) (gd_s : Good pq s) : Good pq (State.handlerLate s) := by
  unfold State.handlerLate
  try dsimp only
  repeat' with_reducible first
    | assumption
    | rfl
    | apply keeps_deviceFault
    | apply keeps_runTo
    | apply keeps_ite
    | split
theorem keeps_spareRow {pq} (s : State) (gd_s : Good pq s) : Good pq (State.spareRow s) := by
  unfold State.spareRow
  try dsimp only
  repeat' with_reducible first
    | assumption
    | rfl
    | apply keeps_bump
    | apply keeps_record
    | apply keeps_setFld
    | apply keeps_ite
    | split
    | intro _
    | apply keeps_mk
theorem keeps_showPass {pq} (s : State) (k : Nat) (n : Nat) (gd_s : Good pq s) : Good pq (State.showPass s k n) := by
  unfold State.showPass
  try dsimp only
  repeat' with_reducible first
    | assumption
    | rfl
    | apply keeps_setFld
theorem keeps_endPass {pq} (s : State) (k : Nat) (begun : Nat) (fixes : Nat) (gd_s : Good pq s) : Good pq (State.endPass s k begun fixes) := by
  unfold State.endPass
  try dsimp only
  repeat' with_reducible first
    | assumption
    | rfl
    | apply keeps_postNow
    | apply keeps_ite
    | split
    | intro _
    | apply keeps_mk
theorem keeps_scrub {pq} (s : State) (k : Nat) (err : Option BadWord) (gd_s : Good pq s) : Good pq (State.scrub s k err) := by
  grind [State.scrub, keeps_endPass, keeps_memError, keeps_runTo, keeps_showPass, keeps_mk, Good]
theorem keeps_readWatch {pq} (s : State) (errs : List BadWord) (gd_s : Good pq s) : Good pq (State.readWatch s errs) := by
  unfold State.readWatch
  try dsimp only
  repeat' with_reducible first
    | assumption
    | rfl
    | apply keeps_memError
    | refine keeps_foldl _ _ _ (fun _ _ _ => ?_) ?_
theorem keeps_setSvc {pq} (s : State) (new : Nat) (cause : Nat) (gd_s : Good pq s) : Good pq (State.setSvc s new cause) := by
  unfold State.setSvc
  try dsimp only
  repeat' with_reducible first
    | assumption
    | rfl
    | apply keeps_postNow
    | apply keeps_setFld
    | apply keeps_ite
    | split
    | intro _
    | apply keeps_mk
theorem keeps_requestNormal {pq} (s : State) (gd_s : Good pq s) : Good pq (State.requestNormal s) := by
  unfold State.requestNormal
  try dsimp only
  repeat' with_reducible first
    | assumption
    | rfl
    | apply keeps_raise
    | apply keeps_setSvc
    | apply keeps_ite
theorem keeps_initDone {pq} (s : State) (gd_s : Good pq s) : Good pq (State.initDone s) := by
  unfold State.initDone
  try dsimp only
  repeat' with_reducible first
    | assumption
    | rfl
    | apply keeps_raise
    | apply keeps_ite
    | split
    | intro _
    | apply keeps_mk
theorem keeps_execMemoryInitDone {pq} (s : State) (gd_s : Good pq s) (t9 : State) (ht : execMemoryInitDone s = .next t9) : Good pq t9 := by
  simp only [execMemoryInitDone] at ht
  cases ht
  repeat' with_reducible first
    | assumption
    | rfl
    | apply keeps_initDone
theorem keeps_execSvcRequestNormal {pq} (v : Word) (s : State) (gd_s : Good pq s) (t9 : State) (ht : execSvcRequestNormal v s = .next t9) : Good pq t9 := by
  simp only [execSvcRequestNormal] at ht
  cases ht
  repeat' with_reducible first
    | assumption
    | rfl
    | apply keeps_onBlock
    | apply keeps_requestNormal
    | apply keeps_ite
theorem keeps_execScrubStep {pq} (onChip : Bool) (err : Option BadWord) (s : State) (gd_s : Good pq s) (t9 : State) (ht : execScrubStep onChip err s = .next t9) : Good pq t9 := by
  simp only [execScrubStep] at ht
  cases ht
  repeat' with_reducible first
    | assumption
    | rfl
    | apply keeps_scrub
theorem keeps_execWatchListRead {pq} (errs : List BadWord) (s : State) (gd_s : Good pq s) (t9 : State) (ht : execWatchListRead errs s = .next t9) : Good pq t9 := by
  simp only [execWatchListRead] at ht
  cases ht
  repeat' with_reducible first
    | assumption
    | rfl
    | apply keeps_readWatch
theorem keeps_execErrorRecordClose {pq} (s : State) (gd_s : Good pq s) (t9 : State) (ht : execErrorRecordClose s = .next t9) : Good pq t9 := by
  simp only [execErrorRecordClose] at ht
  cases ht
  repeat' with_reducible first
    | assumption
    | rfl
    | apply keeps_closeRecord
theorem keeps_execHandlerWatchdogTimeout {pq} (s : State) (gd_s : Good pq s) (t9 : State) (ht : execHandlerWatchdogTimeout s = .next t9) : Good pq t9 := by
  simp only [execHandlerWatchdogTimeout] at ht
  cases ht
  repeat' with_reducible first
    | assumption
    | rfl
    | apply keeps_handlerLate
theorem keeps_execRowSpare {pq} (s : State) (gd_s : Good pq s) (t9 : State) (ht : execRowSpare s = .next t9) : Good pq t9 := by
  simp only [execRowSpare] at ht
  cases ht
  repeat' with_reducible first
    | assumption
    | rfl
    | apply keeps_spareRow
end Sys2Proof.Machine
end

