-- ==== Sys2Proof/Laws/KeepsSecurity.lean ====
section
/-! SUPPORT. Every operation of Security.lean keeps the invariant and leaves the queue of commands alone. -/

namespace Sys2Proof.Machine
theorem keeps_share {pq} (s : State) (v : Nat) (gd_s : Good pq s) : Good pq (State.share s v).1 := by
  unfold State.share
  try dsimp only
  repeat' with_reducible first
    | assumption
    | rfl
    | apply keeps_drew
theorem keeps_postKeyState {pq} (s : State) (i : Nat) (old : Nat) (x : KeySlot) (left : Nat) (gd_s : Good pq s) : Good pq (State.postKeyState s i old x left) := by
  unfold State.postKeyState
  try dsimp only
  repeat' with_reducible first
    | assumption
    | rfl
    | apply keeps_postNow
theorem keeps_changeSlot {pq} (s : State) (i : Nat) (x : KeySlot) (left : Nat) (gd_s : Good pq s) : Good pq (State.changeSlot s i x left) := by
  unfold State.changeSlot
  try dsimp only
  repeat' with_reducible first
    | assumption
    | rfl
    | apply keeps_postKeyState
    | apply keeps_setSlot
    | apply keeps_ite
theorem keeps_storeSlot {pq} (s : State) (counter : Nat) (i : Nat) (gd_s : Good pq s) : Good pq (State.storeSlot s counter i) := by
  unfold State.storeSlot
  try dsimp only
  repeat' with_reducible first
    | assumption
    | rfl
    | apply keeps_ite
    | split
    | intro _
    | apply keeps_mk
theorem keeps_storeCounter {pq} (s : State) (counter : Nat) (gd_s : Good pq s) : Good pq (State.storeCounter s counter) := by
  unfold State.storeCounter
  try dsimp only
  repeat' with_reducible first
    | assumption
    | rfl
    | apply keeps_ite
    | split
    | intro _
    | apply keeps_mk
theorem keeps_committed {pq} (s : State) (op : Nat) (i : Nat) (gen : Nat) (counter : Nat) (gd_s : Good pq s) : Good pq (State.committed s op i gen counter) := by
  unfold State.committed
  try dsimp only
  repeat' with_reducible first
    | assumption
    | rfl
    | apply keeps_postNow
    | apply keeps_setReg64
theorem keeps_sendKeys {pq} (s : State) (i : Nat) (gd_s : Good pq s) : Good pq (State.sendKeys s i) := by
  unfold State.sendKeys
  try dsimp only
  repeat' with_reducible first
    | assumption
    | rfl
    | apply keeps_queueKey
    | refine keeps_foldl _ _ _ (fun _ _ _ => ?_) ?_
theorem keeps_rekey {pq} (s : State) (i : Nat) (x : KeySlot) (gd_s : Good pq s) : Good pq (State.rekey s i x) := by
  unfold State.rekey
  try dsimp only
  repeat' with_reducible first
    | assumption
    | rfl
    | apply keeps_changeSlot
    | apply keeps_sendKeys
    | apply keeps_share
    | apply keeps_ite
theorem keeps_rekeyChild {pq} (n : Nat) (counter : Nat) (s : State) (j : Nat) (gd_s : Good pq s) : Good pq (State.rekeyChild n counter s j) := by
  unfold State.rekeyChild
  try dsimp only
  repeat' with_reducible first
    | assumption
    | rfl
    | apply keeps_rekey
    | apply keeps_storeSlot
theorem keeps_showAuthority {pq} (s : State) (gd_s : Good pq s) : Good pq (State.showAuthority s) := by
  unfold State.showAuthority
  try dsimp only
  repeat' with_reducible first
    | assumption
    | rfl
    | apply keeps_setFld
    | apply keeps_ite
    | split
theorem keeps_putKey {pq} (s : State) (i : Nat) (y : KeySlot) (ds : List Nat) (n : Nat) (counter : Nat) (gd_s : Good pq s) : Good pq (State.putKey s i y ds n counter) := by
  exact keeps_foldl _ _ _ (fun _ _ h => keeps_rekeyChild _ _ _ _ h) (keeps_storeSlot _ _ _ (keeps_rekey _ _ _ gd_s))
theorem keeps_installSeed {pq} (s : State) (m : List Byte) (seed : Nat) (gd_s : Good pq s) : Good pq (State.installSeed s m seed) := by
  unfold State.installSeed
  try dsimp only
  repeat' with_reducible first
    | assumption
    | rfl
    | apply keeps_committed
    | apply keeps_putKey
    | apply keeps_share
theorem keeps_install {pq} (s : State) (m : List Byte) (gd_s : Good pq s) : Good pq (State.install s m) := by
  unfold State.install
  cases s.kuSeed m with
  | none => exact gd_s
  | some y => exact keeps_installSeed _ _ _ gd_s
theorem keeps_drainChild {pq} (counter : Nat) (s : State) (j : Nat) (gd_s : Good pq s) : Good pq (State.drainChild counter s j) := by
  unfold State.drainChild
  try dsimp only
  repeat' with_reducible first
    | assumption
    | rfl
    | apply keeps_changeSlot
    | apply keeps_storeSlot
    | apply keeps_ite
theorem keeps_invalidate {pq} (s : State) (m : List Byte) (gd_s : Good pq s) : Good pq (State.invalidate s m) := by
  unfold State.invalidate
  try dsimp only
  repeat' with_reducible first
    | assumption
    | rfl
    | apply keeps_changeSlot
    | apply keeps_committed
    | apply keeps_drainChild
    | apply keeps_storeSlot
    | refine keeps_foldl _ _ _ (fun _ _ _ => ?_) ?_
theorem keeps_secNotice {pq} (s : State) (cause : Nat) (gd_s : Good pq s) : Good pq (State.secNotice s cause) := by
  unfold State.secNotice
  try dsimp only
  repeat' with_reducible first
    | assumption
    | rfl
    | apply keeps_postNow
theorem keeps_armDebug {pq} (s : State) (m : List Byte) (gd_s : Good pq s) : Good pq (State.armDebug s m) := by
  unfold State.armDebug
  try dsimp only
  repeat' with_reducible first
    | assumption
    | rfl
    | apply keeps_committed
    | apply keeps_raise
    | apply keeps_secNotice
    | apply keeps_storeCounter
theorem keeps_setPosition {pq} (s : State) (p : Nat) (h : List Byte) (ok : Bool) (gd_s : Good pq s) : Good pq (State.setPosition s p h ok) := by
  unfold State.setPosition
  try dsimp only
  repeat' with_reducible first
    | assumption
    | rfl
    | apply keeps_showAuthority
    | apply keeps_ite
    | split
    | intro _
    | apply keeps_mk
theorem keeps_rotate {pq} (s : State) (m : List Byte) (otp : Bool) (gd_s : Good pq s) : Good pq (State.rotate s m otp) := by
  unfold State.rotate
  try dsimp only
  repeat' with_reducible first
    | assumption
    | rfl
    | apply keeps_committed
    | apply keeps_setPosition
    | apply keeps_storeCounter
    | apply keeps_ite
    | split
theorem keeps_applyKey {pq} (s : State) (m : List Byte) (nor : Bool) (otp : Bool) (gd_s : Good pq s) : Good pq (State.applyKey s m nor otp).1 := by
  unfold State.applyKey
  try dsimp only
  repeat' with_reducible first
    | assumption
    | rfl
    | apply keeps_armDebug
    | apply keeps_install
    | apply keeps_invalidate
    | apply keeps_rotate
    | apply keeps_ite
    | split
theorem keeps_keyEffect {pq} (nor : Bool) (otp : Bool) (s : State) (d : Running) (m : List Byte) (gd_s : Good pq s) : Good pq (keyEffect nor otp s d m) := by
  unfold keyEffect
  try dsimp only
  repeat' with_reducible first
    | assumption
    | rfl
    | apply keeps_applyKey
    | apply keeps_finish
theorem keeps_runKey {pq} (s : State) (r : Nat) (payload : Option (List Byte)) (p : Nat → Bool) (nor : Bool) (otp : Bool) (gd_s : Good pq s) : Good pq (State.runKey s r payload p nor otp) := by
  unfold State.runKey
  try dsimp only
  repeat' with_reducible first
    | assumption
    | rfl
    | apply keeps_runOp
    | apply keeps_keyEffect
    | apply keeps_noReserve
    | apply keeps_ite
theorem keeps_debugMessage {pq} (s : State) (m : List Byte) (nor : Bool) (gd_s : Good pq s) : Good pq (State.debugMessage s m nor) := by
  unfold State.debugMessage
  try dsimp only
  repeat' with_reducible first
    | assumption
    | rfl
    | apply keeps_applyKey
    | apply keeps_bridleDeny
    | apply keeps_ite
theorem keeps_endDrain {pq} (s : State) (i : Nat) (gd_s : Good pq s) : Good pq (State.endDrain s i) := by
  unfold State.endDrain
  try dsimp only
  repeat' with_reducible first
    | assumption
    | rfl
    | apply keeps_changeSlot
    | apply keeps_ite
theorem keeps_changeOver {pq} (s : State) (i : Nat) (gd_s : Good pq s) : Good pq (State.changeOver s i) := by
  unfold State.changeOver
  try dsimp only
  repeat' with_reducible first
    | assumption
    | rfl
    | apply keeps_sendKeys
    | apply keeps_setSlot
    | apply keeps_ite
theorem keeps_keyEpoch {pq} (s : State) (gd_s : Good pq s) : Good pq (State.keyEpoch s) := by
  unfold State.keyEpoch
  try dsimp only
  repeat' with_reducible first
    | assumption
    | rfl
    | apply keeps_changeOver
    | apply keeps_endDrain
    | refine keeps_foldl _ _ _ (fun _ _ _ => ?_) ?_
theorem keeps_expireGrace {pq} (s : State) (i : Nat) (gd_s : Good pq s) : Good pq (State.expireGrace s i) := by
  unfold State.expireGrace
  try dsimp only
  repeat' with_reducible first
    | assumption
    | rfl
    | apply keeps_changeSlot
    | apply keeps_ite
theorem keeps_graceEnds {pq} (s : State) (i : Nat) (gd_s : Good pq s) : Good pq (State.graceEnds s i) := by
  unfold State.graceEnds
  try dsimp only
  repeat' with_reducible first
    | assumption
    | rfl
    | apply keeps_expireGrace
    | apply keeps_runTo
    | apply keeps_ite
theorem keeps_graceNotice {pq} (s : State) (i : Nat) (gd_s : Good pq s) : Good pq (State.graceNotice s i) := by
  unfold State.graceNotice
  try dsimp only
  repeat' with_reducible first
    | assumption
    | rfl
    | apply keeps_postNow
    | apply keeps_runTo
    | apply keeps_setSlot
    | apply keeps_ite
theorem keeps_nextSession {pq} (s : State) (gd_s : Good pq s) : Good pq (State.nextSession s) := by
  unfold State.nextSession
  try dsimp only
  repeat' with_reducible first
    | assumption
    | rfl
    | apply keeps_setReg
    | apply keeps_setSlot
    | refine keeps_foldl _ _ _ (fun _ _ _ => ?_) ?_
    | apply keeps_ite
    | split
    | intro _
    | apply keeps_mk
theorem keeps_sessionBoundary {pq} (s : State) (gd_s : Good pq s) : Good pq (State.sessionBoundary s) := by
  unfold State.sessionBoundary
  try dsimp only
  repeat' with_reducible first
    | assumption
    | rfl
    | apply keeps_nextSession
    | apply keeps_raise
    | apply keeps_ite
    | split
    | intro _
    | apply keeps_mk
theorem keeps_reserveWrite {pq} (s : State) (ok : Bool) (gd_s : Good pq s) : Good pq (State.reserveWrite s ok) := by
  unfold State.reserveWrite
  try dsimp only
  repeat' with_reducible first
    | assumption
    | rfl
    | apply keeps_runTo
    | apply keeps_secNotice
    | apply keeps_ite
    | split
    | intro _
    | apply keeps_mk
theorem keeps_reserveDone {pq} (s : State) (gd_s : Good pq s) : Good pq (State.reserveDone s) := by
  unfold State.reserveDone
  try dsimp only
  repeat' with_reducible first
    | assumption
    | rfl
    | apply keeps_clear
    | apply keeps_nextSession
    | apply keeps_ite
    | split
    | intro _
    | apply keeps_mk
theorem keeps_remaskSlot {pq} (s : State) (i : Nat) (gd_s : Good pq s) : Good pq (State.remaskSlot s i) := by
  unfold State.remaskSlot
  try dsimp only
  repeat' with_reducible first
    | assumption
    | rfl
    | apply keeps_drew
    | apply keeps_setSlot
    | apply keeps_ite
theorem keeps_remaskDevice {pq} (s : State) (gd_s : Good pq s) : Good pq (State.remaskDevice s) := by
  unfold State.remaskDevice
  try dsimp only
  repeat' with_reducible first
    | assumption
    | rfl
    | apply keeps_ite
    | split
    | intro _
    | apply keeps_mk
theorem keeps_remaskRound {pq} (s : State) (gd_s : Good pq s) : Good pq (State.remaskRound s) := by
  unfold State.remaskRound
  try dsimp only
  repeat' with_reducible first
    | assumption
    | rfl
    | apply keeps_due
    | apply keeps_raise
    | apply keeps_remaskDevice
    | apply keeps_remaskSlot
    | apply keeps_runTo
    | apply keeps_secNotice
    | refine keeps_foldl _ _ _ (fun _ _ _ => ?_) ?_
    | apply keeps_ite
    | split
    | intro _
    | apply keeps_mk
theorem keeps_entropyBad {pq} (s : State) (gd_s : Good pq s) : Good pq (State.entropyBad s) := by
  unfold State.entropyBad
  try dsimp only
  repeat' with_reducible first
    | assumption
    | rfl
    | apply keeps_raise
    | apply keeps_secNotice
theorem keeps_execKeyInstall {pq} (r : Fin 32) (payload : Option (List Byte)) (nor : Bool) (s : State) (gd_s : Good pq s) (t9 : State) (ht : execKeyInstall r payload nor s = .next t9) : Good pq t9 := by
  simp only [execKeyInstall] at ht
  cases ht
  repeat' with_reducible first
    | assumption
    | rfl
    | apply keeps_runKey
theorem keeps_execKeyInvalidate {pq} (r : Fin 32) (payload : Option (List Byte)) (nor : Bool) (s : State) (gd_s : Good pq s) (t9 : State) (ht : execKeyInvalidate r payload nor s = .next t9) : Good pq t9 := by
  simp only [execKeyInvalidate] at ht
  cases ht
  repeat' with_reducible first
    | assumption
    | rfl
    | apply keeps_runKey
theorem keeps_execKeyArmDebug {pq} (r : Option (Fin 32)) (payload : Option (List Byte)) (nor : Bool) (s : State) (gd_s : Good pq s) (t9 : State) (ht : execKeyArmDebug r payload nor s = .next t9) : Good pq t9 := by
  unfold execKeyArmDebug at ht
  split at ht
  · cases ht; exact keeps_runKey _ _ _ _ _ _ gd_s
  · cases ht
    split
    · exact keeps_debugMessage _ _ _ gd_s
    · exact gd_s
theorem keeps_execKeyRotateAuthority {pq} (r : Fin 32) (payload : Option (List Byte)) (nor : Bool) (otp : Bool) (s : State) (gd_s : Good pq s) (t9 : State) (ht : execKeyRotateAuthority r payload nor otp s = .next t9) : Good pq t9 := by
  simp only [execKeyRotateAuthority] at ht
  cases ht
  repeat' with_reducible first
    | assumption
    | rfl
    | apply keeps_runKey
theorem keeps_execKeyGraceExpiry {pq} (slot : Fin 64) (s : State) (gd_s : Good pq s) (t9 : State) (ht : execKeyGraceExpiry slot s = .next t9) : Good pq t9 := by
  simp only [execKeyGraceExpiry] at ht
  cases ht
  repeat' with_reducible first
    | assumption
    | rfl
    | apply keeps_graceEnds
theorem keeps_execKeyGraceNotice {pq} (slot : Fin 64) (s : State) (gd_s : Good pq s) (t9 : State) (ht : execKeyGraceNotice slot s = .next t9) : Good pq t9 := by
  simp only [execKeyGraceNotice] at ht
  cases ht
  repeat' with_reducible first
    | assumption
    | rfl
    | apply keeps_graceNotice
theorem keeps_execSessionReserveWrite {pq} (ok : Bool) (s : State) (gd_s : Good pq s) (t9 : State) (ht : execSessionReserveWrite ok s = .next t9) : Good pq t9 := by
  simp only [execSessionReserveWrite] at ht
  cases ht
  repeat' with_reducible first
    | assumption
    | rfl
    | apply keeps_reserveWrite
theorem keeps_execSessionReserveDone {pq} (s : State) (gd_s : Good pq s) (t9 : State) (ht : execSessionReserveDone s = .next t9) : Good pq t9 := by
  simp only [execSessionReserveDone] at ht
  cases ht
  repeat' with_reducible first
    | assumption
    | rfl
    | apply keeps_reserveDone
theorem keeps_execRemaskRound {pq} (s : State) (gd_s : Good pq s) (t9 : State) (ht : execRemaskRound s = .next t9) : Good pq t9 := by
  simp only [execRemaskRound] at ht
  cases ht
  repeat' with_reducible first
    | assumption
    | rfl
    | apply keeps_remaskRound
theorem keeps_execEntropyFailure {pq} (s : State) (gd_s : Good pq s) (t9 : State) (ht : execEntropyFailure s = .next t9) : Good pq t9 := by
  simp only [execEntropyFailure] at ht
  cases ht
  repeat' with_reducible first
    | assumption
    | rfl
    | apply keeps_entropyBad
end Sys2Proof.Machine
end

