-- ==== Sys2Proof/Laws/KeepsImages.lean ====
section
/-! SUPPORT. Every operation of Images.lean keeps the invariant and leaves the queue of commands alone. -/

namespace Sys2Proof.Machine
theorem keeps_setImage {pq} (s : State) (i : Nat) (x : ImageSlot) (gd_s : Good pq s) : Good pq (State.setImage s i x) := by
  unfold State.setImage
  try dsimp only
  repeat' with_reducible first
    | assumption
    | rfl
    | apply keeps_ite
    | split
    | intro _
    | apply keeps_mk
theorem keeps_chunkEffect {pq} (written : Bool) (s : State) (d : Running) (data : List Byte) (gd_s : Good pq s) : Good pq (chunkEffect written s d data) := by
  unfold chunkEffect
  try dsimp only
  repeat' with_reducible first
    | assumption
    | rfl
    | apply keeps_finish
    | apply keeps_setImage
    | apply keeps_stage
    | apply keeps_ite
theorem keeps_postBoot {pq} (s : State) (slot : Nat) (outcome : Nat) (cause : Nat) (h : List Byte) (gd_s : Good pq s) : Good pq (State.postBoot s slot outcome cause h) := by
  unfold State.postBoot
  try dsimp only
  repeat' with_reducible first
    | assumption
    | rfl
    | apply keeps_postNow
theorem keeps_failSlot {pq} (s : State) (i : Nat) (cause : Nat) (outcome : Nat) (gd_s : Good pq s) : Good pq (State.failSlot s i cause outcome) := by
  unfold State.failSlot
  try dsimp only
  repeat' with_reducible first
    | assumption
    | rfl
    | apply keeps_postBoot
    | apply keeps_raise
    | apply keeps_setFld
    | apply keeps_setImage
theorem keeps_trySlots {pq} (s : State) (y0 : List Nat) (gd_s : Good pq s) : Good pq ((State.trySlots s) y0) := by
  induction y0 generalizing s with
  | nil => grind [State.trySlots, keeps_failSlot, keeps_postBoot, keeps_setFld, keeps_setImage, keeps_mk, Good]
  | cons z zs ih => grind [State.trySlots, keeps_failSlot, keeps_postBoot, keeps_setFld, keeps_setImage, keeps_mk, Good]
theorem keeps_chooseSlot {pq} (s : State) (gd_s : Good pq s) : Good pq (State.chooseSlot s) := by
  unfold State.chooseSlot
  try dsimp only
  repeat' with_reducible first
    | assumption
    | rfl
    | apply keeps_failSlot
    | apply keeps_setReg
    | apply keeps_trySlots
    | refine keeps_foldl _ _ _ (fun _ _ _ => ?_) ?_
    | apply keeps_ite
    | split
    | intro _
    | apply keeps_mk
theorem keeps_trialFails {pq} (s : State) (gd_s : Good pq s) : Good pq (State.trialFails s) := by
  unfold State.trialFails
  try dsimp only
  repeat' with_reducible first
    | assumption
    | rfl
    | apply keeps_clear
    | apply keeps_postBoot
    | apply keeps_setFld
    | apply keeps_setImage
    | apply keeps_ite
    | split
theorem keeps_postMigration {pq} (s : State) (phase : Nat) (old : Nat) (new : Nat) (gd_s : Good pq s) : Good pq (State.postMigration s phase old new) := by
  unfold State.postMigration
  try dsimp only
  repeat' with_reducible first
    | assumption
    | rfl
    | apply keeps_postNow
theorem keeps_commitMigration {pq} (s : State) (gd_s : Good pq s) : Good pq (State.commitMigration s) := by
  unfold State.commitMigration
  try dsimp only
  repeat' with_reducible first
    | assumption
    | rfl
    | apply keeps_postMigration
    | apply keeps_ite
    | split
    | intro _
    | apply keeps_mk
theorem keeps_confirmTrial {pq} (s : State) (gd_s : Good pq s) : Good pq (State.confirmTrial s) := by
  unfold State.confirmTrial
  try dsimp only
  repeat' with_reducible first
    | assumption
    | rfl
    | apply keeps_clear
    | apply keeps_commitMigration
    | apply keeps_postBoot
    | apply keeps_runTo
    | apply keeps_setFld
    | apply keeps_setImage
    | apply keeps_ite
    | split
    | intro _
    | apply keeps_mk
theorem keeps_migrate {pq} (s : State) (h : List Byte) (gd_s : Good pq s) : Good pq (State.migrate s h) := by
  unfold State.migrate
  try dsimp only
  repeat' with_reducible first
    | assumption
    | rfl
    | apply keeps_postMigration
    | apply keeps_ite
    | split
    | intro _
    | apply keeps_mk
theorem keeps_discardMigration {pq} (s : State) (gd_s : Good pq s) : Good pq (State.discardMigration s) := by
  unfold State.discardMigration
  try dsimp only
  repeat' with_reducible first
    | assumption
    | rfl
    | apply keeps_postMigration
    | apply keeps_ite
    | split
    | intro _
    | apply keeps_mk
theorem keeps_startMigration {pq} (s : State) (gd_s : Good pq s) : Good pq (State.startMigration s) := by
  unfold State.startMigration
  try dsimp only
  repeat' with_reducible first
    | assumption
    | rfl
    | apply keeps_discardMigration
    | apply keeps_migrate
    | apply keeps_ite
    | split
    | intro _
    | apply keeps_mk
theorem keeps_mgReply {pq} (s : State) (ip : Nat) (port : Nat) (status : Nat) (chunk : Nat) (slot : Nat) (gd_s : Good pq s) : Good pq (State.mgReply s ip port status chunk slot) := by
  unfold State.mgReply
  try dsimp only
  repeat' with_reducible first
    | assumption
    | rfl
    | apply keeps_emit
theorem keeps_mgChunk {pq} (s : State) (ip : Nat) (port : Nat) (dst : Nat) (dport : Nat) (m : List Byte) (written : Bool) (gd_s : Good pq s) : Good pq (State.mgChunk s ip port dst dport m written) := by
  unfold State.mgChunk
  try dsimp only
  repeat' with_reducible first
    | assumption
    | rfl
    | apply keeps_bridleDeny
    | apply keeps_mgReply
    | apply keeps_setImage
    | apply keeps_stage
    | apply keeps_ite
theorem keeps_arpReply {pq} (s : State) (target : Nat) (ip : Nat) (mac : Nat) (gd_s : Good pq s) : Good pq (State.arpReply s target ip mac) := by
  unfold State.arpReply
  try dsimp only
  repeat' with_reducible first
    | assumption
    | rfl
    | apply keeps_emit
    | apply keeps_ite
theorem keeps_wantImage {pq} (s : State) (gd_s : Good pq s) : Good pq (State.wantImage s) := by
  unfold State.wantImage
  try dsimp only
  repeat' with_reducible first
    | assumption
    | rfl
    | apply keeps_sendTdm
    | apply keeps_ite
    | split
theorem keeps_peerGo {pq} (s : State) (v : Nat) (gd_s : Good pq s) : Good pq (State.peerGo s v) := by
  unfold State.peerGo
  try dsimp only
  repeat' with_reducible first
    | assumption
    | rfl
    | apply keeps_setFld
    | apply keeps_setReg
    | apply keeps_wantImage
    | apply keeps_ite
    | split
    | intro _
    | apply keeps_mk
theorem keeps_peerStop {pq} (s : State) (v : Nat) (gd_s : Good pq s) : Good pq (State.peerStop s v) := by
  unfold State.peerStop
  try dsimp only
  repeat' with_reducible first
    | assumption
    | rfl
    | apply keeps_setFld
    | apply keeps_ite
    | split
    | intro _
    | apply keeps_mk
theorem keeps_peerLink {pq} (s : State) (up : Bool) (gd_s : Good pq s) : Good pq (State.peerLink s up) := by
  unfold State.peerLink
  try dsimp only
  repeat' with_reducible first
    | assumption
    | rfl
    | apply keeps_setFld
    | apply keeps_wantImage
    | apply keeps_ite
theorem keeps_giveImage {pq} (s : State) (slot : Nat) (held : List Nat) (total : Nat) (gd_s : Good pq s) : Good pq (State.giveImage s slot held total) := by
  unfold State.giveImage
  try dsimp only
  repeat' with_reducible first
    | assumption
    | rfl
    | apply keeps_sendTdm
    | refine keeps_foldl _ _ _ (fun _ _ _ => ?_) ?_
    | apply keeps_ite
theorem keeps_takeImage {pq} (s : State) (i : Nat) (total : Nat) (crc : Nat) (data : List Byte) (written : Bool) (gd_s : Good pq s) : Good pq (State.takeImage s i total crc data written) := by
  unfold State.takeImage
  try dsimp only
  repeat' with_reducible first
    | assumption
    | rfl
    | apply keeps_bump
    | apply keeps_setFld
    | apply keeps_setImage
    | apply keeps_stage
    | apply keeps_ite
    | split
    | intro _
    | apply keeps_mk
theorem keeps_peerRefused {pq} (s : State) (gd_s : Good pq s) : Good pq (State.peerRefused s) := by
  unfold State.peerRefused
  try dsimp only
  repeat' with_reducible first
    | assumption
    | rfl
    | apply keeps_setFld
    | apply keeps_ite
    | split
    | intro _
    | apply keeps_mk
theorem keeps_attestEffect {pq} (s : State) (d : Running) (x2 : List Byte) (gd_s : Good pq s) : Good pq (State.attestEffect s d x2) := by
  unfold State.attestEffect
  try dsimp only
  repeat' with_reducible first
    | assumption
    | rfl
    | apply keeps_emit
    | apply keeps_finish
theorem keeps_execImageChunk {pq} (r : Fin 32) (payload : Option (List Byte)) (written : Bool) (s : State) (gd_s : Good pq s) (t9 : State) (ht : execImageChunk r payload written s = .next t9) : Good pq t9 := by
  simp only [execImageChunk] at ht
  cases ht
  repeat' with_reducible first
    | assumption
    | rfl
    | apply keeps_runOp
    | apply keeps_chunkEffect
    | apply keeps_noReserve
theorem keeps_execAttestRequest {pq} (r : Fin 32) (s : State) (gd_s : Good pq s) (t9 : State) (ht : execAttestRequest r s = .next t9) : Good pq t9 := by
  simp only [execAttestRequest] at ht
  cases ht
  repeat' with_reducible first
    | assumption
    | rfl
    | apply keeps_attestEffect
    | apply keeps_runOp
    | apply keeps_noReserve
theorem keeps_execTrialConfirm {pq} (s : State) (gd_s : Good pq s) (t9 : State) (ht : execTrialConfirm s = .next t9) : Good pq t9 := by
  simp only [execTrialConfirm] at ht
  cases ht
  repeat' with_reducible first
    | assumption
    | rfl
    | apply keeps_confirmTrial
theorem keeps_execConfigMigration {pq} (s : State) (gd_s : Good pq s) (t9 : State) (ht : execConfigMigration s = .next t9) : Good pq t9 := by
  simp only [execConfigMigration] at ht
  cases ht
  repeat' with_reducible first
    | assumption
    | rfl
    | apply keeps_startMigration
theorem keeps_execMg0ImageChunk {pq} (ip : Word) (port : Half) (dst : Word) (dport : Half) (datagram : List Byte) (written : Bool) (s : State) (gd_s : Good pq s) (t9 : State) (ht : execMg0ImageChunk ip port dst dport datagram written s = .next t9) : Good pq t9 := by
  simp only [execMg0ImageChunk] at ht
  cases ht
  repeat' with_reducible first
    | assumption
    | rfl
    | apply keeps_mgChunk
theorem keeps_execArpRequest {pq} (target : Word) (ip : Word) (mac : BitVec 48) (s : State) (gd_s : Good pq s) (t9 : State) (ht : execArpRequest target ip mac s = .next t9) : Good pq t9 := by
  simp only [execArpRequest] at ht
  cases ht
  repeat' with_reducible first
    | assumption
    | rfl
    | apply keeps_arpReply
theorem keeps_execImgPeerGo {pq} (v : Word) (s : State) (gd_s : Good pq s) (t9 : State) (ht : execImgPeerGo v s = .next t9) : Good pq t9 := by
  simp only [execImgPeerGo] at ht
  cases ht
  repeat' with_reducible first
    | assumption
    | rfl
    | apply keeps_onBlock
    | apply keeps_peerGo
theorem keeps_execImgPeerStop {pq} (v : Word) (s : State) (gd_s : Good pq s) (t9 : State) (ht : execImgPeerStop v s = .next t9) : Good pq t9 := by
  simp only [execImgPeerStop] at ht
  cases ht
  repeat' with_reducible first
    | assumption
    | rfl
    | apply keeps_onBlock
    | apply keeps_peerStop
end Sys2Proof.Machine
end

