-- ==== Sys2Proof/Laws/KeepsGait.lean ====
section
/-! SUPPORT. Every operation of Gait.lean keeps the invariant and leaves the queue of commands alone. -/

namespace Sys2Proof.Machine
theorem keeps_setPeriodRegs {pq} (s : State) (p : Nat) (gd_s : Good pq s) : Good pq (State.setPeriodRegs s p) := by
  unfold State.setPeriodRegs
  try dsimp only
  repeat' with_reducible first
    | assumption
    | rfl
    | apply keeps_setReg
theorem keeps_gaitEffect {pq} (s : State) (d : Running) (x2 : List Byte) (gd_s : Good pq s) : Good pq (State.gaitEffect s d x2) := by
  unfold State.gaitEffect
  try dsimp only
  repeat' with_reducible first
    | assumption
    | rfl
    | apply keeps_finish
    | apply keeps_setReg64
    | apply keeps_ite
    | split
    | intro _
    | apply keeps_mk
theorem keeps_dropChange {pq} (s : State) (gd_s : Good pq s) : Good pq (State.dropChange s) := by
  unfold State.dropChange
  try dsimp only
  repeat' with_reducible first
    | assumption
    | rfl
    | apply keeps_setReg64
    | apply keeps_ite
    | split
    | intro _
    | apply keeps_mk
theorem keeps_applyChange {pq} (s : State) (c : GaitChange) (gd_s : Good pq s) : Good pq (State.applyChange s c) := by
  unfold State.applyChange
  try dsimp only
  repeat' with_reducible first
    | assumption
    | rfl
    | apply keeps_dropChange
    | apply keeps_setPeriodRegs
    | apply keeps_setReg
    | apply keeps_setReg64
    | apply keeps_ite
    | split
    | intro _
    | apply keeps_mk
theorem keeps_postGait {pq} (s : State) (c : GaitChange) (gd_s : Good pq s) : Good pq (State.postGait s c) := by
  unfold State.postGait
  try dsimp only
  repeat' with_reducible first
    | assumption
    | rfl
    | apply keeps_postNow
theorem keeps_execGaitChange {pq} (r : Fin 32) (s : State) (gd_s : Good pq s) (t9 : State) (ht : execGaitChange r s = .next t9) : Good pq t9 := by
  simp only [execGaitChange] at ht
  cases ht
  repeat' with_reducible first
    | assumption
    | rfl
    | apply keeps_gaitEffect
    | apply keeps_runOp
    | apply keeps_noReserve
end Sys2Proof.Machine
end

