-- ==== Sys2Proof/Laws/KeepsStage.lean ====
section
/-! SUPPORT. Every operation of Stage.lean keeps the invariant and leaves the queue of commands alone. -/

namespace Sys2Proof.Machine
theorem keeps_noteClamp {pq} (s : State) (base : Nat) (v : Nat) (x : Nat) (gd_s : Good pq s) : Good pq (State.noteClamp s base v x) := by
  unfold State.noteClamp
  try dsimp only
  repeat' with_reducible first
    | assumption
    | rfl
    | apply keeps_raise
    | apply keeps_ite
theorem keeps_afterRwt {pq} (s : State) (base : Nat) (i : Nat) (old : Nat) (gd_s : Good pq s) : Good pq (State.afterRwt s base i old) := by
  unfold State.afterRwt
  try dsimp only
  repeat' with_reducible first
    | assumption
    | rfl
    | apply keeps_drvPeriodSet
    | apply keeps_freezeEnable
    | apply keeps_ite
theorem keeps_putRwt {pq} (s : State) (off : Nat) (v : Nat) (gd_s : Good pq s) : Good pq (State.putRwt s off v) := by
  unfold State.putRwt
  try dsimp only
  repeat' with_reducible first
    | assumption
    | rfl
    | apply keeps_afterRwt
    | apply keeps_noteClamp
    | apply keeps_setReg
theorem keeps_stageReg {pq} (s : State) (off : Nat) (v : Nat) (gd_s : Good pq s) : Good pq (State.stageReg s off v) := by
  unfold State.stageReg
  try dsimp only
  repeat' with_reducible first
    | assumption
    | rfl
    | apply keeps_ite
    | split
    | intro _
    | apply keeps_mk
theorem keeps_regStageEffect {pq} (s : State) (d : Running) (x2 : List Byte) (gd_s : Good pq s) : Good pq (State.regStageEffect s d x2) := by
  unfold State.regStageEffect
  try dsimp only
  repeat' with_reducible first
    | assumption
    | rfl
    | apply keeps_done
    | apply keeps_putRwt
    | refine keeps_foldl _ _ _ (fun _ _ _ => ?_) ?_
theorem keeps_execRegStage {pq} (r : Fin 32) (s : State) (gd_s : Good pq s) (t9 : State) (ht : execRegStage r s = .next t9) : Good pq t9 := by
  simp only [execRegStage] at ht
  cases ht
  repeat' with_reducible first
    | assumption
    | rfl
    | apply keeps_regStageEffect
    | apply keeps_runOp
    | apply keeps_noReserve
end Sys2Proof.Machine
end

