-- ==== Sys2Proof/Laws/KeepsEffects.lean ====
section
/-! SUPPORT. Every operation of Effects.lean keeps the invariant and leaves the queue of commands alone. -/

namespace Sys2Proof.Machine
theorem keeps_postSwap {pq} (s : State) (outcome : Nat) (gd_s : Good pq s) : Good pq (State.postSwap s outcome) := by
  unfold State.postSwap
  try dsimp only
  repeat' with_reducible first
    | assumption
    | rfl
    | apply keeps_postNow
theorem keeps_endSwap {pq} (s : State) (st : Nat) (gd_s : Good pq s) : Good pq (State.endSwap s st) := by
  unfold State.endSwap
  try dsimp only
  repeat' with_reducible first
    | assumption
    | rfl
    | apply keeps_clear
    | apply keeps_cmdResult
    | apply keeps_ite
    | split
    | intro _
    | apply keeps_mk
theorem keeps_sendRole {pq} (s : State) (q : Option Nat) (gd_s : Good pq s) : Good pq (State.sendRole s q) := by
  unfold State.sendRole
  try dsimp only
  repeat' with_reducible first
    | assumption
    | rfl
    | apply keeps_sendTdm
    | apply keeps_ite
theorem keeps_setSwapTick {pq} (s : State) (q : Option Nat) (gd_s : Good pq s) : Good pq (State.setSwapTick s q) := by
  unfold State.setSwapTick
  try dsimp only
  repeat' with_reducible first
    | assumption
    | rfl
    | apply keeps_setReg64
    | apply keeps_ite
    | split
    | intro _
    | apply keeps_mk
theorem keeps_cancelSwap {pq} (s : State) (gd_s : Good pq s) : Good pq (State.cancelSwap s) := by
  unfold State.cancelSwap
  try dsimp only
  repeat' with_reducible first
    | assumption
    | rfl
    | apply keeps_endSwap
    | apply keeps_postSwap
    | apply keeps_sendRole
    | apply keeps_setSwapTick
    | apply keeps_ite
theorem keeps_roleEffect {pq} (s : State) (d : Running) (x2 : List Byte) (gd_s : Good pq s) : Good pq (State.roleEffect s d x2) := by
  unfold State.roleEffect
  try dsimp only
  repeat' with_reducible first
    | assumption
    | rfl
    | apply keeps_cancelSwap
    | apply keeps_finish
    | apply keeps_raise
    | apply keeps_sendRole
    | apply keeps_setReg
    | apply keeps_setSwapTick
    | apply keeps_ite
    | split
    | intro _
    | apply keeps_mk
theorem keeps_opReserve {pq} (s : State) (d : Running) (data : List Byte) (gd_s : Good pq s) : Good pq (opReserve s d data) := by
  unfold opReserve
  try dsimp only
  repeat' with_reducible first
    | assumption
    | rfl
    | apply keeps_mapReserve
    | apply keeps_registerReserve
    | apply keeps_retireReserve
    | apply keeps_ite
    | split
theorem keeps_opEffect {pq} (s : State) (d : Running) (data : List Byte) (gd_s : Good pq s) : Good pq (opEffect s d data) := by
  unfold opEffect
  try dsimp only
  repeat' with_reducible first
    | assumption
    | rfl
    | apply keeps_beginChunk
    | apply keeps_colourEffect
    | apply keeps_cueEffect
    | apply keeps_curbEffect
    | apply keeps_driveEffect
    | apply keeps_fenceEffect
    | apply keeps_gaitEffect
    | apply keeps_mapEffect
    | apply keeps_meterEffect
    | apply keeps_nodeEffect
    | apply keeps_nopEffect
    | apply keeps_phaseEffect
    | apply keeps_regStageEffect
    | apply keeps_registerEffect
    | apply keeps_reinstateEffect
    | apply keeps_retireNow
    | apply keeps_roleEffect
    | apply keeps_updateEffect
    | apply keeps_ite
    | split
theorem keeps_applyStaged {pq} (s : State) (x : Staged) (gd_s : Good pq s) : Good pq (State.applyStaged s x) := by
  unfold State.applyStaged
  try dsimp only
  repeat' with_reducible first
    | assumption
    | rfl
    | apply keeps_journalDone
    | apply keeps_putRwt
    | apply keeps_opEffect
    | apply keeps_ite
    | split
theorem keeps_applyAll {pq} (s : State) (gd_s : Good pq s) : Good pq (State.applyAll s) := by
  unfold State.applyAll
  try dsimp only
  repeat' with_reducible first
    | assumption
    | rfl
    | apply keeps_applyStaged
    | refine keeps_foldl _ _ _ (fun _ _ _ => ?_) ?_
    | apply keeps_ite
    | split
    | intro _
    | apply keeps_mk
theorem keeps_applyBoundary {pq} (s : State) (n : Nat) (gd_s : Good pq s) : Good pq (State.applyBoundary s n) := by
  unfold State.applyBoundary
  try dsimp only
  repeat' with_reducible first
    | assumption
    | rfl
    | apply keeps_applyStaged
    | refine keeps_foldl _ _ _ (fun _ _ _ => ?_) ?_
    | apply keeps_ite
    | split
    | intro _
    | apply keeps_mk
theorem keeps_endWait {pq} (s : State) (i : Nat) (gd_s : Good pq s) : Good pq (State.endWait s i) := by
  unfold State.endWait
  try dsimp only
  repeat' with_reducible first
    | assumption
    | rfl
    | apply keeps_bump
    | apply keeps_failDesc
    | apply keeps_setSq
    | apply keeps_ite
    | split
theorem keeps_waitTimeout {pq} (s : State) (i : Nat) (gd_s : Good pq s) : Good pq (State.waitTimeout s i) := by
  unfold State.waitTimeout
  try dsimp only
  repeat' with_reducible first
    | assumption
    | rfl
    | apply keeps_endWait
    | apply keeps_runTo
    | apply keeps_ite
    | split
theorem keeps_endTickWaits {pq} (s : State) (gd_s : Good pq s) : Good pq (State.endTickWaits s) := by
  unfold State.endTickWaits
  try dsimp only
  repeat' with_reducible first
    | assumption
    | rfl
    | apply keeps_endWait
    | refine keeps_foldl _ _ _ (fun _ _ _ => ?_) ?_
    | apply keeps_ite
    | split
theorem keeps_execNop {pq} (r : Fin 32) (s : State) (gd_s : Good pq s) (t9 : State) (ht : execNop r s = .next t9) : Good pq t9 := by
  simp only [execNop] at ht
  cases ht
  repeat' with_reducible first
    | assumption
    | rfl
    | apply keeps_nopEffect
    | apply keeps_runOp
    | apply keeps_noReserve
theorem keeps_execFence {pq} (r : Fin 32) (s : State) (gd_s : Good pq s) (t9 : State) (ht : execFence r s = .next t9) : Good pq t9 := by
  simp only [execFence] at ht
  cases ht
  repeat' with_reducible first
    | assumption
    | rfl
    | apply keeps_fenceEffect
    | apply keeps_runOp
    | apply keeps_noReserve
theorem keeps_execFenceWaitTimeout {pq} (r : Fin 32) (s : State) (gd_s : Good pq s) (t9 : State) (ht : execFenceWaitTimeout r s = .next t9) : Good pq t9 := by
  simp only [execFenceWaitTimeout] at ht
  cases ht
  repeat' with_reducible first
    | assumption
    | rfl
    | apply keeps_waitTimeout
theorem keeps_runRole {pq} (s : State) (r : Nat) (p : Nat → Bool) (gd_s : Good pq s) : Good pq (State.runRole s r p) := by
  unfold State.runRole
  try dsimp only
  repeat' with_reducible first
    | assumption
    | rfl
    | apply keeps_roleEffect
    | apply keeps_runOp
    | apply keeps_noReserve
    | apply keeps_ite
    | split
theorem keeps_execTandemRoleSwap {pq} (r : Fin 32) (s : State) (gd_s : Good pq s) (t9 : State) (ht : execTandemRoleSwap r s = .next t9) : Good pq t9 := by
  simp only [execTandemRoleSwap] at ht
  cases ht
  repeat' with_reducible first
    | assumption
    | rfl
    | apply keeps_runRole
theorem keeps_execTandemRolePeriod {pq} (r : Fin 32) (s : State) (gd_s : Good pq s) (t9 : State) (ht : execTandemRolePeriod r s = .next t9) : Good pq t9 := by
  simp only [execTandemRolePeriod] at ht
  cases ht
  repeat' with_reducible first
    | assumption
    | rfl
    | apply keeps_runRole
theorem keeps_execTandemRoleCancel {pq} (r : Fin 32) (s : State) (gd_s : Good pq s) (t9 : State) (ht : execTandemRoleCancel r s = .next t9) : Good pq t9 := by
  simp only [execTandemRoleCancel] at ht
  cases ht
  repeat' with_reducible first
    | assumption
    | rfl
    | apply keeps_runRole
end Sys2Proof.Machine
end

