-- ==== Sys2Proof/Laws/KeepsTandem.lean ====
section
/-! SUPPORT. Every operation of Tandem.lean keeps the invariant and leaves the queue of commands alone. -/

namespace Sys2Proof.Machine
theorem keeps_setAsm {pq} (s : State) (k : Nat) (x : Option Partial) (gd_s : Good pq s) : Good pq (State.setAsm s k x) := by
  unfold State.setAsm
  try dsimp only
  repeat' with_reducible first
    | assumption
    | rfl
    | apply keeps_ite
    | split
    | intro _
    | apply keeps_mk
theorem keeps_receive {pq} (s : State) (h : TdmHead) (typ : Nat) (act : State → State) (gd_s : Good pq s) (hfact : ∀ a0, Good pq a0 → Good pq (act a0)) : Good pq (State.receive s h typ act) := by
  unfold State.receive
  try dsimp only
  repeat' with_reducible first
    | assumption
    | rfl
    | apply hfact
    | apply keeps_setAsm
    | apply keeps_ite
    | split
    | intro _
    | apply keeps_mk
theorem keeps_fragmentLate {pq} (s : State) (k : Nat) (gd_s : Good pq s) : Good pq (State.fragmentLate s k) := by
  unfold State.fragmentLate
  try dsimp only
  repeat' with_reducible first
    | assumption
    | rfl
    | apply keeps_runTo
    | apply keeps_setAsm
    | apply keeps_ite
    | split
theorem keeps_postLink {pq} (s : State) (lane : Nat) (up : Bool) (gd_s : Good pq s) : Good pq (State.postLink s lane up) := by
  unfold State.postLink
  try dsimp only
  repeat' with_reducible first
    | assumption
    | rfl
    | apply keeps_postNow
theorem keeps_postResync {pq} (s : State) (phase : Nat) (cause : Nat) (gd_s : Good pq s) : Good pq (State.postResync s phase cause) := by
  unfold State.postResync
  try dsimp only
  repeat' with_reducible first
    | assumption
    | rfl
    | apply keeps_postNow
theorem keeps_postVersion {pq} (s : State) (mode : Nat) (m : Hello) (gd_s : Good pq s) : Good pq (State.postVersion s mode m) := by
  unfold State.postVersion
  try dsimp only
  repeat' with_reducible first
    | assumption
    | rfl
    | apply keeps_postNow
theorem keeps_raiseEpoch {pq} (s : State) (gd_s : Good pq s) : Good pq (State.raiseEpoch s) := by
  unfold State.raiseEpoch
  try dsimp only
  repeat' with_reducible first
    | assumption
    | rfl
    | apply keeps_setFld
theorem keeps_setRole {pq} (s : State) (new : Nat) (cause : Nat) (gd_s : Good pq s) : Good pq (State.setRole s new cause) := by
  unfold State.setRole
  try dsimp only
  repeat' with_reducible first
    | assumption
    | rfl
    | apply keeps_postNow
    | apply keeps_raiseEpoch
    | apply keeps_setFld
    | apply keeps_ite
theorem keeps_releaseSigned {pq} (s : State) (gd_s : Good pq s) : Good pq (State.releaseSigned s) := by
  unfold State.releaseSigned
  try dsimp only
  repeat' with_reducible first
    | assumption
    | rfl
    | apply keeps_clearSegment
    | refine keeps_foldl _ _ _ (fun _ _ _ => ?_) ?_
theorem keeps_commitEntry {pq} (s : State) (e : JournalEntry) (mirrored : Bool) (gd_s : Good pq s) : Good pq (State.commitEntry s e mirrored) := by
  unfold State.commitEntry
  try dsimp only
  repeat' with_reducible first
    | assumption
    | rfl
    | apply keeps_commitEffect
    | apply keeps_journalDone
    | apply keeps_opEffect
    | apply keeps_ite
theorem keeps_commitPending {pq} (s : State) (gd_s : Good pq s) : Good pq (State.commitPending s) := by
  unfold State.commitPending
  try dsimp only
  repeat' with_reducible first
    | assumption
    | rfl
    | apply keeps_commitEntry
    | refine keeps_foldl _ _ _ (fun _ _ _ => ?_) ?_
    | apply keeps_ite
    | split
    | intro _
    | apply keeps_mk
theorem keeps_goSolo {pq} (s : State) (cause : Nat) (gd_s : Good pq s) : Good pq (State.goSolo s cause) := by
  unfold State.goSolo
  try dsimp only
  repeat' with_reducible first
    | assumption
    | rfl
    | apply keeps_commitPending
    | apply keeps_releaseSigned
    | apply keeps_setRole
    | apply keeps_ite
theorem keeps_stopSync {pq} (s : State) (gd_s : Good pq s) : Good pq (State.stopSync s) := by
  unfold State.stopSync
  try dsimp only
  repeat' with_reducible first
    | assumption
    | rfl
    | apply keeps_ite
    | split
    | intro _
    | apply keeps_mk
theorem keeps_startSync {pq} (s : State) (gd_s : Good pq s) : Good pq (State.startSync s) := by
  unfold State.startSync
  try dsimp only
  repeat' with_reducible first
    | assumption
    | rfl
    | apply keeps_postResync
    | apply keeps_setReg64
    | apply keeps_ite
    | split
    | intro _
    | apply keeps_mk
theorem keeps_discardJournal {pq} (s : State) (gd_s : Good pq s) : Good pq (State.discardJournal s) := by
  unfold State.discardJournal
  try dsimp only
  repeat' with_reducible first
    | assumption
    | rfl
    | apply keeps_ite
    | split
    | intro _
    | apply keeps_mk
theorem keeps_toResync {pq} (s : State) (cause : Nat) (gd_s : Good pq s) : Good pq (State.toResync s cause) := by
  unfold State.toResync
  try dsimp only
  repeat' with_reducible first
    | assumption
    | rfl
    | apply keeps_discardJournal
    | apply keeps_releaseSigned
    | apply keeps_setRole
    | apply keeps_ite
    | split
    | intro _
    | apply keeps_mk
theorem keeps_resumePort {pq} (s : State) (f : Frame) (q : TdmProgress) (p : Nat) (gd_s : Good pq s) : Good pq (State.resumePort s f q p) := by
  unfold State.resumePort
  try dsimp only
  repeat' with_reducible first
    | assumption
    | rfl
    | apply keeps_setPort
theorem keeps_resumeSync {pq} (s : State) (p : Nat) (gd_s : Good pq s) : Good pq (State.resumeSync s p) := by
  unfold State.resumeSync
  try dsimp only
  repeat' with_reducible first
    | assumption
    | rfl
    | apply keeps_sendSync
    | apply keeps_ite
theorem keeps_skipPort {pq} (s : State) (f : Frame) (p : Nat) (gd_s : Good pq s) : Good pq (State.skipPort s f p) := by
  unfold State.skipPort
  try dsimp only
  repeat' with_reducible first
    | assumption
    | rfl
    | apply keeps_setPort
theorem keeps_resumePorts {pq} (s : State) (q : TdmProgress) (gd_s : Good pq s) : Good pq (State.resumePorts s q) := by
  unfold State.resumePorts
  try dsimp only
  repeat' with_reducible first
    | assumption
    | rfl
    | apply keeps_resumePort
    | apply keeps_resumeSync
    | apply keeps_skipPort
    | refine keeps_foldl _ _ _ (fun _ _ _ => ?_) ?_
    | apply keeps_ite
    | split
    | intro _
    | apply keeps_mk
theorem keeps_holdDmx {pq} (s : State) (t : Nat) (n : Nat) (gd_s : Good pq s) : Good pq (State.holdDmx s t n) := by
  unfold State.holdDmx
  try dsimp only
  repeat' with_reducible first
    | assumption
    | rfl
    | apply keeps_setDmx
theorem keeps_ownSession {pq} (s : State) (gd_s : Good pq s) : Good pq (State.ownSession s) := by
  unfold State.ownSession
  try dsimp only
  repeat' with_reducible first
    | assumption
    | rfl
    | apply keeps_ite
    | split
    | intro _
    | apply keeps_mk
theorem keeps_takeover {pq} (s : State) (cause : Nat) (q : Option TdmProgress) (gd_s : Good pq s) : Good pq (State.takeover s cause q) := by
  unfold State.takeover
  try dsimp only
  repeat' with_reducible first
    | assumption
    | rfl
    | apply keeps_discardJournal
    | apply keeps_holdDmx
    | apply keeps_ownSession
    | apply keeps_phaseTakeover
    | apply keeps_resendCmds
    | apply keeps_resumePorts
    | apply keeps_setRole
    | apply keeps_setSwapTick
    | refine keeps_foldl _ _ _ (fun _ _ _ => ?_) ?_
theorem keeps_declareFaulty {pq} (s : State) (cause : Nat) (gd_s : Good pq s) : Good pq (State.declareFaulty s cause) := by
  unfold State.declareFaulty
  try dsimp only
  repeat' with_reducible first
    | assumption
    | rfl
    | apply keeps_sendTdm
    | apply keeps_setFld
    | apply keeps_setRole
    | apply keeps_stopSync
    | apply keeps_ite
    | split
    | intro _
    | apply keeps_mk
theorem keeps_unitFault {pq} (s : State) (gd_s : Good pq s) : Good pq (State.unitFault s) := by
  unfold State.unitFault
  try dsimp only
  repeat' with_reducible first
    | assumption
    | rfl
    | apply keeps_record
theorem keeps_formMode {pq} (s : State) (m : Hello) (gd_s : Good pq s) : Good pq (State.formMode s m) := by
  unfold State.formMode
  try dsimp only
  repeat' with_reducible first
    | assumption
    | rfl
    | apply keeps_postVersion
    | apply keeps_setFld
    | apply keeps_ite
    | split
    | intro _
    | apply keeps_mk
theorem keeps_searchHello {pq} (s : State) (m : Hello) (gd_s : Good pq s) : Good pq (State.searchHello s m) := by
  unfold State.searchHello
  try dsimp only
  repeat' with_reducible first
    | assumption
    | rfl
    | apply keeps_formMode
    | apply keeps_postResync
    | apply keeps_postVersion
    | apply keeps_setRole
    | apply keeps_startSync
    | apply keeps_toResync
    | apply keeps_ite
theorem keeps_hearHello {pq} (s : State) (m : Hello) (gd_s : Good pq s) : Good pq (State.hearHello s m) := by
  unfold State.hearHello
  try dsimp only
  repeat' with_reducible first
    | assumption
    | rfl
    | apply keeps_formMode
    | apply keeps_searchHello
    | apply keeps_sendTdm
    | apply keeps_setFld
    | apply keeps_ite
    | split
    | intro _
    | apply keeps_mk
theorem keeps_searchEnds {pq} (s : State) (gd_s : Good pq s) : Good pq (State.searchEnds s) := by
  unfold State.searchEnds
  try dsimp only
  repeat' with_reducible first
    | assumption
    | rfl
    | apply keeps_releaseSigned
    | apply keeps_runTo
    | apply keeps_setRole
    | apply keeps_ite
theorem keeps_tandemOn {pq} (s : State) (gd_s : Good pq s) : Good pq (State.tandemOn s) := by
  unfold State.tandemOn
  try dsimp only
  repeat' with_reducible first
    | assumption
    | rfl
    | apply keeps_clear
    | apply keeps_raise
    | apply keeps_setRole
    | apply keeps_ite
    | split
    | intro _
    | apply keeps_mk
theorem keeps_tandemOff {pq} (s : State) (gd_s : Good pq s) : Good pq (State.tandemOff s) := by
  unfold State.tandemOff
  try dsimp only
  repeat' with_reducible first
    | assumption
    | rfl
    | apply keeps_clear
    | apply keeps_commitPending
    | apply keeps_discardJournal
    | apply keeps_releaseSigned
    | apply keeps_setRole
    | apply keeps_stopSync
    | apply keeps_ite
    | split
    | intro _
    | apply keeps_mk
theorem keeps_writeTdmCtrl {pq} (s : State) (v : Nat) (gd_s : Good pq s) : Good pq (State.writeTdmCtrl s v) := by
  unfold State.writeTdmCtrl
  try dsimp only
  repeat' with_reducible first
    | assumption
    | rfl
    | apply keeps_setFld
    | apply keeps_tandemOff
    | apply keeps_tandemOn
    | apply keeps_ite
theorem keeps_setLane {pq} (s : State) (k : Nat) (up : Bool) (gd_s : Good pq s) : Good pq (State.setLane s k up) := by
  unfold State.setLane
  try dsimp only
  repeat' with_reducible first
    | assumption
    | rfl
    | apply keeps_postLink
    | apply keeps_setFld
    | apply keeps_ite
theorem keeps_hbLanes {pq} (s : State) (m : Heartbeat) (gd_s : Good pq s) : Good pq (State.hbLanes s m) := by
  unfold State.hbLanes
  try dsimp only
  repeat' with_reducible first
    | assumption
    | rfl
    | apply keeps_sendOn
    | apply keeps_sendTdm
    | refine keeps_foldl _ _ _ (fun _ _ _ => ?_) ?_
    | apply keeps_ite
theorem keeps_hbNow {pq} (s : State) (gd_s : Good pq s) : Good pq (State.hbNow s) := by
  unfold State.hbNow
  try dsimp only
  repeat' with_reducible first
    | assumption
    | rfl
    | apply keeps_hbLanes
    | apply keeps_ite
    | split
    | intro _
    | apply keeps_mk
theorem keeps_hbSend {pq} (s : State) (gd_s : Good pq s) : Good pq (State.hbSend s) := by
  unfold State.hbSend
  try dsimp only
  repeat' with_reducible first
    | assumption
    | rfl
    | apply keeps_hbNow
    | apply keeps_runTo
    | apply keeps_ite
theorem keeps_hearOffset {pq} (s : State) (ofs : Int) (gd_s : Good pq s) : Good pq (State.hearOffset s ofs) := by
  unfold State.hearOffset
  try dsimp only
  repeat' with_reducible first
    | assumption
    | rfl
    | apply keeps_postNow
    | apply keeps_setReg
    | apply keeps_ite
    | split
    | intro _
    | apply keeps_mk
theorem keeps_hearState {pq} (s : State) (m : Heartbeat) (gd_s : Good pq s) : Good pq (State.hearState s m) := by
  unfold State.hearState
  try dsimp only
  repeat' with_reducible first
    | assumption
    | rfl
    | apply keeps_goSolo
    | apply keeps_startSync
    | apply keeps_toResync
    | apply keeps_ite
theorem keeps_hearHb {pq} (s : State) (k : Nat) (m : Heartbeat) (ofs : Int) (gd_s : Good pq s) : Good pq (State.hearHb s k m ofs) := by
  unfold State.hearHb
  try dsimp only
  repeat' with_reducible first
    | assumption
    | rfl
    | apply keeps_hearOffset
    | apply keeps_hearState
    | apply keeps_raise
    | apply keeps_setLane
    | apply keeps_ite
    | split
    | intro _
    | apply keeps_mk
theorem keeps_laneChange {pq} (s : State) (k : Nat) (up : Bool) (gd_s : Good pq s) : Good pq (State.laneChange s k up) := by
  unfold State.laneChange
  try dsimp only
  repeat' with_reducible first
    | assumption
    | rfl
    | apply keeps_runTo
    | apply keeps_setLane
    | apply keeps_ite
    | split
theorem keeps_partnerLost {pq} (s : State) (gd_s : Good pq s) : Good pq (State.partnerLost s) := by
  unfold State.partnerLost
  try dsimp only
  repeat' with_reducible first
    | assumption
    | rfl
    | apply keeps_clear
    | apply keeps_goSolo
    | apply keeps_releaseSigned
    | apply keeps_runTo
    | apply keeps_setLane
    | apply keeps_setRole
    | apply keeps_stopSync
    | apply keeps_takeover
    | apply keeps_ite
theorem keeps_aliveStops {pq} (s : State) (gd_s : Good pq s) : Good pq (State.aliveStops s) := by
  unfold State.aliveStops
  try dsimp only
  repeat' with_reducible first
    | assumption
    | rfl
    | apply keeps_clear
    | apply keeps_postLink
    | apply keeps_takeover
    | apply keeps_ite
theorem keeps_aliveRuns {pq} (s : State) (gd_s : Good pq s) : Good pq (State.aliveRuns s) := by
  unfold State.aliveRuns
  try dsimp only
  repeat' with_reducible first
    | assumption
    | rfl
    | apply keeps_postLink
    | apply keeps_raise
    | apply keeps_ite
theorem keeps_ackEntries {pq} (s : State) (y0 : Nat) (gd_s : Good pq s) : Good pq ((State.ackEntries s) y0) := by
  induction y0 generalizing s with
  | zero => grind [State.ackEntries, keeps_sendTdm, keeps_mk, Good]
  | succ k ih => grind [State.ackEntries, keeps_sendTdm, keeps_mk, Good]
theorem keeps_takeJrn {pq} (s : State) (e : JournalEntry) (gd_s : Good pq s) : Good pq (State.takeJrn s e) := by
  unfold State.takeJrn
  try dsimp only
  repeat' with_reducible first
    | assumption
    | rfl
    | apply keeps_ackEntries
    | apply keeps_ite
    | split
    | intro _
    | apply keeps_mk
theorem keeps_recordCmd {pq} (s : State) (d : Running) (id : Nat) (gd_s : Good pq s) : Good pq (State.recordCmd s d id) := by
  unfold State.recordCmd
  try dsimp only
  repeat' with_reducible first
    | assumption
    | rfl
    | apply keeps_ite
    | split
    | intro _
    | apply keeps_mk
theorem keeps_applyEntry {pq} (s : State) (e : JournalEntry) (c : Nat) (gd_s : Good pq s) : Good pq (State.applyEntry s e c) := by
  unfold State.applyEntry
  try dsimp only
  repeat' with_reducible first
    | assumption
    | rfl
    | apply keeps_commitEffect
    | apply keeps_journalDone
    | apply keeps_recordCmd
    | apply keeps_setSwapTick
    | apply keeps_opEffect
    | apply keeps_opReserve
    | apply keeps_ite
    | split
    | intro _
    | apply keeps_mk
theorem keeps_applyHeads {pq} (s : State) (y0 : Nat) (gd_s : Good pq s) : Good pq ((State.applyHeads s) y0) := by
  induction y0 generalizing s with
  | zero => grind [State.applyHeads, keeps_applyEntry, keeps_mk, Good]
  | succ k ih => grind [State.applyHeads, keeps_applyEntry, keeps_mk, Good]
theorem keeps_takeJcmt {pq} (s : State) (i : Nat) (c : Nat) (gd_s : Good pq s) : Good pq (State.takeJcmt s i c) := by
  unfold State.takeJcmt
  try dsimp only
  repeat' with_reducible first
    | assumption
    | rfl
    | apply keeps_applyHeads
    | apply keeps_toResync
    | apply keeps_ite
    | split
    | intro _
    | apply keeps_mk
theorem keeps_takeJack {pq} (s : State) (i : Nat) (gd_s : Good pq s) : Good pq (State.takeJack s i) := by
  unfold State.takeJack
  try dsimp only
  repeat' with_reducible first
    | assumption
    | rfl
    | apply keeps_commitEntry
    | apply keeps_sendTdm
    | apply keeps_ite
    | split
    | intro _
    | apply keeps_mk
theorem keeps_jackLate {pq} (s : State) (gd_s : Good pq s) : Good pq (State.jackLate s) := by
  unfold State.jackLate
  try dsimp only
  repeat' with_reducible first
    | assumption
    | rfl
    | apply keeps_goSolo
    | apply keeps_runTo
    | apply keeps_ite
    | split
theorem keeps_takeFault {pq} (s : State) (q : TdmProgress) (gd_s : Good pq s) : Good pq (State.takeFault s q) := by
  unfold State.takeFault
  try dsimp only
  repeat' with_reducible first
    | assumption
    | rfl
    | apply keeps_goSolo
    | apply keeps_stopSync
    | apply keeps_takeover
    | apply keeps_ite
    | split
    | intro _
    | apply keeps_mk
theorem keeps_takeRole {pq} (s : State) (q : Option Nat) (gd_s : Good pq s) : Good pq (State.takeRole s q) := by
  unfold State.takeRole
  try dsimp only
  repeat' with_reducible first
    | assumption
    | rfl
    | apply keeps_setSwapTick
    | apply keeps_ite
theorem keeps_execTandemEnable {pq} (v : Word) (s : State) (gd_s : Good pq s) (t9 : State) (ht : execTandemEnable v s = .next t9) : Good pq t9 := by
  simp only [execTandemEnable] at ht
  cases ht
  repeat' with_reducible first
    | assumption
    | rfl
    | apply keeps_onBlock
    | apply keeps_writeTdmCtrl
theorem keeps_execTandemDisable {pq} (v : Word) (s : State) (gd_s : Good pq s) (t9 : State) (ht : execTandemDisable v s = .next t9) : Good pq t9 := by
  simp only [execTandemDisable] at ht
  cases ht
  repeat' with_reducible first
    | assumption
    | rfl
    | apply keeps_onBlock
    | apply keeps_writeTdmCtrl
theorem keeps_execTandemHbSend {pq} (s : State) (gd_s : Good pq s) (t9 : State) (ht : execTandemHbSend s = .next t9) : Good pq t9 := by
  simp only [execTandemHbSend] at ht
  cases ht
  repeat' with_reducible first
    | assumption
    | rfl
    | apply keeps_hbSend
theorem keeps_execTandemHbReceived {pq} (h : TdmHead) (m : Heartbeat) (offset : Word) (s : State) (gd_s : Good pq s) (t9 : State) (ht : execTandemHbReceived h m offset s = .next t9) : Good pq t9 := by
  simp only [execTandemHbReceived] at ht
  cases ht
  repeat' with_reducible first
    | assumption
    | rfl
    | apply keeps_hearHb
    | apply keeps_receive
    | apply keeps_ite
    | split
    | intro _
theorem keeps_execPartnerLinkLost {pq} (s : State) (gd_s : Good pq s) (t9 : State) (ht : execPartnerLinkLost s = .next t9) : Good pq t9 := by
  simp only [execPartnerLinkLost] at ht
  cases ht
  repeat' with_reducible first
    | assumption
    | rfl
    | apply keeps_partnerLost
theorem keeps_execTandemLaneChange {pq} (lane : Fin 2) (up : Bool) (s : State) (gd_s : Good pq s) (t9 : State) (ht : execTandemLaneChange lane up s = .next t9) : Good pq t9 := by
  simp only [execTandemLaneChange] at ht
  cases ht
  repeat' with_reducible first
    | assumption
    | rfl
    | apply keeps_laneChange
theorem keeps_execAliveLineStopped {pq} (s : State) (gd_s : Good pq s) (t9 : State) (ht : execAliveLineStopped s = .next t9) : Good pq t9 := by
  simp only [execAliveLineStopped] at ht
  cases ht
  repeat' with_reducible first
    | assumption
    | rfl
    | apply keeps_aliveStops
theorem keeps_execAliveLineRunning {pq} (s : State) (gd_s : Good pq s) (t9 : State) (ht : execAliveLineRunning s = .next t9) : Good pq t9 := by
  simp only [execAliveLineRunning] at ht
  cases ht
  repeat' with_reducible first
    | assumption
    | rfl
    | apply keeps_aliveRuns
theorem keeps_execAliveReadbackFail {pq} (s : State) (gd_s : Good pq s) (t9 : State) (ht : execAliveReadbackFail s = .next t9) : Good pq t9 := by
  simp only [execAliveReadbackFail] at ht
  cases ht
  repeat' with_reducible first
    | assumption
    | rfl
    | apply keeps_declareFaulty
theorem keeps_execTandemHelloReceived {pq} (h : TdmHead) (m : Hello) (s : State) (gd_s : Good pq s) (t9 : State) (ht : execTandemHelloReceived h m s = .next t9) : Good pq t9 := by
  simp only [execTandemHelloReceived] at ht
  cases ht
  repeat' with_reducible first
    | assumption
    | rfl
    | apply keeps_hearHello
    | apply keeps_receive
    | apply keeps_ite
    | split
    | intro _
theorem keeps_execTandemSearchTimeout {pq} (s : State) (gd_s : Good pq s) (t9 : State) (ht : execTandemSearchTimeout s = .next t9) : Good pq t9 := by
  simp only [execTandemSearchTimeout] at ht
  cases ht
  repeat' with_reducible first
    | assumption
    | rfl
    | apply keeps_searchEnds
theorem keeps_execFragmentTimeout {pq} (lane : Fin 2) (s : State) (gd_s : Good pq s) (t9 : State) (ht : execFragmentTimeout lane s = .next t9) : Good pq t9 := by
  simp only [execFragmentTimeout] at ht
  cases ht
  repeat' with_reducible first
    | assumption
    | rfl
    | apply keeps_fragmentLate
theorem keeps_execJrn {pq} (h : TdmHead) (e : JournalEntry) (s : State) (gd_s : Good pq s) (t9 : State) (ht : execJrn h e s = .next t9) : Good pq t9 := by
  simp only [execJrn] at ht
  cases ht
  repeat' with_reducible first
    | assumption
    | rfl
    | apply keeps_receive
    | apply keeps_takeJrn
    | apply keeps_ite
    | split
    | intro _
theorem keeps_execJack {pq} (h : TdmHead) (index : Nat) (s : State) (gd_s : Good pq s) (t9 : State) (ht : execJack h index s = .next t9) : Good pq t9 := by
  simp only [execJack] at ht
  cases ht
  repeat' with_reducible first
    | assumption
    | rfl
    | apply keeps_receive
    | apply keeps_takeJack
    | apply keeps_ite
    | split
    | intro _
theorem keeps_execJackTimeout {pq} (s : State) (gd_s : Good pq s) (t9 : State) (ht : execJackTimeout s = .next t9) : Good pq t9 := by
  simp only [execJackTimeout] at ht
  cases ht
  repeat' with_reducible first
    | assumption
    | rfl
    | apply keeps_jackLate
theorem keeps_execJcmt {pq} (h : TdmHead) (index : Nat) (bound : Nat) (s : State) (gd_s : Good pq s) (t9 : State) (ht : execJcmt h index bound s = .next t9) : Good pq t9 := by
  simp only [execJcmt] at ht
  cases ht
  repeat' with_reducible first
    | assumption
    | rfl
    | apply keeps_receive
    | apply keeps_takeJcmt
    | apply keeps_ite
    | split
    | intro _
theorem keeps_execFault {pq} (h : TdmHead) (x1 : Nat) (progress : TdmProgress) (s : State) (gd_s : Good pq s) (t9 : State) (ht : execFault h x1 progress s = .next t9) : Good pq t9 := by
  simp only [execFault] at ht
  cases ht
  repeat' with_reducible first
    | assumption
    | rfl
    | apply keeps_receive
    | apply keeps_takeFault
    | apply keeps_ite
    | split
    | intro _
theorem keeps_execRole {pq} (h : TdmHead) (swap : Option Nat) (s : State) (gd_s : Good pq s) (t9 : State) (ht : execRole h swap s = .next t9) : Good pq t9 := by
  simp only [execRole] at ht
  cases ht
  repeat' with_reducible first
    | assumption
    | rfl
    | apply keeps_receive
    | apply keeps_takeRole
    | apply keeps_ite
    | split
    | intro _
end Sys2Proof.Machine
end

