-- ==== Sys2Proof/Laws/KeepsLatch.lean ====
section
/-! SUPPORT. Every operation of Latch.lean keeps the invariant and leaves the queue of commands alone. -/

namespace Sys2Proof.Machine
theorem keeps_planLoc {pq} (s : State) (p : Nat) (gen : Nat) (ls : Sparse Locator) (n : Nat) (gd_s : Good pq s) : Good pq (State.planLoc s p gen ls n) := by
  unfold State.planLoc
  try dsimp only
  repeat' with_reducible first
    | assumption
    | rfl
    | apply keeps_queuePlan
theorem keeps_placeLocs {pq} (s : State) (n : Nat) (p : Nat) (new : Sparse Locator) (gd_s : Good pq s) : Good pq (State.placeLocs s n p new) := by
  unfold State.placeLocs
  try dsimp only
  repeat' with_reducible first
    | assumption
    | rfl
    | apply keeps_setFld
    | apply keeps_ite
    | split
    | intro _
    | apply keeps_mk
theorem keeps_tellLocs {pq} (s : State) (gd_s : Good pq s) : Good pq (State.tellLocs s) := by
  unfold State.tellLocs
  try dsimp only
  repeat' with_reducible first
    | assumption
    | rfl
    | apply keeps_planLoc
    | refine keeps_foldl _ _ _ (fun _ _ _ => ?_) ?_
    | apply keeps_ite
theorem keeps_refreshPlans {pq} (s : State) (n : Nat) (gd_s : Good pq s) : Good pq (State.refreshPlans s n) := by
  unfold State.refreshPlans
  try dsimp only
  repeat' with_reducible first
    | assumption
    | rfl
    | apply keeps_planStored
    | apply keeps_queueKey
    | apply keeps_queuePlan
    | apply keeps_refreshPhases
    | apply keeps_refreshPresence
    | refine keeps_foldl _ _ _ (fun _ _ _ => ?_) ?_
    | apply keeps_ite
theorem keeps_latchLocs {pq} (s : State) (n : Nat) (gd_s : Good pq s) : Good pq (State.latchLocs s n) := by
  unfold State.latchLocs
  try dsimp only
  repeat' with_reducible first
    | assumption
    | rfl
    | apply keeps_placeLocs
    | apply keeps_refreshPlans
    | apply keeps_tellLocs
    | refine keeps_foldl _ _ _ (fun _ _ _ => ?_) ?_
    | apply keeps_ite
    | split
    | intro _
    | apply keeps_mk
theorem keeps_layerDiverged {pq} (s : State) (id : Nat) (cause : Nat) (own : Nat) (theirs : Nat) (gd_s : Good pq s) : Good pq (State.layerDiverged s id cause own theirs) := by
  unfold State.layerDiverged
  try dsimp only
  repeat' with_reducible first
    | assumption
    | rfl
    | apply keeps_bumpReg
    | apply keeps_postNow
    | apply keeps_ite
    | split
    | intro _
    | apply keeps_mk
theorem keeps_compareHosts {pq} (s : State) (theirs : List (Nat × Nat × Nat)) (gd_s : Good pq s) : Good pq (State.compareHosts s theirs) := by
  unfold State.compareHosts
  try dsimp only
  repeat' with_reducible first
    | assumption
    | rfl
    | apply keeps_layerDiverged
    | refine keeps_foldl _ _ _ (fun _ _ _ => ?_) ?_
    | apply keeps_ite
    | split
theorem keeps_takeNamed {pq} (s : State) (n : Nat × Nat) (gd_s : Good pq s) : Good pq (State.takeNamed s n) := by
  unfold State.takeNamed
  try dsimp only
  repeat' with_reducible first
    | assumption
    | rfl
    | apply keeps_clear
    | apply keeps_latchFrame
    | apply keeps_setLayer
    | apply keeps_ite
    | split
theorem keeps_takeSlots {pq} (s : State) (n : Nat × Nat × Nat × Nat) (gd_s : Good pq s) : Good pq (State.takeSlots s n) := by
  unfold State.takeSlots
  try dsimp only
  repeat' with_reducible first
    | assumption
    | rfl
    | apply keeps_setUni
    | apply keeps_ite
    | split
theorem keeps_takeSacn {pq} (s : State) (r : LatchRec) (gd_s : Good pq s) : Good pq (State.takeSacn s r) := by
  unfold State.takeSacn
  try dsimp only
  repeat' with_reducible first
    | assumption
    | rfl
    | apply keeps_fillSacn
    | apply keeps_takeSlots
    | refine keeps_foldl _ _ _ (fun _ _ _ => ?_) ?_
    | apply keeps_ite
theorem keeps_takeCells {pq} (s : State) (cs : List (Nat × Nat × Nat)) (gd_s : Good pq s) : Good pq (State.takeCells s cs) := by
  unfold State.takeCells
  try dsimp only
  repeat' with_reducible first
    | assumption
    | rfl
    | apply keeps_latchLayer
    | apply keeps_setLayer
    | apply keeps_setZone
    | refine keeps_foldl _ _ _ (fun _ _ _ => ?_) ?_
    | apply keeps_ite
    | split
theorem keeps_takeLadders {pq} (s : State) (ls : List (Nat × Nat × Nat × Nat)) (gd_s : Good pq s) : Good pq (State.takeLadders s ls) := by
  unfold State.takeLadders
  try dsimp only
  repeat' with_reducible first
    | assumption
    | rfl
    | apply keeps_setChan
    | apply keeps_setFld
    | apply keeps_setRetired
    | refine keeps_foldl _ _ _ (fun _ _ _ => ?_) ?_
theorem keeps_takeRecord {pq} (s : State) (r : LatchRec) (gd_s : Good pq s) : Good pq (State.takeRecord s r) := by
  unfold State.takeRecord
  try dsimp only
  repeat' with_reducible first
    | assumption
    | rfl
    | apply keeps_takeCells
    | apply keeps_takeLadders
    | apply keeps_takeNamed
    | apply keeps_takeSacn
    | refine keeps_foldl _ _ _ (fun _ _ _ => ?_) ?_
    | apply keeps_ite
    | split
    | intro _
    | apply keeps_mk
theorem keeps_frameFrom {pq} (s : State) (r : LatchRec) (gd_s : Good pq s) : Good pq (State.frameFrom s r) := by
  unfold State.frameFrom
  try dsimp only
  repeat' with_reducible first
    | assumption
    | rfl
    | apply keeps_setFrame
    | refine keeps_foldl _ _ _ (fun _ _ _ => ?_) ?_
    | apply keeps_ite
    | split
theorem keeps_settleLatch {pq} (s : State) (gd_s : Good pq s) : Good pq (State.settleLatch s) := by
  unfold State.settleLatch
  try dsimp only
  repeat' with_reducible first
    | assumption
    | rfl
    | apply keeps_frameFrom
    | apply keeps_takeRecord
    | apply keeps_ite
    | split
    | intro _
    | apply keeps_mk
theorem keeps_useLatch {pq} (s : State) (r : LatchRec) (gd_s : Good pq s) : Good pq (State.useLatch s r) := by
  unfold State.useLatch
  try dsimp only
  repeat' with_reducible first
    | assumption
    | rfl
    | apply keeps_compareHosts
    | apply keeps_sendTdm
    | apply keeps_settleLatch
    | refine keeps_foldl _ _ _ (fun _ _ _ => ?_) ?_
    | apply keeps_ite
theorem keeps_hearLatch {pq} (s : State) (r : LatchRec) (gd_s : Good pq s) : Good pq (State.hearLatch s r) := by
  unfold State.hearLatch
  try dsimp only
  repeat' with_reducible first
    | assumption
    | rfl
    | apply keeps_useLatch
    | apply keeps_ite
    | split
    | intro _
    | apply keeps_mk
theorem keeps_latchOwn {pq} (s : State) (gd_s : Good pq s) : Good pq (State.latchOwn s) := by
  unfold State.latchOwn
  try dsimp only
  repeat' with_reducible first
    | assumption
    | rfl
    | apply keeps_latchLayer
    | apply keeps_setFrame
    | refine keeps_foldl _ _ _ (fun _ _ _ => ?_) ?_
    | apply keeps_ite
    | split
theorem keeps_notVerified {pq} (s : State) (n : Nat) (gd_s : Good pq s) : Good pq (State.notVerified s n) := by
  unfold State.notVerified
  try dsimp only
  repeat' with_reducible first
    | assumption
    | rfl
    | apply keeps_ite
    | split
    | intro _
    | apply keeps_mk
theorem keeps_latchLate {pq} (s : State) (gd_s : Good pq s) : Good pq (State.latchLate s) := by
  unfold State.latchLate
  try dsimp only
  repeat' with_reducible first
    | assumption
    | rfl
    | apply keeps_latchOwn
    | apply keeps_notVerified
    | apply keeps_runTo
    | apply keeps_ite
theorem keeps_outOfStep {pq} (s : State) (gd_s : Good pq s) : Good pq (State.outOfStep s) := by
  unfold State.outOfStep
  try dsimp only
  repeat' with_reducible first
    | assumption
    | rfl
    | apply keeps_runTo
    | apply keeps_toResync
    | apply keeps_ite
    | split
    | intro _
    | apply keeps_mk
theorem keeps_latchLayers {pq} (s : State) (b : Nat) (gd_s : Good pq s) : Good pq (State.latchLayers s b) := by
  unfold State.latchLayers
  try dsimp only
  repeat' with_reducible first
    | assumption
    | rfl
    | apply keeps_latchLayer
    | refine keeps_foldl _ _ _ (fun _ _ _ => ?_) ?_
theorem keeps_latchAll {pq} (s : State) (b0 : Nat) (b : Nat) (session : Bool) (gd_s : Good pq s) : Good pq (State.latchAll s b0 b session) := by
  unfold State.latchAll
  try dsimp only
  repeat' with_reducible first
    | assumption
    | rfl
    | apply keeps_announcePhases
    | apply keeps_discardMap
    | apply keeps_enterCues
    | apply keeps_latchLayers
    | apply keeps_latchLocs
    | apply keeps_presenceStep
    | apply keeps_sendTdm
    | apply keeps_ite
    | split
    | intro _
    | apply keeps_mk
theorem keeps_latchPending {pq} (s : State) (gd_s : Good pq s) : Good pq (State.latchPending s) := by
  unfold State.latchPending
  try dsimp only
  repeat' with_reducible first
    | assumption
    | rfl
    | apply keeps_useLatch
    | apply keeps_ite
    | split
theorem keeps_execLatch {pq} (h : TdmHead) (r : LatchRec) (s : State) (gd_s : Good pq s) (t9 : State) (ht : execLatch h r s = .next t9) : Good pq t9 := by
  simp only [execLatch] at ht
  cases ht
  repeat' with_reducible first
    | assumption
    | rfl
    | apply keeps_hearLatch
    | apply keeps_receive
    | apply keeps_ite
    | split
    | intro _
theorem keeps_execLatchRecordTimeout {pq} (s : State) (gd_s : Good pq s) (t9 : State) (ht : execLatchRecordTimeout s = .next t9) : Good pq t9 := by
  simp only [execLatchRecordTimeout] at ht
  cases ht
  repeat' with_reducible first
    | assumption
    | rfl
    | apply keeps_latchLate
theorem keeps_execOutOfStep {pq} (s : State) (gd_s : Good pq s) (t9 : State) (ht : execOutOfStep s = .next t9) : Good pq t9 := by
  simp only [execOutOfStep] at ht
  cases ht
  repeat' with_reducible first
    | assumption
    | rfl
    | apply keeps_outOfStep
end Sys2Proof.Machine
end

