-- ==== Sys2Proof/Laws/KeepsSync.lean ====
section
/-! SUPPORT. Every operation of Sync.lean keeps the invariant and leaves the queue of commands alone. -/

namespace Sys2Proof.Machine
theorem keeps_putFrame {pq} (s : State) (i : Nat) (f : StreamFrame) (gd_s : Good pq s) : Good pq (State.putFrame s i f) := by
  unfold State.putFrame
  try dsimp only
  repeat' with_reducible first
    | assumption
    | rfl
    | apply keeps_setFrame
    | apply keeps_setStream
theorem keeps_hearLine {pq} (s : State) (i : Nat) (ts : Nat) (k : Nat) (d : Nat) (gd_s : Good pq s) : Good pq (State.hearLine s i ts k d) := by
  unfold State.hearLine
  try dsimp only
  repeat' with_reducible first
    | assumption
    | rfl
    | apply keeps_checkLine
    | apply keeps_putFrame
    | apply keeps_sendTdm
    | apply keeps_ite
theorem keeps_hearFrame {pq} (s : State) (i : Nat) (ts : Nat) (d : Nat) (gd_s : Good pq s) : Good pq (State.hearFrame s i ts d) := by
  unfold State.hearFrame
  try dsimp only
  repeat' with_reducible first
    | assumption
    | rfl
    | apply keeps_putFrame
theorem keeps_giveLine {pq} (s : State) (i : Nat) (ts : Nat) (k : Nat) (gd_s : Good pq s) : Good pq (State.giveLine s i ts k) := by
  unfold State.giveLine
  try dsimp only
  repeat' with_reducible first
    | assumption
    | rfl
    | apply keeps_sendTdm
    | apply keeps_ite
theorem keeps_takeLine {pq} (s : State) (i : Nat) (ts : Nat) (k : Nat) (bytes : List Byte) (gd_s : Good pq s) : Good pq (State.takeLine s i ts k bytes) := by
  unfold State.takeLine
  try dsimp only
  repeat' with_reducible first
    | assumption
    | rfl
    | apply keeps_bumpReg
    | apply keeps_frameWhole
    | apply keeps_lineWhole
    | apply keeps_putFrame
    | apply keeps_sendTdm
    | apply keeps_ite
theorem keeps_takeUniverse {pq} (s : State) (u : Nat) (slots : List Byte) (gd_s : Good pq s) : Good pq (State.takeUniverse s u slots) := by
  unfold State.takeUniverse
  try dsimp only
  repeat' with_reducible first
    | assumption
    | rfl
    | apply keeps_setUni
    | apply keeps_ite
theorem keeps_giveUniverse {pq} (s : State) (u : Nat) (gd_s : Good pq s) : Good pq (State.giveUniverse s u) := by
  unfold State.giveUniverse
  try dsimp only
  repeat' with_reducible first
    | assumption
    | rfl
    | apply keeps_sendTdm
    | apply keeps_ite
theorem keeps_hearIngest {pq} (s : State) (m : IngestMsg) (gd_s : Good pq s) : Good pq (State.hearIngest s m) := by
  unfold State.hearIngest
  try dsimp only
  repeat' with_reducible first
    | assumption
    | rfl
    | apply keeps_giveLine
    | apply keeps_giveUniverse
    | apply keeps_hearFrame
    | apply keeps_hearLine
    | apply keeps_settleLatch
    | apply keeps_takeLine
    | apply keeps_takeUniverse
    | apply keeps_ite
    | split
theorem keeps_hearCset {pq} (s : State) (tick : Nat) (done : List Nat) (held : List Nat) (gd_s : Good pq s) : Good pq (State.hearCset s tick done held) := by
  unfold State.hearCset
  try dsimp only
  repeat' with_reducible first
    | assumption
    | rfl
    | apply keeps_done
    | apply keeps_ite
    | split
    | intro _
    | apply keeps_mk
theorem keeps_giveUpCset {pq} (s : State) (gd_s : Good pq s) : Good pq (State.giveUpCset s) := by
  unfold State.giveUpCset
  try dsimp only
  repeat' with_reducible first
    | assumption
    | rfl
    | apply keeps_ite
    | split
    | intro _
    | apply keeps_mk
theorem keeps_csetLate {pq} (s : State) (gd_s : Good pq s) : Good pq (State.csetLate s) := by
  unfold State.csetLate
  try dsimp only
  repeat' with_reducible first
    | assumption
    | rfl
    | apply keeps_giveUpCset
    | apply keeps_runTo
    | apply keeps_ite
    | split
theorem keeps_installPart {pq} (s : State) (p : StatePart) (gd_s : Good pq s) : Good pq (State.installPart s p) := by
  unfold State.installPart
  try dsimp only
  repeat' with_reducible first
    | assumption
    | rfl
    | apply keeps_drive
    | apply keeps_setChan
    | apply keeps_setReg
    | refine keeps_foldl _ _ _ (fun _ _ _ => ?_) ?_
    | apply keeps_ite
    | split
    | intro _
    | apply keeps_mk
theorem keeps_sendLater {pq} (s : State) (j : Nat) (gd_s : Good pq s) : Good pq (State.sendLater s j) := by
  unfold State.sendLater
  try dsimp only
  repeat' with_reducible first
    | assumption
    | rfl
    | apply keeps_sendTdm
    | refine keeps_foldl _ _ _ (fun _ _ _ => ?_) ?_
    | apply keeps_ite
    | split
theorem keeps_chooseJoin {pq} (s : State) (left : Nat) (gd_s : Good pq s) : Good pq (State.chooseJoin s left) := by
  unfold State.chooseJoin
  try dsimp only
  repeat' with_reducible first
    | assumption
    | rfl
    | apply keeps_sendLater
    | apply keeps_sendTdm
    | apply keeps_ite
    | split
    | intro _
    | apply keeps_mk
theorem keeps_resyncRound {pq} (s : State) (bytes : Nat) (left : Nat) (streams : Bool) (gd_s : Good pq s) : Good pq (State.resyncRound s bytes left streams) := by
  unfold State.resyncRound
  try dsimp only
  repeat' with_reducible first
    | assumption
    | rfl
    | apply keeps_chooseJoin
    | apply keeps_postResync
    | apply keeps_sendTdm
    | apply keeps_setReg64
    | apply keeps_stopSync
    | refine keeps_foldl _ _ _ (fun _ _ _ => ?_) ?_
    | apply keeps_ite
    | split
    | intro _
    | apply keeps_mk
theorem keeps_resyncAgain {pq} (s : State) (gd_s : Good pq s) : Good pq (State.resyncAgain s) := by
  unfold State.resyncAgain
  try dsimp only
  repeat' with_reducible first
    | assumption
    | rfl
    | apply keeps_runTo
    | apply keeps_startSync
    | apply keeps_ite
    | split
    | intro _
    | apply keeps_mk
theorem keeps_hearBlock {pq} (s : State) (b : StateBlock) (written : Bool) (gd_s : Good pq s) : Good pq (State.hearBlock s b written) := by
  unfold State.hearBlock
  try dsimp only
  repeat' with_reducible first
    | assumption
    | rfl
    | apply keeps_giveImage
    | apply keeps_peerRefused
    | apply keeps_takeImage
    | apply keeps_wantImage
    | apply keeps_ite
    | split
    | intro _
    | apply keeps_mk
theorem keeps_hearJoin {pq} (s : State) (j : Nat) (gd_s : Good pq s) : Good pq (State.hearJoin s j) := by
  unfold State.hearJoin
  try dsimp only
  repeat' with_reducible first
    | assumption
    | rfl
    | apply keeps_ite
    | split
    | intro _
    | apply keeps_mk
theorem keeps_joinAtBoundary {pq} (s : State) (n : Nat) (gd_s : Good pq s) : Good pq (State.joinAtBoundary s n) := by
  unfold State.joinAtBoundary
  try dsimp only
  repeat' with_reducible first
    | assumption
    | rfl
    | apply keeps_applyHeads
    | apply keeps_installPart
    | apply keeps_postResync
    | apply keeps_setRole
    | apply keeps_stopSync
    | refine keeps_foldl _ _ _ (fun _ _ _ => ?_) ?_
    | apply keeps_ite
    | split
    | intro _
    | apply keeps_mk
theorem keeps_execStreamPacketReceive {pq} (i : Fin 16) (p : StreamPacket) (s : State) (gd_s : Good pq s) (t9 : State) (ht : execStreamPacketReceive i p s = .next t9) : Good pq t9 := by
  simp only [execStreamPacketReceive] at ht
  cases ht
  repeat' with_reducible first
    | assumption
    | rfl
    | apply keeps_settleLatch
    | apply keeps_streamPacket
    | apply keeps_ite
theorem keeps_execSacnPacketReceive {pq} (port : Fin 4) (p : SacnPacket) (s : State) (gd_s : Good pq s) (t9 : State) (ht : execSacnPacketReceive port p s = .next t9) : Good pq t9 := by
  simp only [execSacnPacketReceive] at ht
  cases ht
  repeat' with_reducible first
    | assumption
    | rfl
    | apply keeps_sacnPacket
    | apply keeps_settleLatch
    | apply keeps_ite
theorem keeps_execSacnSyncReceive {pq} (port : Fin 4) (cid : BitVec 128) (address : Half) (s : State) (gd_s : Good pq s) (t9 : State) (ht : execSacnSyncReceive port cid address s = .next t9) : Good pq t9 := by
  simp only [execSacnSyncReceive] at ht
  cases ht
  repeat' with_reducible first
    | assumption
    | rfl
    | apply keeps_sacnSync
    | apply keeps_settleLatch
    | apply keeps_ite
theorem keeps_execIngest {pq} (h : TdmHead) (m : IngestMsg) (s : State) (gd_s : Good pq s) (t9 : State) (ht : execIngest h m s = .next t9) : Good pq t9 := by
  simp only [execIngest] at ht
  cases ht
  repeat' with_reducible first
    | assumption
    | rfl
    | apply keeps_hearIngest
    | apply keeps_receive
    | apply keeps_ite
    | split
    | intro _
theorem keeps_execCset {pq} (h : TdmHead) (tick : Nat) (done : List Nat) (held : List Nat) (s : State) (gd_s : Good pq s) (t9 : State) (ht : execCset h tick done held s = .next t9) : Good pq t9 := by
  simp only [execCset] at ht
  cases ht
  repeat' with_reducible first
    | assumption
    | rfl
    | apply keeps_done
    | apply keeps_hearCset
    | apply keeps_receive
    | apply keeps_ite
    | split
    | intro _
theorem keeps_execCsetWaitTimeout {pq} (s : State) (gd_s : Good pq s) (t9 : State) (ht : execCsetWaitTimeout s = .next t9) : Good pq t9 := by
  simp only [execCsetWaitTimeout] at ht
  cases ht
  repeat' with_reducible first
    | assumption
    | rfl
    | apply keeps_csetLate
theorem keeps_execState {pq} (h : TdmHead) (b : StateBlock) (written : Bool) (s : State) (gd_s : Good pq s) (t9 : State) (ht : execState h b written s = .next t9) : Good pq t9 := by
  simp only [execState] at ht
  cases ht
  repeat' with_reducible first
    | assumption
    | rfl
    | apply keeps_hearBlock
    | apply keeps_receive
    | apply keeps_ite
    | split
    | intro _
theorem keeps_execJoin {pq} (h : TdmHead) (bound : Nat) (s : State) (gd_s : Good pq s) (t9 : State) (ht : execJoin h bound s = .next t9) : Good pq t9 := by
  simp only [execJoin] at ht
  cases ht
  repeat' with_reducible first
    | assumption
    | rfl
    | apply keeps_hearJoin
    | apply keeps_receive
    | apply keeps_ite
    | split
    | intro _
theorem keeps_execResyncRound {pq} (bytes : Nat) (left : Nat) (streams : Bool) (s : State) (gd_s : Good pq s) (t9 : State) (ht : execResyncRound bytes left streams s = .next t9) : Good pq t9 := by
  simp only [execResyncRound] at ht
  cases ht
  repeat' with_reducible first
    | assumption
    | rfl
    | apply keeps_resyncRound
theorem keeps_execResyncRetry {pq} (s : State) (gd_s : Good pq s) (t9 : State) (ht : execResyncRetry s = .next t9) : Good pq t9 := by
  simp only [execResyncRetry] at ht
  cases ht
  repeat' with_reducible first
    | assumption
    | rfl
    | apply keeps_resyncAgain
end Sys2Proof.Machine
end

