-- ==== Sys2Proof/Laws/KeepsCheck.lean ====
section
/-! SUPPORT. Every operation of Check.lean keeps the invariant and leaves the queue of commands alone. -/

namespace Sys2Proof.Machine
theorem keeps_permit {pq} (s : State) (n : Nat) (g : Nat) (gd_s : Good pq s) : Good pq (State.permit s n g) := by
  unfold State.permit
  try dsimp only
  repeat' with_reducible first
    | assumption
    | rfl
    | apply keeps_clearSegment
    | apply keeps_ite
theorem keeps_startArb {pq} (s : State) (n : Nat) (g : Nat) (own : Nat) (theirs : Nat) (gd_s : Good pq s) : Good pq (State.startArb s n g own theirs) := by
  unfold State.startArb
  try dsimp only
  repeat' with_reducible first
    | assumption
    | rfl
    | apply keeps_bumpReg
    | apply keeps_permit
    | apply keeps_ite
    | split
    | intro _
    | apply keeps_mk
theorem keeps_compareSigs {pq} (s : State) (n : Nat) (g : Nat) (own : Nat) (theirs : Nat) (gd_s : Good pq s) : Good pq (State.compareSigs s n g own theirs) := by
  unfold State.compareSigs
  try dsimp only
  repeat' with_reducible first
    | assumption
    | rfl
    | apply keeps_bump
    | apply keeps_permit
    | apply keeps_startArb
    | apply keeps_ite
theorem keeps_signUnchecked {pq} (s : State) (f : Frame) (g : Nat) (gd_s : Good pq s) : Good pq (State.signUnchecked s f g) := by
  unfold State.signUnchecked
  try dsimp only
  repeat' with_reducible first
    | assumption
    | rfl
    | apply keeps_bumpReg
    | apply keeps_clearSegment
    | apply keeps_ite
theorem keeps_signSegment {pq} (s : State) (g : Nat) (gd_s : Good pq s) : Good pq (State.signSegment s g) := by
  unfold State.signSegment
  try dsimp only
  repeat' with_reducible first
    | assumption
    | rfl
    | apply keeps_clearSegment
    | apply keeps_compareSigs
    | apply keeps_sendTdm
    | apply keeps_signUnchecked
    | apply keeps_ite
    | split
    | intro _
    | apply keeps_mk
theorem keeps_hearSig {pq} (s : State) (n : Nat) (x : Nat × Nat) (gd_s : Good pq s) : Good pq (State.hearSig s n x) := by
  unfold State.hearSig
  try dsimp only
  repeat' with_reducible first
    | assumption
    | rfl
    | apply keeps_compareSigs
    | apply keeps_ite
    | split
    | intro _
    | apply keeps_mk
theorem keeps_hearSigs {pq} (s : State) (n : Nat) (xs : List (Nat × Nat)) (gd_s : Good pq s) : Good pq (State.hearSigs s n xs) := by
  unfold State.hearSigs
  try dsimp only
  repeat' with_reducible first
    | assumption
    | rfl
    | apply keeps_hearSig
    | refine keeps_foldl _ _ _ (fun _ _ _ => ?_) ?_
    | apply keeps_ite
theorem keeps_holdEnds {pq} (s : State) (g : Nat) (gd_s : Good pq s) : Good pq (State.holdEnds s g) := by
  unfold State.holdEnds
  try dsimp only
  repeat' with_reducible first
    | assumption
    | rfl
    | apply keeps_bumpReg
    | apply keeps_clearSegment
    | apply keeps_runTo
    | apply keeps_ite
    | split
theorem keeps_postRow {pq} (s : State) (a : Arbitration) (row : Nat) (leadSig : Nat) (gd_s : Good pq s) : Good pq (State.postRow s a row leadSig) := by
  unfold State.postRow
  try dsimp only
  repeat' with_reducible first
    | assumption
    | rfl
    | apply keeps_bump
    | apply keeps_postNow
    | apply keeps_ite
    | split
    | intro _
    | apply keeps_mk
theorem keeps_divergence {pq} (s : State) (n : Nat) (gd_s : Good pq s) : Good pq (State.divergence s n) := by
  unfold State.divergence
  try dsimp only
  repeat' with_reducible first
    | assumption
    | rfl
    | apply keeps_bump
    | apply keeps_toResync
    | apply keeps_ite
    | split
    | intro _
    | apply keeps_mk
theorem keeps_rewrite {pq} (s : State) (g : Nat) (vs : List Nat) (gd_s : Good pq s) : Good pq (State.rewrite s g vs) := by
  unfold State.rewrite
  try dsimp only
  repeat' with_reducible first
    | assumption
    | rfl
    | refine keeps_foldl _ _ _ (fun _ _ _ => ?_) ?_
    | apply keeps_ite
    | split
    | intro _
    | apply keeps_mk
theorem keeps_dropSegment {pq} (s : State) (g : Nat) (gd_s : Good pq s) : Good pq (State.dropSegment s g) := by
  unfold State.dropSegment
  try dsimp only
  repeat' with_reducible first
    | assumption
    | rfl
    | apply keeps_setPort
    | refine keeps_foldl _ _ _ (fun _ _ _ => ?_) ?_
    | apply keeps_ite
    | split
    | intro _
    | apply keeps_mk
theorem keeps_leaderRow {pq} (s : State) (a : Arbitration) (row : Nat) (gd_s : Good pq s) : Good pq (State.leaderRow s a row) := by
  unfold State.leaderRow
  try dsimp only
  repeat' with_reducible first
    | assumption
    | rfl
    | apply keeps_clearSegment
    | apply keeps_declareFaulty
    | apply keeps_dropSegment
    | apply keeps_goSolo
    | apply keeps_permit
    | apply keeps_rewrite
    | apply keeps_unitFault
    | apply keeps_ite
    | split
theorem keeps_wheelerRow {pq} (s : State) (a : Arbitration) (row : Nat) (gd_s : Good pq s) : Good pq (State.wheelerRow s a row) := by
  unfold State.wheelerRow
  try dsimp only
  repeat' with_reducible first
    | assumption
    | rfl
    | apply keeps_declareFaulty
    | apply keeps_divergence
    | apply keeps_permit
    | apply keeps_unitFault
    | apply keeps_ite
    | split
theorem keeps_settleArb {pq} (s : State) (a : Arbitration) (gd_s : Good pq s) : Good pq (State.settleArb s a) := by
  unfold State.settleArb
  try dsimp only
  repeat' with_reducible first
    | assumption
    | rfl
    | apply keeps_leaderRow
    | apply keeps_postRow
    | apply keeps_wheelerRow
    | apply keeps_ite
    | split
    | intro _
    | apply keeps_mk
theorem keeps_shadowResult {pq} (s : State) (a : Arbitration) (v : Nat) (vals : List Nat) (gd_s : Good pq s) : Good pq (State.shadowResult s a v vals) := by
  unfold State.shadowResult
  try dsimp only
  repeat' with_reducible first
    | assumption
    | rfl
    | apply keeps_sendTdm
    | apply keeps_settleArb
    | apply keeps_ite
    | split
    | intro _
    | apply keeps_mk
theorem keeps_shadowDone {pq} (s : State) (upset : Option (DWord × List Half)) (gd_s : Good pq s) : Good pq (State.shadowDone s upset) := by
  unfold State.shadowDone
  try dsimp only
  repeat' with_reducible first
    | assumption
    | rfl
    | apply keeps_runTo
    | apply keeps_shadowResult
    | apply keeps_ite
    | split
theorem keeps_hearShd {pq} (s : State) (n : Nat) (g : Nat) (sig : Nat) (shadow : Nat) (gd_s : Good pq s) : Good pq (State.hearShd s n g sig shadow) := by
  unfold State.hearShd
  try dsimp only
  repeat' with_reducible first
    | assumption
    | rfl
    | apply keeps_settleArb
    | apply keeps_ite
    | split
    | intro _
    | apply keeps_mk
theorem keeps_postponeSwap {pq} (s : State) (n : Nat) (gd_s : Good pq s) : Good pq (State.postponeSwap s n) := by
  unfold State.postponeSwap
  try dsimp only
  repeat' with_reducible first
    | assumption
    | rfl
    | apply keeps_endSwap
    | apply keeps_postSwap
    | apply keeps_setReg64
    | apply keeps_setSwapTick
    | apply keeps_ite
    | split
    | intro _
    | apply keeps_mk
theorem keeps_stepDown {pq} (s : State) (gd_s : Good pq s) : Good pq (State.stepDown s) := by
  unfold State.stepDown
  try dsimp only
  repeat' with_reducible first
    | assumption
    | rfl
    | apply keeps_discardJournal
    | apply keeps_endSwap
    | apply keeps_setPort
    | apply keeps_setRole
    | refine keeps_foldl _ _ _ (fun _ _ _ => ?_) ?_
theorem keeps_stepUp {pq} (s : State) (gd_s : Good pq s) : Good pq (State.stepUp s) := by
  unfold State.stepUp
  try dsimp only
  repeat' with_reducible first
    | assumption
    | rfl
    | apply keeps_discardJournal
    | apply keeps_endSwap
    | apply keeps_holdDmx
    | apply keeps_ownSession
    | apply keeps_phaseTakeover
    | apply keeps_resendCmds
    | apply keeps_setRole
    | refine keeps_foldl _ _ _ (fun _ _ _ => ?_) ?_
theorem keeps_swapRoles {pq} (s : State) (gd_s : Good pq s) : Good pq (State.swapRoles s) := by
  unfold State.swapRoles
  try dsimp only
  repeat' with_reducible first
    | assumption
    | rfl
    | apply keeps_postSwap
    | apply keeps_setSwapTick
    | apply keeps_stepDown
    | apply keeps_stepUp
    | apply keeps_ite
    | split
    | intro _
    | apply keeps_mk
theorem keeps_duePeriodic {pq} (s : State) (n : Nat) (gd_s : Good pq s) : Good pq (State.duePeriodic s n) := by
  unfold State.duePeriodic
  try dsimp only
  repeat' with_reducible first
    | assumption
    | rfl
    | apply keeps_journalItem
    | apply keeps_sendRole
    | apply keeps_setSwapTick
    | apply keeps_ite
theorem keeps_swapStep {pq} (s : State) (n : Nat) (gd_s : Good pq s) : Good pq (State.swapStep s n) := by
  unfold State.swapStep
  try dsimp only
  repeat' with_reducible first
    | assumption
    | rfl
    | apply keeps_endSwap
    | apply keeps_postSwap
    | apply keeps_postponeSwap
    | apply keeps_setSwapTick
    | apply keeps_swapRoles
    | apply keeps_ite
    | split
    | intro _
    | apply keeps_mk
theorem keeps_execSegmentSigned {pq} (seg : Fin 2560) (s : State) (gd_s : Good pq s) (t9 : State) (ht : execSegmentSigned seg s = .next t9) : Good pq t9 := by
  simp only [execSegmentSigned] at ht
  cases ht
  repeat' with_reducible first
    | assumption
    | rfl
    | apply keeps_signSegment
theorem keeps_execCheckHoldTimeout {pq} (seg : Fin 2560) (s : State) (gd_s : Good pq s) (t9 : State) (ht : execCheckHoldTimeout seg s = .next t9) : Good pq t9 := by
  simp only [execCheckHoldTimeout] at ht
  cases ht
  repeat' with_reducible first
    | assumption
    | rfl
    | apply keeps_holdEnds
theorem keeps_execSig {pq} (h : TdmHead) (tick : Nat) (sigs : List (Nat × Nat)) (s : State) (gd_s : Good pq s) (t9 : State) (ht : execSig h tick sigs s = .next t9) : Good pq t9 := by
  simp only [execSig] at ht
  cases ht
  repeat' with_reducible first
    | assumption
    | rfl
    | apply keeps_hearSigs
    | apply keeps_receive
    | apply keeps_ite
    | split
    | intro _
theorem keeps_execShadowLaneDone {pq} (upset : Option (DWord × List Half)) (s : State) (gd_s : Good pq s) (t9 : State) (ht : execShadowLaneDone upset s = .next t9) : Good pq t9 := by
  simp only [execShadowLaneDone] at ht
  cases ht
  repeat' with_reducible first
    | assumption
    | rfl
    | apply keeps_shadowDone
theorem keeps_execShd {pq} (h : TdmHead) (tick : Nat) (seg : Nat) (sig : Nat) (shadow : Nat) (s : State) (gd_s : Good pq s) (t9 : State) (ht : execShd h tick seg sig shadow s = .next t9) : Good pq t9 := by
  simp only [execShd] at ht
  cases ht
  repeat' with_reducible first
    | assumption
    | rfl
    | apply keeps_hearShd
    | apply keeps_receive
    | apply keeps_ite
    | split
    | intro _
end Sys2Proof.Machine
end

