-- ==== Sys2Proof/Laws/KeepsPower.lean ====
section
/-! SUPPORT. Every operation of Power.lean keeps the invariant and leaves the queue of commands alone. -/

namespace Sys2Proof.Machine
theorem keeps_resetRegs {pq} (s : State) (hit : Nat → Bool) (keep : Nat → Nat) (gd_s : Good pq s) : Good pq (State.resetRegs s hit keep) := by
  unfold State.resetRegs
  try dsimp only
  repeat' with_reducible first
    | assumption
    | rfl
    | apply keeps_setReg
    | refine keeps_foldl _ _ _ (fun _ _ _ => ?_) ?_
    | apply keeps_ite
theorem keeps_cutLinks {pq} (s : State) (ws : List Nat) (gd_s : Good pq s) : Good pq (State.cutLinks s ws) := by
  unfold State.cutLinks
  try dsimp only
  repeat' with_reducible first
    | assumption
    | rfl
    | apply keeps_setLink
    | refine keeps_foldl _ _ _ (fun _ _ _ => ?_) ?_
theorem keeps_loseLogic {pq} (s : State) (d : Nat) (gd_s : Good pq s) : Good pq (State.loseLogic s d) := by
  unfold State.loseLogic
  try dsimp only
  repeat' with_reducible first
    | assumption
    | rfl
    | apply keeps_due
    | apply keeps_enterHoldover
    | apply keeps_ite
    | split
    | intro _
    | apply keeps_mk
theorem keeps_resetDomain {pq} (s : State) (d : Nat) (gd_s : Good pq s) : Good pq (State.resetDomain s d) := by
  unfold State.resetDomain
  try dsimp only
  repeat' with_reducible first
    | assumption
    | rfl
    | apply keeps_cutLinks
    | apply keeps_loseLogic
    | apply keeps_resetRegs
theorem keeps_setOn {pq} (s : State) (d : Nat) (v : Bool) (gd_s : Good pq s) : Good pq (State.setOn s d v) := by
  unfold State.setOn
  try dsimp only
  repeat' with_reducible first
    | assumption
    | rfl
    | apply keeps_setReg
theorem keeps_powerOff {pq} (s : State) (d : Nat) (gd_s : Good pq s) : Good pq (State.powerOff s d) := by
  unfold State.powerOff
  try dsimp only
  repeat' with_reducible first
    | assumption
    | rfl
    | apply keeps_resetDomain
    | apply keeps_setOn
    | apply keeps_ite
    | split
    | intro _
    | apply keeps_mk
theorem keeps_domainReset {pq} (s : State) (d : Nat) (gd_s : Good pq s) : Good pq (State.domainReset s d) := by
  unfold State.domainReset
  try dsimp only
  repeat' with_reducible first
    | assumption
    | rfl
    | apply keeps_resetDomain
    | apply keeps_ite
theorem keeps_requestDomain {pq} (s : State) (d : Nat) (on : Bool) (gd_s : Good pq s) : Good pq (State.requestDomain s d on) := by
  unfold State.requestDomain
  try dsimp only
  repeat' with_reducible first
    | assumption
    | rfl
    | apply keeps_powerOff
    | apply keeps_raise
    | apply keeps_setReg
    | apply keeps_ite
    | split
    | intro _
    | apply keeps_mk
theorem keeps_writePwrReq {pq} (s : State) (v : Nat) (gd_s : Good pq s) : Good pq (State.writePwrReq s v) := by
  unfold State.writePwrReq
  try dsimp only
  repeat' with_reducible first
    | assumption
    | rfl
    | apply keeps_requestDomain
    | refine keeps_foldl _ _ _ (fun _ _ _ => ?_) ?_
theorem keeps_powerUp {pq} (s : State) (d : Nat) (gd_s : Good pq s) : Good pq (State.powerUp s d) := by
  unfold State.powerUp
  try dsimp only
  repeat' with_reducible first
    | assumption
    | rfl
    | apply keeps_setOn
    | apply keeps_ite
    | split
    | intro _
    | apply keeps_mk
theorem keeps_hostReset {pq} (s : State) (d : Nat) (gd_s : Good pq s) : Good pq (State.hostReset s d) := by
  unfold State.hostReset
  try dsimp only
  repeat' with_reducible first
    | assumption
    | rfl
    | apply keeps_domainReset
    | apply keeps_raise
    | apply keeps_ite
theorem keeps_writeDomRst {pq} (s : State) (v : Nat) (gd_s : Good pq s) : Good pq (State.writeDomRst s v) := by
  unfold State.writeDomRst
  try dsimp only
  repeat' with_reducible first
    | assumption
    | rfl
    | apply keeps_hostReset
    | refine keeps_foldl _ _ _ (fun _ _ _ => ?_) ?_
    | apply keeps_ite
theorem keeps_coldStart {pq} (s : State) (gd_s : Good pq s) : Good pq (State.coldStart s) := by
  exact ⟨gd_s.1, rfl, (by intro p hp; cases hp), Nat.zero_le _⟩
theorem keeps_strap {pq} (s : State) (m : Nat) (old : Nat) (gd_s : Good pq s) : Good pq (State.strap s m old) := by
  unfold State.strap
  try dsimp only
  repeat' with_reducible first
    | assumption
    | rfl
    | apply keeps_setFld
    | apply keeps_setSvc
    | apply keeps_ite
theorem keeps_powerOn {pq} (s : State) (m : Nat) (brown : Bool) (gd_s : Good pq s) : Good pq (State.powerOn s m brown) := by
  unfold State.powerOn
  try dsimp only
  repeat' with_reducible first
    | assumption
    | rfl
    | apply keeps_coldStart
    | apply keeps_raise
    | apply keeps_setReg
    | apply keeps_strap
    | apply keeps_ite
theorem keeps_warmBase {pq} (s : State) (gd_s : Good pq s) : Good pq (State.warmBase s) := by
  have hr := keeps_resetRegs (pq := pq) s (fun _ => true) warmKept gd_s
  exact ⟨gd_s.1, hr.2.1, (by intro p hp; cases hp), gd_s.2.2.2⟩
theorem keeps_warmStart {pq} (s : State) (gd_s : Good pq s) : Good pq (State.warmStart s) := by
  unfold State.warmStart
  try dsimp only
  repeat' with_reducible first
    | assumption
    | rfl
    | apply keeps_postTime
    | apply keeps_setFld
    | apply keeps_warmBase
    | apply keeps_ite
theorem keeps_pinWarm {pq} (s : State) (m : Nat) (gd_s : Good pq s) : Good pq (State.pinWarm s m) := by
  unfold State.pinWarm
  try dsimp only
  repeat' with_reducible first
    | assumption
    | rfl
    | apply keeps_raise
    | apply keeps_setFld
    | apply keeps_strap
    | apply keeps_warmStart
    | apply keeps_ite
theorem keeps_hostDevice {pq} (s : State) (w : HostReset) (gd_s : Good pq s) : Good pq (State.hostDevice s w) := by
  unfold State.hostDevice
  try dsimp only
  repeat' with_reducible first
    | assumption
    | rfl
    | apply keeps_raise
    | apply keeps_setFld
    | apply keeps_strap
    | apply keeps_warmStart
    | apply keeps_ite
    | split
    | intro _
    | apply keeps_mk
theorem keeps_switchOn {pq} (s : State) (ds : List Nat) (gd_s : Good pq s) : Good pq (State.switchOn s ds) := by
  unfold State.switchOn
  try dsimp only
  repeat' with_reducible first
    | assumption
    | rfl
    | apply keeps_setOn
    | refine keeps_foldl _ _ _ (fun _ _ _ => ?_) ?_
theorem keeps_clocksUp {pq} (s : State) (gd_s : Good pq s) : Good pq (State.clocksUp s) := by
  unfold State.clocksUp
  try dsimp only
  repeat' with_reducible first
    | assumption
    | rfl
    | apply keeps_setReg
theorem keeps_trained {pq} (s : State) (chB : Bool) (bytes : Nat) (gd_s : Good pq s) : Good pq (State.trained s chB bytes) := by
  unfold State.trained
  try dsimp only
  repeat' with_reducible first
    | assumption
    | rfl
    | apply keeps_clocksUp
    | apply keeps_setOn
    | apply keeps_setReg
    | apply keeps_setReg64
    | apply keeps_switchOn
    | apply keeps_ite
theorem keeps_bootDomains {pq} (s : State) (gd_s : Good pq s) : Good pq (State.bootDomains s) := by
  unfold State.bootDomains
  try dsimp only
  repeat' with_reducible first
    | assumption
    | rfl
    | apply keeps_setReg
    | apply keeps_switchOn
    | refine keeps_foldl _ _ _ (fun _ _ _ => ?_) ?_
theorem keeps_deviceKeys {pq} (s : State) (gd_s : Good pq s) : Good pq (State.deviceKeys s) := by
  unfold State.deviceKeys
  try dsimp only
  repeat' with_reducible first
    | assumption
    | rfl
    | apply keeps_share
    | apply keeps_ite
    | split
    | intro _
    | apply keeps_mk
theorem keeps_loadSlots {pq} (s : State) (gd_s : Good pq s) : Good pq (State.loadSlots s) := by
  unfold State.loadSlots
  try dsimp only
  repeat' with_reducible first
    | assumption
    | rfl
    | apply keeps_setReg64
    | apply keeps_setSlot
    | refine keeps_foldl _ _ _ (fun _ _ _ => ?_) ?_
    | apply keeps_ite
    | split
theorem keeps_startKeys {pq} (s : State) (gd_s : Good pq s) : Good pq (State.startKeys s) := by
  unfold State.startKeys
  try dsimp only
  repeat' with_reducible first
    | assumption
    | rfl
    | apply keeps_deviceKeys
    | apply keeps_loadSlots
    | apply keeps_setReg
    | apply keeps_showAuthority
    | apply keeps_ite
    | split
    | intro _
    | apply keeps_mk
theorem keeps_putBridle {pq} (s : State) (b : List Byte) (gd_s : Good pq s) : Good pq (State.putBridle s b) := by
  unfold State.putBridle
  try dsimp only
  repeat' with_reducible first
    | assumption
    | rfl
    | apply keeps_setReg
    | apply keeps_setReg64
    | refine keeps_foldl _ _ _ (fun _ _ _ => ?_) ?_
    | apply keeps_ite
    | split
    | intro _
    | apply keeps_mk
theorem keeps_loadBridle {pq} (s : State) (table : Option (List Byte)) (signed : Bool) (gd_s : Good pq s) : Good pq (State.loadBridle s table signed) := by
  unfold State.loadBridle
  try dsimp only
  repeat' with_reducible first
    | assumption
    | rfl
    | apply keeps_putBridle
    | apply keeps_raise
    | apply keeps_secNotice
    | apply keeps_ite
    | split
theorem keeps_recoveryMasks {pq} (s : State) (gd_s : Good pq s) : Good pq (State.recoveryMasks s) := by
  unfold State.recoveryMasks
  try dsimp only
  repeat' with_reducible first
    | assumption
    | rfl
    | apply keeps_setReg
    | refine keeps_foldl _ _ _ (fun _ _ _ => ?_) ?_
theorem keeps_bootUp {pq} (s : State) (table : Option (List Byte)) (signed : Bool) (gd_s : Good pq s) : Good pq (State.bootUp s table signed) := by
  unfold State.bootUp
  try dsimp only
  repeat' with_reducible first
    | assumption
    | rfl
    | apply keeps_bootDomains
    | apply keeps_chooseSlot
    | apply keeps_clocksUp
    | apply keeps_loadBridle
    | apply keeps_loadFactory
    | apply keeps_recoveryMasks
    | apply keeps_setFld
    | apply keeps_setSvc
    | apply keeps_startKeys
    | apply keeps_ite
theorem keeps_setReady {pq} (s : State) (gd_s : Good pq s) : Good pq (State.setReady s) := by
  unfold State.setReady
  try dsimp only
  repeat' with_reducible first
    | assumption
    | rfl
    | apply keeps_raise
    | apply keeps_ite
theorem keeps_trainPcie {pq} (s : State) (gd_s : Good pq s) : Good pq (State.trainPcie s) := by
  unfold State.trainPcie
  try dsimp only
  repeat' with_reducible first
    | assumption
    | rfl
    | apply keeps_ite
    | split
    | intro _
    | apply keeps_mk
theorem keeps_perstHif {pq} (s : State) (gd_s : Good pq s) : Good pq (State.perstHif s) := by
  unfold State.perstHif
  try dsimp only
  repeat' with_reducible first
    | assumption
    | rfl
    | apply keeps_domainReset
    | apply keeps_ite
theorem keeps_postClock {pq} (s : State) (k : Nat) (since : Option Nat) (gd_s : Good pq s) : Good pq (State.postClock s k since) := by
  unfold State.postClock
  try dsimp only
  repeat' with_reducible first
    | assumption
    | rfl
    | apply keeps_postNow
theorem keeps_loseRef {pq} (s : State) (gd_s : Good pq s) : Good pq (State.loseRef s) := by
  unfold State.loseRef
  try dsimp only
  repeat' with_reducible first
    | assumption
    | rfl
    | apply keeps_clear
    | apply keeps_postClock
    | apply keeps_raise
    | apply keeps_ite
    | split
    | intro _
    | apply keeps_mk
theorem keeps_regainRef {pq} (s : State) (gd_s : Good pq s) : Good pq (State.regainRef s) := by
  unfold State.regainRef
  try dsimp only
  repeat' with_reducible first
    | assumption
    | rfl
    | apply keeps_clear
    | apply keeps_postClock
    | apply keeps_raise
    | apply keeps_ite
    | split
    | intro _
    | apply keeps_mk
theorem keeps_pllEffect {pq} (s : State) (k : Nat) (gd_s : Good pq s) : Good pq (State.pllEffect s k) := by
  unfold State.pllEffect
  try dsimp only
  repeat' with_reducible first
    | assumption
    | rfl
    | apply keeps_cutLinks
    | apply keeps_deviceFault
    | apply keeps_setChan
    | apply keeps_unitFault
    | refine keeps_foldl _ _ _ (fun _ _ _ => ?_) ?_
    | apply keeps_ite
    | split
    | intro _
    | apply keeps_mk
theorem keeps_losePll {pq} (s : State) (k : Nat) (gd_s : Good pq s) : Good pq (State.losePll s k) := by
  unfold State.losePll
  try dsimp only
  repeat' with_reducible first
    | assumption
    | rfl
    | apply keeps_pllEffect
    | apply keeps_postClock
    | apply keeps_raise
    | apply keeps_setReg
    | apply keeps_ite
    | split
    | intro _
    | apply keeps_mk
theorem keeps_regainPll {pq} (s : State) (k : Nat) (gd_s : Good pq s) : Good pq (State.regainPll s k) := by
  unfold State.regainPll
  try dsimp only
  repeat' with_reducible first
    | assumption
    | rfl
    | apply keeps_postClock
    | apply keeps_setReg
    | apply keeps_ite
    | split
    | intro _
    | apply keeps_mk
theorem keeps_restartRider {pq} (s : State) (gd_s : Good pq s) : Good pq (State.restartRider s) := by
  unfold State.restartRider
  try dsimp only
  repeat' with_reducible first
    | assumption
    | rfl
    | apply keeps_bumpReg
    | apply keeps_clear
    | apply keeps_deviceFault
    | apply keeps_domainReset
    | apply keeps_trialFails
    | apply keeps_ite
    | split
    | intro _
    | apply keeps_mk
theorem keeps_endTest {pq} (s : State) (gd_s : Good pq s) : Good pq (State.endTest s) := by
  unfold State.endTest
  try dsimp only
  repeat' with_reducible first
    | assumption
    | rfl
    | apply keeps_clear
    | apply keeps_resetRegs
    | apply keeps_setFeed
    | apply keeps_stopFeed
    | refine keeps_foldl _ _ _ (fun _ _ _ => ?_) ?_
    | apply keeps_ite
    | split
    | intro _
    | apply keeps_mk
theorem keeps_faultBothLanes {pq} (s : State) (gd_s : Good pq s) : Good pq (State.faultBothLanes s) := by
  unfold State.faultBothLanes
  try dsimp only
  repeat' with_reducible first
    | assumption
    | rfl
    | apply keeps_sendOn
    | apply keeps_ite
theorem keeps_haltTicks {pq} (s : State) (gd_s : Good pq s) : Good pq (State.haltTicks s) := by
  unfold State.haltTicks
  try dsimp only
  repeat' with_reducible first
    | assumption
    | rfl
    | apply keeps_clear
    | apply keeps_discardAllCues
    | apply keeps_dropChange
    | apply keeps_startAfter
    | apply keeps_ite
    | split
    | intro _
    | apply keeps_mk
theorem keeps_dropFlight {pq} (s : State) (gd_s : Good pq s) : Good pq (State.dropFlight s) := by
  unfold State.dropFlight
  try dsimp only
  repeat' with_reducible first
    | assumption
    | rfl
    | apply keeps_ite
    | split
    | intro _
    | apply keeps_mk
theorem keeps_fileOpen {pq} (s : State) (gd_s : Good pq s) : Good pq (State.fileOpen s) := by
  unfold State.fileOpen
  try dsimp only
  repeat' with_reducible first
    | assumption
    | rfl
    | apply keeps_fileRecord
    | refine keeps_foldl _ _ _ (fun _ _ _ => ?_) ?_
    | apply keeps_ite
    | split
    | intro _
    | apply keeps_mk
theorem keeps_darkOutputs {pq} (s : State) (gd_s : Good pq s) : Good pq (State.darkOutputs s) := by
  unfold State.darkOutputs
  try dsimp only
  repeat' with_reducible first
    | assumption
    | rfl
    | apply keeps_stopDrive
    | apply keeps_ite
    | split
    | intro _
    | apply keeps_mk
theorem keeps_failSafe {pq} (s : State) (gd_s : Good pq s) : Good pq (State.failSafe s) := by
  unfold State.failSafe
  try dsimp only
  repeat' with_reducible first
    | assumption
    | rfl
    | apply keeps_clear
    | apply keeps_darkOutputs
    | apply keeps_declareFaulty
    | apply keeps_domainReset
    | apply keeps_dropFlight
    | apply keeps_endTest
    | apply keeps_faultBothLanes
    | apply keeps_fileOpen
    | apply keeps_haltTicks
    | apply keeps_logRecord
    | apply keeps_raise
    | apply keeps_setFld
    | apply keeps_setReg
    | apply keeps_setSvc
    | apply keeps_trialFails
    | refine keeps_foldl _ _ _ (fun _ _ _ => ?_) ?_
    | apply keeps_ite
    | split
    | intro _
    | apply keeps_mk
theorem keeps_enterTest {pq} (s : State) (v : Nat) (gd_s : Good pq s) : Good pq (State.enterTest s v) := by
  unfold State.enterTest
  try dsimp only
  repeat' with_reducible first
    | assumption
    | rfl
    | apply keeps_setSvc
    | apply keeps_tandemOff
    | apply keeps_ite
theorem keeps_leaveTest {pq} (s : State) (v : Nat) (gd_s : Good pq s) : Good pq (State.leaveTest s v) := by
  unfold State.leaveTest
  try dsimp only
  repeat' with_reducible first
    | assumption
    | rfl
    | apply keeps_endTest
    | apply keeps_setSvc
    | apply keeps_ite
theorem keeps_execPowerOnReset {pq} (mode : Fin 8) (s : State) (gd_s : Good pq s) (t9 : State) (ht : execPowerOnReset mode s = .next t9) : Good pq t9 := by
  simp only [execPowerOnReset] at ht
  cases ht
  repeat' with_reducible first
    | assumption
    | rfl
    | apply keeps_powerOn
theorem keeps_execBrownout {pq} (mode : Fin 8) (s : State) (gd_s : Good pq s) (t9 : State) (ht : execBrownout mode s = .next t9) : Good pq t9 := by
  simp only [execBrownout] at ht
  cases ht
  repeat' with_reducible first
    | assumption
    | rfl
    | apply keeps_powerOn
theorem keeps_execPinWarmReset {pq} (mode : Fin 8) (s : State) (gd_s : Good pq s) (t9 : State) (ht : execPinWarmReset mode s = .next t9) : Good pq t9 := by
  simp only [execPinWarmReset] at ht
  cases ht
  repeat' with_reducible first
    | assumption
    | rfl
    | apply keeps_pinWarm
theorem keeps_execHostDeviceReset {pq} (which : HostReset) (s : State) (gd_s : Good pq s) (t9 : State) (ht : execHostDeviceReset which s = .next t9) : Good pq t9 := by
  simp only [execHostDeviceReset] at ht
  cases ht
  repeat' with_reducible first
    | assumption
    | rfl
    | apply keeps_hostDevice
theorem keeps_execPerstHifDomainReset {pq} (s : State) (gd_s : Good pq s) (t9 : State) (ht : execPerstHifDomainReset s = .next t9) : Good pq t9 := by
  simp only [execPerstHifDomainReset] at ht
  cases ht
  repeat' with_reducible first
    | assumption
    | rfl
    | apply keeps_perstHif
theorem keeps_execBoot {pq} (table : Option (BitVec 256)) (signed : Bool) (master : Option Half) (s : State) (gd_s : Good pq s) (t9 : State) (ht : execBoot table signed master s = .next t9) : Good pq t9 := by
  simp only [execBoot] at ht
  cases ht
  repeat' with_reducible first
    | assumption
    | rfl
    | apply keeps_bootUp
    | apply keeps_ite
    | split
    | intro _
    | apply keeps_mk
theorem keeps_execDramTrainingDone {pq} (chB : Bool) (bytes : DWord) (s : State) (gd_s : Good pq s) (t9 : State) (ht : execDramTrainingDone chB bytes s = .next t9) : Good pq t9 := by
  simp only [execDramTrainingDone] at ht
  cases ht
  repeat' with_reducible first
    | assumption
    | rfl
    | apply keeps_trained
theorem keeps_execRiderReady {pq} (s : State) (gd_s : Good pq s) (t9 : State) (ht : execRiderReady s = .next t9) : Good pq t9 := by
  simp only [execRiderReady] at ht
  cases ht
  repeat' with_reducible first
    | assumption
    | rfl
    | apply keeps_setReady
theorem keeps_execPcieLinkTraining {pq} (s : State) (gd_s : Good pq s) (t9 : State) (ht : execPcieLinkTraining s = .next t9) : Good pq t9 := by
  simp only [execPcieLinkTraining] at ht
  cases ht
  repeat' with_reducible first
    | assumption
    | rfl
    | apply keeps_trainPcie
theorem keeps_execThermTrip {pq} (s : State) (gd_s : Good pq s) (t9 : State) (ht : execThermTrip s = .next t9) : Good pq t9 := by
  simp only [execThermTrip] at ht
  cases ht
  repeat' with_reducible first
    | assumption
    | rfl
    | apply keeps_ite
    | split
    | intro _
    | apply keeps_mk
theorem keeps_execClkRefLost {pq} (s : State) (gd_s : Good pq s) (t9 : State) (ht : execClkRefLost s = .next t9) : Good pq t9 := by
  simp only [execClkRefLost] at ht
  cases ht
  repeat' with_reducible first
    | assumption
    | rfl
    | apply keeps_loseRef
theorem keeps_execClkRefReturned {pq} (s : State) (gd_s : Good pq s) (t9 : State) (ht : execClkRefReturned s = .next t9) : Good pq t9 := by
  simp only [execClkRefReturned] at ht
  cases ht
  repeat' with_reducible first
    | assumption
    | rfl
    | apply keeps_regainRef
theorem keeps_execPllLockLost {pq} (k : Fin 7) (s : State) (gd_s : Good pq s) (t9 : State) (ht : execPllLockLost k s = .next t9) : Good pq t9 := by
  simp only [execPllLockLost] at ht
  cases ht
  repeat' with_reducible first
    | assumption
    | rfl
    | apply keeps_losePll
theorem keeps_execPllRelock {pq} (k : Fin 7) (s : State) (gd_s : Good pq s) (t9 : State) (ht : execPllRelock k s = .next t9) : Good pq t9 := by
  simp only [execPllRelock] at ht
  cases ht
  repeat' with_reducible first
    | assumption
    | rfl
    | apply keeps_regainPll
theorem keeps_execDomainPowerRequest {pq} (v : Word) (s : State) (gd_s : Good pq s) (t9 : State) (ht : execDomainPowerRequest v s = .next t9) : Good pq t9 := by
  simp only [execDomainPowerRequest] at ht
  cases ht
  repeat' with_reducible first
    | assumption
    | rfl
    | apply keeps_writePwrReq
theorem keeps_execDomainPowerUpDone {pq} (d : Fin 14) (s : State) (gd_s : Good pq s) (t9 : State) (ht : execDomainPowerUpDone d s = .next t9) : Good pq t9 := by
  simp only [execDomainPowerUpDone] at ht
  cases ht
  repeat' with_reducible first
    | assumption
    | rfl
    | apply keeps_powerUp
theorem keeps_execDomainReset {pq} (d : Fin 14) (v : Option Word) (s : State) (gd_s : Good pq s) (t9 : State) (ht : execDomainReset d v s = .next t9) : Good pq t9 := by
  unfold execDomainReset at ht
  split at ht
  · cases ht; exact keeps_writeDomRst _ _ gd_s
  · cases ht; exact keeps_domainReset _ _ gd_s
theorem keeps_execRiderRestart {pq} (s : State) (gd_s : Good pq s) (t9 : State) (ht : execRiderRestart s = .next t9) : Good pq t9 := by
  simp only [execRiderRestart] at ht
  cases ht
  repeat' with_reducible first
    | assumption
    | rfl
    | apply keeps_restartRider
theorem keeps_execFailsafeSequence {pq} (s : State) (gd_s : Good pq s) (t9 : State) (ht : execFailsafeSequence s = .next t9) : Good pq t9 := by
  simp only [execFailsafeSequence] at ht
  cases ht
  repeat' with_reducible first
    | assumption
    | rfl
    | apply keeps_failSafe
theorem keeps_execSvcEnterTest {pq} (v : Word) (s : State) (gd_s : Good pq s) (t9 : State) (ht : execSvcEnterTest v s = .next t9) : Good pq t9 := by
  simp only [execSvcEnterTest] at ht
  cases ht
  repeat' with_reducible first
    | assumption
    | rfl
    | apply keeps_enterTest
theorem keeps_execSvcLeaveTest {pq} (v : Word) (s : State) (gd_s : Good pq s) (t9 : State) (ht : execSvcLeaveTest v s = .next t9) : Good pq t9 := by
  simp only [execSvcLeaveTest] at ht
  cases ht
  repeat' with_reducible first
    | assumption
    | rfl
    | apply keeps_leaveTest
end Sys2Proof.Machine
end

