-- ==== Sys2Proof/Laws/KeepsLoopback.lean ====
section
/-! SUPPORT. Every operation of Loopback.lean keeps the invariant and leaves the queue of commands alone. -/

namespace Sys2Proof.Machine
theorem keeps_putPlain {pq} (s : State) (off : Nat) (v : Nat) (gd_s : Good pq s) : Good pq (State.putPlain s off v) := by
  unfold State.putPlain
  try dsimp only
  repeat' with_reducible first
    | assumption
    | rfl
    | apply keeps_noteClamp
    | apply keeps_setReg
theorem keeps_writeLane {pq} (s : State) (l : Nat) (v : Nat) (gd_s : Good pq s) : Good pq (State.writeLane s l v) := by
  unfold State.writeLane
  try dsimp only
  repeat' with_reducible first
    | assumption
    | rfl
    | apply keeps_putPlain
    | apply keeps_raise
    | apply keeps_setReg
    | apply keeps_ite
theorem keeps_writeLbkPcie {pq} (s : State) (jtag : Bool) (v : Nat) (gd_s : Good pq s) : Good pq (State.writeLbkPcie s jtag v) := by
  unfold State.writeLbkPcie
  try dsimp only
  repeat' with_reducible first
    | assumption
    | rfl
    | apply keeps_putPlain
    | apply keeps_raise
    | apply keeps_ite
    | split
    | intro _
    | apply keeps_mk
theorem keeps_writeLbkDdr {pq} (s : State) (v : Nat) (gd_s : Good pq s) : Good pq (State.writeLbkDdr s v) := by
  unfold State.writeLbkDdr
  try dsimp only
  repeat' with_reducible first
    | assumption
    | rfl
    | apply keeps_putPlain
    | apply keeps_ite
    | split
    | intro _
    | apply keeps_mk
theorem keeps_patternFeed {pq} (s : State) (f : Nat) (on : Bool) (gd_s : Good pq s) : Good pq (State.patternFeed s f on) := by
  unfold State.patternFeed
  try dsimp only
  repeat' with_reducible first
    | assumption
    | rfl
    | apply keeps_setFeed
    | apply keeps_stopFeed
    | apply keeps_ite
theorem keeps_writeMpg {pq} (s : State) (v : Nat) (gd_s : Good pq s) : Good pq (State.writeMpg s v) := by
  unfold State.writeMpg
  try dsimp only
  repeat' with_reducible first
    | assumption
    | rfl
    | apply keeps_patternFeed
    | apply keeps_putPlain
    | apply keeps_raise
    | refine keeps_foldl _ _ _ (fun _ _ _ => ?_) ?_
    | apply keeps_ite
theorem keeps_testPacket {pq} (s : State) (n : Nat) (gd_s : Good pq s) : Good pq (State.testPacket s n) := by
  unfold State.testPacket
  try dsimp only
  repeat' with_reducible first
    | assumption
    | rfl
    | apply keeps_emit
    | apply keeps_raise
    | apply keeps_setDmx
    | apply keeps_ite
theorem keeps_writeLbkDmx {pq} (s : State) (v : Nat) (gd_s : Good pq s) : Good pq (State.writeLbkDmx s v) := by
  unfold State.writeLbkDmx
  try dsimp only
  repeat' with_reducible first
    | assumption
    | rfl
    | apply keeps_putPlain
    | apply keeps_testPacket
    | refine keeps_foldl _ _ _ (fun _ _ _ => ?_) ?_
    | apply keeps_ite
theorem keeps_packetEnd {pq} (s : State) (n : Nat) (wrong : Nat) (gd_s : Good pq s) : Good pq (State.packetEnd s n wrong) := by
  unfold State.packetEnd
  try dsimp only
  repeat' with_reducible first
    | assumption
    | rfl
    | apply keeps_bumpReg
    | apply keeps_clear
    | apply keeps_dmxEnd
    | apply keeps_testPacket
    | apply keeps_ite
theorem keeps_writeLbk {pq} (s : State) (jtag : Bool) (off : Nat) (v : Nat) (gd_s : Good pq s) : Good pq (State.writeLbk s jtag off v) := by
  unfold State.writeLbk
  try dsimp only
  repeat' with_reducible first
    | assumption
    | rfl
    | apply keeps_putPlain
    | apply keeps_raise
    | apply keeps_writeLane
    | apply keeps_writeLbkDdr
    | apply keeps_writeLbkDmx
    | apply keeps_writeLbkPcie
    | apply keeps_writeMpg
    | apply keeps_ite
theorem keeps_checkerLock {pq} (s : State) (l : Nat) (gd_s : Good pq s) : Good pq (State.checkerLock s l) := by
  unfold State.checkerLock
  try dsimp only
  repeat' with_reducible first
    | assumption
    | rfl
    | apply keeps_setReg
    | apply keeps_ite
theorem keeps_checkerLose {pq} (s : State) (l : Nat) (n : Nat) (gd_s : Good pq s) : Good pq (State.checkerLose s l n) := by
  unfold State.checkerLose
  try dsimp only
  repeat' with_reducible first
    | assumption
    | rfl
    | apply keeps_bumpReg
    | apply keeps_setReg
    | apply keeps_ite
theorem keeps_execDmxPacketEnd {pq} (port : Fin 16) (wrong : Fin 514) (s : State) (gd_s : Good pq s) (t9 : State) (ht : execDmxPacketEnd port wrong s = .next t9) : Good pq t9 := by
  simp only [execDmxPacketEnd] at ht
  cases ht
  repeat' with_reducible first
    | assumption
    | rfl
    | apply keeps_packetEnd
theorem keeps_execPrbsCheckerLocked {pq} (lane : Fin 23) (s : State) (gd_s : Good pq s) (t9 : State) (ht : execPrbsCheckerLocked lane s = .next t9) : Good pq t9 := by
  simp only [execPrbsCheckerLocked] at ht
  cases ht
  repeat' with_reducible first
    | assumption
    | rfl
    | apply keeps_checkerLock
theorem keeps_execPrbsCheckerLockLost {pq} (lane : Fin 23) (errors : Word) (s : State) (gd_s : Good pq s) (t9 : State) (ht : execPrbsCheckerLockLost lane errors s = .next t9) : Good pq t9 := by
  simp only [execPrbsCheckerLockLost] at ht
  cases ht
  repeat' with_reducible first
    | assumption
    | rfl
    | apply keeps_checkerLose
theorem keeps_execPcieLoopbackEntry {pq} (s : State) (gd_s : Good pq s) (t9 : State) (ht : execPcieLoopbackEntry s = .next t9) : Good pq t9 := by
  simp only [execPcieLoopbackEntry] at ht
  cases ht
  repeat' with_reducible first
    | assumption
    | rfl
    | apply keeps_ite
    | split
    | intro _
    | apply keeps_mk
end Sys2Proof.Machine
end

