-- ==== Sys2Proof/Laws/KeepsClose.lean ====
section
/-! SUPPORT. Every operation of Close.lean keeps the invariant and leaves the queue of commands alone. -/

namespace Sys2Proof.Machine
theorem keeps_loadCounts {pq} (s : State) (gd_s : Good pq s) : Good pq (State.loadCounts s) := by
  unfold State.loadCounts
  try dsimp only
  repeat' with_reducible first
    | assumption
    | rfl
    | apply keeps_clip
    | apply keeps_setReg
    | apply keeps_setReg64
    | apply keeps_ite
    | split
theorem keeps_closeFreeze {pq} (s : State) (gd_s : Good pq s) : Good pq (State.closeFreeze s) := by
  unfold State.closeFreeze
  try dsimp only
  repeat' with_reducible first
    | assumption
    | rfl
    | apply keeps_post
    | refine keeps_foldl _ _ _ (fun _ _ _ => ?_) ?_
    | apply keeps_ite
    | split
    | intro _
    | apply keeps_mk
theorem keeps_closeStarved {pq} (s : State) (gd_s : Good pq s) : Good pq (State.closeStarved s) := by
  unfold State.closeStarved
  try dsimp only
  repeat' with_reducible first
    | assumption
    | rfl
    | apply keeps_postNow
    | apply keeps_setPort
    | refine keeps_foldl _ _ _ (fun _ _ _ => ?_) ?_
    | apply keeps_ite
theorem keeps_closeFault {pq} (s : State) (gd_s : Good pq s) : Good pq (State.closeFault s) := by
  unfold State.closeFault
  try dsimp only
  repeat' with_reducible first
    | assumption
    | rfl
    | apply keeps_post
    | apply keeps_ite
    | split
    | intro _
    | apply keeps_mk
theorem keeps_closeAll {pq} (s : State) (gd_s : Good pq s) : Good pq (State.closeAll s) := by
  unfold State.closeAll
  try dsimp only
  repeat' with_reducible first
    | assumption
    | rfl
    | apply keeps_closeCurb
    | apply keeps_closeFault
    | apply keeps_closeFreeze
    | apply keeps_closeHerds
    | apply keeps_closeReports
    | apply keeps_closeSilence
    | apply keeps_closeStarved
    | apply keeps_closeTemps
    | apply keeps_closeZones
    | apply keeps_drainAll
    | apply keeps_flushCorrected
    | apply keeps_ite
theorem keeps_tickClose {pq} (s : State) (gd_s : Good pq s) : Good pq (State.tickClose s) := by
  unfold State.tickClose
  try dsimp only
  repeat' with_reducible first
    | assumption
    | rfl
    | apply keeps_closeAll
    | apply keeps_loadCounts
    | apply keeps_runTo
    | apply keeps_source
    | apply keeps_ite
    | split
    | intro _
    | apply keeps_mk
theorem keeps_freeClose {pq} (s : State) (gd_s : Good pq s) : Good pq (State.freeClose s) := by
  unfold State.freeClose
  try dsimp only
  repeat' with_reducible first
    | assumption
    | rfl
    | apply keeps_closeAll
    | apply keeps_keyEpoch
    | apply keeps_runTo
    | apply keeps_ite
    | split
    | intro _
    | apply keeps_mk
theorem keeps_execTelemetryClose {pq} (s : State) (gd_s : Good pq s) (t9 : State) (ht : execTelemetryClose s = .next t9) : Good pq t9 := by
  simp only [execTelemetryClose] at ht
  cases ht
  repeat' with_reducible first
    | assumption
    | rfl
    | apply keeps_tickClose
theorem keeps_execFreeClose {pq} (s : State) (gd_s : Good pq s) (t9 : State) (ht : execFreeClose s = .next t9) : Good pq t9 := by
  simp only [execFreeClose] at ht
  cases ht
  repeat' with_reducible first
    | assumption
    | rfl
    | apply keeps_freeClose
end Sys2Proof.Machine
end

