-- ==== Sys2Proof/Laws/KeepsTick.lean ====
section
/-! SUPPORT. Every operation of Tick.lean keeps the invariant and leaves the queue of commands alone. -/

namespace Sys2Proof.Machine
theorem keeps_raiseDepth {pq} (s : State) (d : Nat) (gd_s : Good pq s) : Good pq (State.raiseDepth s d) := by
  unfold State.raiseDepth
  try dsimp only
  repeat' with_reducible first
    | assumption
    | rfl
    | apply keeps_raise
    | apply keeps_setFld
    | apply keeps_ite
    | split
    | intro _
    | apply keeps_mk
theorem keeps_writeDepth {pq} (s : State) (v : Nat) (gd_s : Good pq s) : Good pq (State.writeDepth s v) := by
  unfold State.writeDepth
  try dsimp only
  repeat' with_reducible first
    | assumption
    | rfl
    | apply keeps_raise
    | apply keeps_raiseDepth
    | apply keeps_setFld
    | apply keeps_ite
theorem keeps_setGrid {pq} (s : State) (t : Nat) (gd_s : Good pq s) : Good pq (State.setGrid s t) := by
  unfold State.setGrid
  try dsimp only
  repeat' with_reducible first
    | assumption
    | rfl
    | apply keeps_ite
    | split
    | intro _
    | apply keeps_mk
theorem keeps_startAfter {pq} (s : State) (t : Nat) (gd_s : Good pq s) : Good pq (State.startAfter s t) := by
  unfold State.startAfter
  try dsimp only
  repeat' with_reducible first
    | assumption
    | rfl
    | apply keeps_phaseStart
    | apply keeps_setGrid
    | apply keeps_ite
    | split
    | intro _
    | apply keeps_mk
theorem keeps_startRun {pq} (s : State) (gd_s : Good pq s) : Good pq (State.startRun s) := by
  unfold State.startRun
  try dsimp only
  repeat' with_reducible first
    | assumption
    | rfl
    | apply keeps_nextSession
    | apply keeps_raise
    | apply keeps_setPeriodRegs
    | apply keeps_startAfter
    | apply keeps_ite
theorem keeps_stopRun {pq} (s : State) (gd_s : Good pq s) : Good pq (State.stopRun s) := by
  unfold State.stopRun
  try dsimp only
  repeat' with_reducible first
    | assumption
    | rfl
    | apply keeps_applyAll
    | apply keeps_clear
    | apply keeps_dropChange
    | apply keeps_startAfter
    | apply keeps_ite
    | split
    | intro _
    | apply keeps_mk
theorem keeps_writeTkCtrl {pq} (s : State) (v : Nat) (gd_s : Good pq s) : Good pq (State.writeTkCtrl s v) := by
  unfold State.writeTkCtrl
  try dsimp only
  repeat' with_reducible first
    | assumption
    | rfl
    | apply keeps_startRun
    | apply keeps_stopRun
    | apply keeps_writeDepth
    | apply keeps_ite
theorem keeps_showFrame {pq} (s : State) (f : Frame) (gd_s : Good pq s) : Good pq (State.showFrame s f) := by
  unfold State.showFrame
  try dsimp only
  repeat' with_reducible first
    | assumption
    | rfl
    | refine keeps_foldl _ _ _ (fun _ _ _ => ?_) ?_
    | apply keeps_ite
    | split
    | intro _
    | apply keeps_mk
theorem keeps_present {pq} (s : State) (f : Option Frame) (gd_s : Good pq s) : Good pq (State.present s f) := by
  unfold State.present
  try dsimp only
  repeat' with_reducible first
    | assumption
    | rfl
    | apply keeps_presentDrive
    | apply keeps_presentPhase
    | apply keeps_showFrame
    | apply keeps_ite
    | split
theorem keeps_resetEntry {pq} (s : State) (c : Consumer) (gd_s : Good pq s) : Good pq (State.resetEntry s c) := by
  unfold State.resetEntry
  try dsimp only
  repeat' with_reducible first
    | assumption
    | rfl
    | apply keeps_clear
    | apply keeps_setChan
    | apply keeps_setPhaseFeed
    | apply keeps_setReg
    | apply keeps_setRetired
    | apply keeps_setZone
    | apply keeps_toLadder
    | apply keeps_ite
    | split
    | intro _
    | apply keeps_mk
theorem keeps_resetEntries {pq} (s : State) (gd_s : Good pq s) : Good pq (State.resetEntries s) := by
  unfold State.resetEntries
  try dsimp only
  repeat' with_reducible first
    | assumption
    | rfl
    | apply keeps_resetEntry
    | refine keeps_foldl _ _ _ (fun _ _ _ => ?_) ?_
    | apply keeps_ite
    | split
    | intro _
    | apply keeps_mk
theorem keeps_newPeriods {pq} (s : State) (n : Nat) (gd_s : Good pq s) : Good pq (State.newPeriods s n) := by
  unfold State.newPeriods
  try dsimp only
  repeat' with_reducible first
    | assumption
    | rfl
    | apply keeps_changePeriods
    | apply keeps_phasePeriod
    | refine keeps_foldl _ _ _ (fun _ _ _ => ?_) ?_
theorem keeps_measured {pq} (s : State) (b0 : Nat) (b : Nat) (ended : Nat) (gd_s : Good pq s) : Good pq (State.measured s b0 b ended) := by
  unfold State.measured
  try dsimp only
  repeat' with_reducible first
    | assumption
    | rfl
    | apply keeps_correctAll
    | apply keeps_tickFeed
    | refine keeps_foldl _ _ _ (fun _ _ _ => ?_) ?_
    | apply keeps_ite
    | split
    | intro _
    | apply keeps_mk
theorem keeps_keyBoundary {pq} (s : State) (n : Nat) (gd_s : Good pq s) : Good pq (State.keyBoundary s n) := by
  unfold State.keyBoundary
  try dsimp only
  repeat' with_reducible first
    | assumption
    | rfl
    | apply keeps_expireGrace
    | apply keeps_keyEpoch
    | apply keeps_sessionBoundary
    | refine keeps_foldl _ _ _ (fun _ _ _ => ?_) ?_
    | apply keeps_ite
theorem keeps_actionFour {pq} (s : State) (n : Nat) (gd_s : Good pq s) : Good pq (State.actionFour s n) := by
  unfold State.actionFour
  try dsimp only
  repeat' with_reducible first
    | assumption
    | rfl
    | apply keeps_advanceAll
    | apply keeps_applyBoundary
    | apply keeps_applyTrims
    | apply keeps_joinAtBoundary
    | apply keeps_keyBoundary
    | apply keeps_moveTrims
    | apply keeps_newPeriods
    | apply keeps_phaseBoundary
    | apply keeps_resetEntries
    | apply keeps_settleNodes
    | apply keeps_swapStep
    | apply keeps_switchPlans
    | apply keeps_ite
theorem keeps_freshEgress {pq} (s : State) (gd_s : Good pq s) : Good pq (State.freshEgress s) := by
  unfold State.freshEgress
  try dsimp only
  repeat' with_reducible first
    | assumption
    | rfl
    | apply keeps_setPort
    | refine keeps_foldl _ _ _ (fun _ _ _ => ?_) ?_
    | apply keeps_ite
    | split
    | intro _
    | apply keeps_mk
theorem keeps_freshTandem {pq} (s : State) (n : Nat) (gd_s : Good pq s) : Good pq (State.freshTandem s n) := by
  unfold State.freshTandem
  try dsimp only
  repeat' with_reducible first
    | assumption
    | rfl
    | apply keeps_ite
    | split
    | intro _
    | apply keeps_mk
theorem keeps_freshTick {pq} (s : State) (b : Nat) (realign : Bool) (gd_s : Good pq s) : Good pq (State.freshTick s b realign) := by
  unfold State.freshTick
  try dsimp only
  repeat' with_reducible first
    | assumption
    | rfl
    | apply keeps_ite
    | split
    | intro _
    | apply keeps_mk
theorem keeps_endLoad {pq} (s : State) (gd_s : Good pq s) : Good pq (State.endLoad s) := by
  unfold State.endLoad
  try dsimp only
  repeat' with_reducible first
    | assumption
    | rfl
    | apply keeps_ite
    | split
    | intro _
    | apply keeps_mk
theorem keeps_setBound {pq} (s : State) (b : Nat) (gd_s : Good pq s) : Good pq (State.setBound s b) := by
  unfold State.setBound
  try dsimp only
  repeat' with_reducible first
    | assumption
    | rfl
    | apply keeps_setReg
theorem keeps_actionOne {pq} (s : State) (gd_s : Good pq s) : Good pq (State.actionOne s) := by
  unfold State.actionOne
  try dsimp only
  repeat' with_reducible first
    | assumption
    | rfl
    | apply keeps_voidAll
    | apply keeps_ite
    | split
    | intro _
    | apply keeps_mk
theorem keeps_actionSix {pq} (s : State) (b : Nat) (realign : Bool) (gd_s : Good pq s) : Good pq (State.actionSix s b realign) := by
  unfold State.actionSix
  try dsimp only
  repeat' with_reducible first
    | assumption
    | rfl
    | apply keeps_setReg
    | apply keeps_ite
    | split
    | intro _
    | apply keeps_mk
theorem keeps_actionsIn {pq} (s : State) (b0 : Nat) (b : Nat) (ended : Option Nat) (f : Option Frame) (realign : Bool) (gd_s : Good pq s) : Good pq (State.actionsIn s b0 b ended f realign) := by
  unfold State.actionsIn
  try dsimp only
  repeat' with_reducible first
    | assumption
    | rfl
    | apply keeps_actionFour
    | apply keeps_applyChange
    | apply keeps_freshTick
    | apply keeps_measured
    | apply keeps_present
    | apply keeps_ite
    | split
    | intro _
    | apply keeps_mk
theorem keeps_actionsOut {pq} (s : State) (b0 : Nat) (b : Nat) (realign : Bool) (gd_s : Good pq s) : Good pq (State.actionsOut s b0 b realign) := by
  unfold State.actionsOut
  try dsimp only
  repeat' with_reducible first
    | assumption
    | rfl
    | apply keeps_actionSix
    | apply keeps_freshEgress
    | apply keeps_freshTandem
    | apply keeps_latchAll
    | apply keeps_ite
    | split
    | intro _
    | apply keeps_mk
theorem keeps_setActing {pq} (s : State) (v : Bool) (gd_s : Good pq s) : Good pq (State.setActing s v) := by
  unfold State.setActing
  try dsimp only
  repeat' with_reducible first
    | assumption
    | rfl
    | apply keeps_ite
    | split
    | intro _
    | apply keeps_mk
theorem keeps_actions {pq} (s : State) (b0 : Nat) (b : Nat) (ended : Option Nat) (f : Option Frame) (step : Bool) (gd_s : Good pq s) : Good pq (State.actions s b0 b ended f step) := by
  unfold State.actions
  try dsimp only
  repeat' with_reducible first
    | assumption
    | rfl
    | apply keeps_actionsIn
    | apply keeps_actionsOut
    | apply keeps_clearFlags
    | apply keeps_due
    | apply keeps_duePeriodic
    | apply keeps_latchPending
    | apply keeps_postGait
    | apply keeps_setActing
    | apply keeps_ite
    | split
theorem keeps_zeroPrevious {pq} (s : State) (gd_s : Good pq s) : Good pq (State.zeroPrevious s) := by
  unfold State.zeroPrevious
  try dsimp only
  repeat' with_reducible first
    | assumption
    | rfl
    | apply keeps_ite
    | split
    | intro _
    | apply keeps_mk
theorem keeps_dropStale {pq} (s : State) (gd_s : Good pq s) : Good pq (State.dropStale s) := by
  unfold State.dropStale
  try dsimp only
  repeat' with_reducible first
    | assumption
    | rfl
    | apply keeps_discardAllCues
theorem keeps_beginRun {pq} (s : State) (gd_s : Good pq s) : Good pq (State.beginRun s) := by
  unfold State.beginRun
  try dsimp only
  repeat' with_reducible first
    | assumption
    | rfl
    | apply keeps_actionOne
    | apply keeps_actions
    | apply keeps_dropStale
    | apply keeps_raise
    | apply keeps_raiseEpoch
    | apply keeps_runTo
    | apply keeps_setBound
    | apply keeps_setReg64
    | apply keeps_startAfter
    | apply keeps_zeroPrevious
    | apply keeps_ite
    | split
    | intro _
    | apply keeps_mk
theorem keeps_boundaryErrors {pq} (s : State) (errs : List BadWord) (gd_s : Good pq s) : Good pq (State.boundaryErrors s errs).1 := by
  unfold State.boundaryErrors
  try dsimp only
  repeat' with_reducible first
    | assumption
    | rfl
    | apply keeps_memErrors
    | apply keeps_ite
    | split
    | intro _
    | apply keeps_mk
theorem keeps_boundary {pq} (s : State) (errs : List BadWord) (gd_s : Good pq s) : Good pq (State.boundary s errs) := by
  unfold State.boundary
  try dsimp only
  repeat' with_reducible first
    | assumption
    | rfl
    | apply keeps_actionOne
    | apply keeps_actions
    | apply keeps_boundaryErrors
    | apply keeps_endLoad
    | apply keeps_runTo
    | apply keeps_setBound
    | apply keeps_setReg64
    | apply keeps_ite
    | split
    | intro _
    | apply keeps_mk
theorem keeps_endRun {pq} (s : State) (gd_s : Good pq s) : Good pq (State.endRun s) := by
  unfold State.endRun
  try dsimp only
  repeat' with_reducible first
    | assumption
    | rfl
    | apply keeps_actionOne
    | apply keeps_applyAll
    | apply keeps_discardAllCues
    | apply keeps_discardMap
    | apply keeps_dropChange
    | apply keeps_endLoad
    | apply keeps_endTickWaits
    | apply keeps_freshEgress
    | apply keeps_freshTandem
    | apply keeps_freshTick
    | apply keeps_resetEntries
    | apply keeps_runTo
    | apply keeps_setGrid
    | apply keeps_startAfter
    | apply keeps_stopDrive
    | apply keeps_terminate
    | apply keeps_voidAll
    | refine keeps_foldl _ _ _ (fun _ _ _ => ?_) ?_
    | apply keeps_ite
    | split
    | intro _
    | apply keeps_mk
theorem keeps_execTickRunStart {pq} (v : Word) (s : State) (gd_s : Good pq s) (t9 : State) (ht : execTickRunStart v s = .next t9) : Good pq t9 := by
  simp only [execTickRunStart] at ht
  cases ht
  repeat' with_reducible first
    | assumption
    | rfl
    | apply keeps_writeTkCtrl
theorem keeps_execTickRunStop {pq} (v : Word) (s : State) (gd_s : Good pq s) (t9 : State) (ht : execTickRunStop v s = .next t9) : Good pq t9 := by
  simp only [execTickRunStop] at ht
  cases ht
  repeat' with_reducible first
    | assumption
    | rfl
    | apply keeps_writeTkCtrl
theorem keeps_execTkDepthWrite {pq} (v : Word) (s : State) (gd_s : Good pq s) (t9 : State) (ht : execTkDepthWrite v s = .next t9) : Good pq t9 := by
  simp only [execTkDepthWrite] at ht
  cases ht
  repeat' with_reducible first
    | assumption
    | rfl
    | apply keeps_writeTkCtrl
theorem keeps_execFirstBoundary {pq} (s : State) (gd_s : Good pq s) (t9 : State) (ht : execFirstBoundary s = .next t9) : Good pq t9 := by
  simp only [execFirstBoundary] at ht
  cases ht
  repeat' with_reducible first
    | assumption
    | rfl
    | apply keeps_beginRun
theorem keeps_execTickBoundary {pq} (errs : List BadWord) (s : State) (gd_s : Good pq s) (t9 : State) (ht : execTickBoundary errs s = .next t9) : Good pq t9 := by
  simp only [execTickBoundary] at ht
  cases ht
  repeat' with_reducible first
    | assumption
    | rfl
    | apply keeps_boundary
theorem keeps_execStoppingBoundary {pq} (s : State) (gd_s : Good pq s) (t9 : State) (ht : execStoppingBoundary s = .next t9) : Good pq t9 := by
  simp only [execStoppingBoundary] at ht
  cases ht
  repeat' with_reducible first
    | assumption
    | rfl
    | apply keeps_endRun
end Sys2Proof.Machine
end

