-- ==== Sys2Proof/Laws/KeepsShuset.lean ====
section
/-! SUPPORT. Every operation of Shuset.lean keeps the invariant and leaves the queue of commands alone. -/

namespace Sys2Proof.Machine
theorem keeps_loadCues {pq} (s : State) (gd_s : Good pq s) : Good pq (State.loadCues s) := by
  unfold State.loadCues
  try dsimp only
  repeat' with_reducible first
    | assumption
    | rfl
    | apply keeps_raise
    | apply keeps_ite
    | split
    | intro _
    | apply keeps_mk
theorem keeps_submitCue {pq} (s : State) (gd_s : Good pq s) : Good pq (State.submitCue s) := by
  unfold State.submitCue
  try dsimp only
  repeat' with_reducible first
    | assumption
    | rfl
    | apply keeps_bump
    | apply keeps_holdCue
    | apply keeps_ite
    | split
    | intro _
    | apply keeps_mk
theorem keeps_goCue {pq} (s : State) (k : Nat) (gd_s : Good pq s) : Good pq (State.goCue s k) := by
  unfold State.goCue
  try dsimp only
  repeat' with_reducible first
    | assumption
    | rfl
    | apply keeps_ite
    | split
    | intro _
    | apply keeps_mk
theorem keeps_stopCues {pq} (s : State) (gd_s : Good pq s) : Good pq (State.stopCues s) := by
  unfold State.stopCues
  try dsimp only
  repeat' with_reducible first
    | assumption
    | rfl
    | apply keeps_ite
    | split
    | intro _
    | apply keeps_mk
theorem keeps_writeMaster {pq} (s : State) (gd_s : Good pq s) : Good pq (State.writeMaster s) := by
  unfold State.writeMaster
  try dsimp only
  repeat' with_reducible first
    | assumption
    | rfl
    | apply keeps_holdCue
    | apply keeps_ite
    | split
theorem keeps_writeShuCtrl {pq} (s : State) (v : Nat) (gd_s : Good pq s) : Good pq (State.writeShuCtrl s v) := by
  unfold State.writeShuCtrl
  try dsimp only
  repeat' with_reducible first
    | assumption
    | rfl
    | apply keeps_goCue
    | apply keeps_setReg
    | apply keeps_stopCues
    | apply keeps_writeMaster
    | apply keeps_ite
theorem keeps_writeShuMaster {pq} (s : State) (v : Nat) (gd_s : Good pq s) : Good pq (State.writeShuMaster s v) := by
  unfold State.writeShuMaster
  try dsimp only
  repeat' with_reducible first
    | assumption
    | rfl
    | apply keeps_setFld
    | apply keeps_writeMaster
    | apply keeps_ite
theorem keeps_writeShuReinst {pq} (s : State) (i : Nat) (v : Nat) (gd_s : Good pq s) : Good pq (State.writeShuReinst s i v) := by
  unfold State.writeShuReinst
  try dsimp only
  repeat' with_reducible first
    | assumption
    | rfl
    | apply keeps_reinstateLocal
    | refine keeps_foldl _ _ _ (fun _ _ _ => ?_) ?_
    | apply keeps_ite
theorem keeps_writeShu {pq} (s : State) (off : Nat) (v : Nat) (gd_s : Good pq s) : Good pq (State.writeShu s off v) := by
  unfold State.writeShu
  try dsimp only
  repeat' with_reducible first
    | assumption
    | rfl
    | apply keeps_writeShuCtrl
    | apply keeps_writeShuMaster
    | apply keeps_writeShuReinst
    | apply keeps_ite
theorem keeps_shuReply {pq} (s : State) (p : ShuPort) (off : Nat) (status : Nat) (data : Nat) (gd_s : Good pq s) : Good pq (State.shuReply s p off status data) := by
  unfold State.shuReply
  try dsimp only
  repeat' with_reducible first
    | assumption
    | rfl
    | apply keeps_emit
    | apply keeps_ite
    | split
theorem keeps_shuWrite {pq} (s : State) (p : ShuPort) (off : Nat) (v : Nat) (gd_s : Good pq s) : Good pq (State.shuWrite s p off v) := by
  unfold State.shuWrite
  try dsimp only
  repeat' with_reducible first
    | assumption
    | rfl
    | apply keeps_bridleDeny
    | apply keeps_shuReply
    | apply keeps_writeShu
    | apply keeps_ite
theorem keeps_latchIdle {pq} (s : State) (gd_s : Good pq s) : Good pq (State.latchIdle s) := by
  exact keeps_setQueue _ _ _ (queue_le s 0 gd_s) gd_s
theorem keeps_shuEvent {pq} (s : State) (p : ShuPort) (gd_s : Good pq s) : Good pq (State.shuEvent s p) := by
  unfold State.shuEvent
  try dsimp only
  repeat' with_reducible first
    | assumption
    | rfl
    | apply keeps_bridleDeny
    | apply keeps_latchIdle
    | apply keeps_readQueue
    | apply keeps_shuReply
    | apply keeps_ite
theorem keeps_execCueListLoad {pq} (s : State) (gd_s : Good pq s) (t9 : State) (ht : execCueListLoad s = .next t9) : Good pq t9 := by
  simp only [execCueListLoad] at ht
  cases ht
  repeat' with_reducible first
    | assumption
    | rfl
    | apply keeps_loadCues
theorem keeps_execShuCueSubmit {pq} (s : State) (gd_s : Good pq s) (t9 : State) (ht : execShuCueSubmit s = .next t9) : Good pq t9 := by
  simp only [execShuCueSubmit] at ht
  cases ht
  repeat' with_reducible first
    | assumption
    | rfl
    | apply keeps_submitCue
theorem keeps_execShuGo {pq} (p : ShuPort) (v : Word) (s : State) (gd_s : Good pq s) (t9 : State) (ht : execShuGo p v s = .next t9) : Good pq t9 := by
  simp only [execShuGo] at ht
  cases ht
  repeat' with_reducible first
    | assumption
    | rfl
    | apply keeps_shuWrite
    | apply keeps_ite
theorem keeps_execShuStop {pq} (p : ShuPort) (v : Word) (s : State) (gd_s : Good pq s) (t9 : State) (ht : execShuStop p v s = .next t9) : Good pq t9 := by
  simp only [execShuStop] at ht
  cases ht
  repeat' with_reducible first
    | assumption
    | rfl
    | apply keeps_shuWrite
    | apply keeps_ite
theorem keeps_execShuBlackout {pq} (p : ShuPort) (v : Word) (s : State) (gd_s : Good pq s) (t9 : State) (ht : execShuBlackout p v s = .next t9) : Good pq t9 := by
  simp only [execShuBlackout] at ht
  cases ht
  repeat' with_reducible first
    | assumption
    | rfl
    | apply keeps_shuWrite
    | apply keeps_ite
theorem keeps_execShuMasterWrite {pq} (p : ShuPort) (v : Word) (s : State) (gd_s : Good pq s) (t9 : State) (ht : execShuMasterWrite p v s = .next t9) : Good pq t9 := by
  simp only [execShuMasterWrite] at ht
  cases ht
  repeat' with_reducible first
    | assumption
    | rfl
    | apply keeps_shuWrite
theorem keeps_execShuReinst {pq} (p : ShuPort) (high : Bool) (v : Word) (s : State) (gd_s : Good pq s) (t9 : State) (ht : execShuReinst p high v s = .next t9) : Good pq t9 := by
  simp only [execShuReinst] at ht
  cases ht
  repeat' with_reducible first
    | assumption
    | rfl
    | apply keeps_shuWrite
theorem keeps_execShuEvtRead {pq} (p : ShuPort) (s : State) (gd_s : Good pq s) (t9 : State) (ht : execShuEvtRead p s = .next t9) : Good pq t9 := by
  simp only [execShuEvtRead] at ht
  cases ht
  repeat' with_reducible first
    | assumption
    | rfl
    | apply keeps_shuEvent
end Sys2Proof.Machine
end

