-- ==== Sys2Proof/Laws/KeepsAccess.lean ====
section
/-! SUPPORT. Every operation of Access.lean keeps the invariant and leaves the queue of commands alone. -/

namespace Sys2Proof.Machine
theorem keeps_writeRwt {pq} (s : State) (base : Nat) (off : Nat) (v : Nat) (gd_s : Good pq s) : Good pq (State.writeRwt s base off v) := by
  unfold State.writeRwt
  try dsimp only
  repeat' with_reducible first
    | assumption
    | rfl
    | apply keeps_noteClamp
    | apply keeps_putRwt
    | apply keeps_stageReg
    | apply keeps_ite
theorem keeps_whileStopped {pq} (s : State) (t : State) (gd_s : Good pq s) (gd_t : Good pq t) : Good pq (State.whileStopped s t) := by
  unfold State.whileStopped
  try dsimp only
  repeat' with_reducible first
    | assumption
    | rfl
    | apply keeps_raise
    | apply keeps_ite
theorem keeps_putHeld {pq} (s : State) (off : Nat) (v : Nat) (x : Fld) (gd_s : Good pq s) : Good pq (State.putHeld s off v x) := by
  unfold State.putHeld
  try dsimp only
  repeat' with_reducible first
    | assumption
    | rfl
    | apply keeps_putPlain
    | apply keeps_raise
    | apply keeps_ite
theorem keeps_writeGlb {pq} (s : State) (base : Nat) (off : Nat) (v : Nat) (gd_s : Good pq s) : Good pq (State.writeGlb s base off v) := by
  unfold State.writeGlb
  try dsimp only
  repeat' with_reducible first
    | assumption
    | rfl
    | apply keeps_putPlain
    | apply keeps_raise
    | apply keeps_writeDomRst
    | apply keeps_writePwrReq
    | apply keeps_ite
theorem keeps_writeHif {pq} (s : State) (base : Nat) (i : Nat) (off : Nat) (v : Nat) (gd_s : Good pq s) : Good pq (State.writeHif s base i off v) := by
  unfold State.writeHif
  try dsimp only
  repeat' with_reducible first
    | assumption
    | rfl
    | apply keeps_putPlain
    | apply keeps_requestNormal
    | apply keeps_writeCqCtrl
    | apply keeps_writeEqCtrl
    | apply keeps_writeFbind
    | apply keeps_writeSqCtrl
    | apply keeps_ite
theorem keeps_writeTb {pq} (s : State) (base : Nat) (off : Nat) (v : Nat) (gd_s : Good pq s) : Good pq (State.writeTb s base off v) := by
  unfold State.writeTb
  try dsimp only
  repeat' with_reducible first
    | assumption
    | rfl
    | apply keeps_putPlain
    | apply keeps_snapshot
    | apply keeps_writeAdj
    | apply keeps_writePps
    | apply keeps_writePtp
    | apply keeps_writeTbCtrl
    | apply keeps_ite
theorem keeps_writeTk {pq} (s : State) (base : Nat) (off : Nat) (v : Nat) (gd_s : Good pq s) : Good pq (State.writeTk s base off v) := by
  unfold State.writeTk
  try dsimp only
  repeat' with_reducible first
    | assumption
    | rfl
    | apply keeps_putPlain
    | apply keeps_raise
    | apply keeps_writeTkCtrl
    | apply keeps_ite
theorem keeps_writeFe {pq} (s : State) (base : Nat) (i : Nat) (off : Nat) (v : Nat) (gd_s : Good pq s) : Good pq (State.writeFe s base i off v) := by
  unfold State.writeFe
  try dsimp only
  repeat' with_reducible first
    | assumption
    | rfl
    | apply keeps_putPlain
    | apply keeps_writeStrmCtrl
    | apply keeps_ite
theorem keeps_writeTm {pq} (s : State) (base : Nat) (i : Nat) (off : Nat) (v : Nat) (gd_s : Good pq s) : Good pq (State.writeTm s base i off v) := by
  unfold State.writeTm
  try dsimp only
  repeat' with_reducible first
    | assumption
    | rfl
    | apply keeps_putHeld
    | apply keeps_putPlain
    | apply keeps_raise
    | apply keeps_whileStopped
    | apply keeps_ite
theorem keeps_writeCap {pq} (s : State) (v : Nat) (gd_s : Good pq s) : Good pq (State.writeCap s v) := by
  unfold State.writeCap
  try dsimp only
  repeat' with_reducible first
    | assumption
    | rfl
    | apply keeps_capFields
    | apply keeps_capStart
    | apply keeps_capStop
    | apply keeps_ite
theorem keeps_writePeer {pq} (s : State) (v : Nat) (gd_s : Good pq s) : Good pq (State.writePeer s v) := by
  unfold State.writePeer
  try dsimp only
  repeat' with_reducible first
    | assumption
    | rfl
    | apply keeps_peerGo
    | apply keeps_peerStop
    | apply keeps_ite
theorem keeps_writeDmx {pq} (s : State) (base : Nat) (i : Nat) (off : Nat) (v : Nat) (gd_s : Good pq s) : Good pq (State.writeDmx s base i off v) := by
  unfold State.writeDmx
  try dsimp only
  repeat' with_reducible first
    | assumption
    | rfl
    | apply keeps_putHeld
    | apply keeps_putPlain
    | apply keeps_whileStopped
    | apply keeps_ite
theorem keeps_write32 {pq} (s : State) (jtag : Bool) (base : Nat) (i : Nat) (off : Nat) (v : Nat) (gd_s : Good pq s) : Good pq (State.write32 s jtag base i off v) := by
  unfold State.write32
  try dsimp only
  repeat' with_reducible first
    | assumption
    | rfl
    | apply keeps_clearCorr
    | apply keeps_enterTest
    | apply keeps_leaveTest
    | apply keeps_putPlain
    | apply keeps_writeCap
    | apply keeps_writeDmx
    | apply keeps_writeFe
    | apply keeps_writeGlb
    | apply keeps_writeHif
    | apply keeps_writeLbk
    | apply keeps_writePeer
    | apply keeps_writeRwt
    | apply keeps_writeShu
    | apply keeps_writeTb
    | apply keeps_writeTdmCtrl
    | apply keeps_writeTk
    | apply keeps_writeTm
    | apply keeps_ite
    | split
theorem keeps_write64 {pq} (s : State) (jtag : Bool) (base : Nat) (i : Nat) (off : Nat) (v : Nat) (gd_s : Good pq s) : Good pq (State.write64 s jtag base i off v) := by
  unfold State.write64
  try dsimp only
  repeat' with_reducible first
    | assumption
    | rfl
    | apply keeps_putPlain
    | apply keeps_whileStopped
    | apply keeps_writeIncr
    | apply keeps_writeLbk
    | apply keeps_writeMapRegion
    | apply keeps_writeStep
    | apply keeps_ite
theorem keeps_holdLow {pq} (s : State) (off : Nat) (v : Option Nat) (gd_s : Good pq s) : Good pq (State.holdLow s off v) := by
  unfold State.holdLow
  try dsimp only
  repeat' with_reducible first
    | assumption
    | rfl
    | apply keeps_ite
    | split
    | intro _
    | apply keeps_mk
theorem keeps_writeHigh {pq} (s : State) (jtag : Bool) (base : Nat) (i : Nat) (off : Nat) (v : Nat) (gd_s : Good pq s) : Good pq (State.writeHigh s jtag base i off v) := by
  unfold State.writeHigh
  try dsimp only
  repeat' with_reducible first
    | assumption
    | rfl
    | apply keeps_holdLow
    | apply keeps_write64
theorem keeps_writeWord {pq} (s : State) (jtag : Bool) (off : Nat) (v : Nat) (gd_s : Good pq s) : Good pq (State.writeWord s jtag off v) := by
  unfold State.writeWord
  try dsimp only
  repeat' with_reducible first
    | assumption
    | rfl
    | apply keeps_holdLow
    | apply keeps_raise
    | apply keeps_write32
    | apply keeps_writeHigh
    | apply keeps_ite
    | split
theorem keeps_writeBar {pq} (s : State) (off : Nat) (size : Nat) (v : Nat) (gd_s : Good pq s) : Good pq (State.writeBar s off size v) := by
  unfold State.writeBar
  try dsimp only
  repeat' with_reducible first
    | assumption
    | rfl
    | apply keeps_raise
    | apply keeps_writeWord
    | apply keeps_ite
theorem keeps_readEffect {pq} (s : State) (d : RegDesc) (i : Nat) (w : Nat) (off : Nat) (gd_s : Good pq s) : Good pq (State.readEffect s d i w off) := by
  unfold State.readEffect
  try dsimp only
  repeat' with_reducible first
    | assumption
    | rfl
    | apply keeps_latchRegs
    | apply keeps_readEnergy
    | apply keeps_readQueue
    | apply keeps_setReg
    | apply keeps_ite
    | split
    | intro _
    | apply keeps_mk
theorem keeps_readWord {pq} (s : State) (off : Nat) (gd_s : Good pq s) : Good pq (State.readWord s off).1 := by
  unfold State.readWord
  try dsimp only
  repeat' with_reducible first
    | assumption
    | rfl
    | apply keeps_raise
    | apply keeps_readEffect
    | apply keeps_ite
    | split
theorem keeps_countErrors {pq} (s : State) (off : Nat) (n : Nat) (gd_s : Good pq s) : Good pq (State.countErrors s off n) := by
  unfold State.countErrors
  try dsimp only
  repeat' with_reducible first
    | assumption
    | rfl
    | apply keeps_bumpReg
    | apply keeps_ite
theorem keeps_readPart {pq} (s : State) (off : Nat) (size : Nat) (gd_s : Good pq s) : Good pq (State.readPart s off size) := by
  unfold State.readPart
  try dsimp only
  repeat' with_reducible first
    | assumption
    | rfl
    | apply keeps_emit
    | apply keeps_readWord
theorem keeps_readBar {pq} (s : State) (off : Nat) (size : Nat) (gd_s : Good pq s) : Good pq (State.readBar s off size) := by
  unfold State.readBar
  try dsimp only
  repeat' with_reducible first
    | assumption
    | rfl
    | apply keeps_emit
    | apply keeps_readPart
    | apply keeps_ite
theorem keeps_execRegisterWrite {pq} (off : Nat) (size : Nat) (v : DWord) (s : State) (gd_s : Good pq s) (t9 : State) (ht : execRegisterWrite off size v s = .next t9) : Good pq t9 := by
  simp only [execRegisterWrite] at ht
  cases ht
  repeat' with_reducible first
    | assumption
    | rfl
    | apply keeps_writeBar
theorem keeps_execReg64LowWordRead {pq} (off : Nat) (size : Nat) (s : State) (gd_s : Good pq s) (t9 : State) (ht : execReg64LowWordRead off size s = .next t9) : Good pq t9 := by
  simp only [execReg64LowWordRead] at ht
  cases ht
  repeat' with_reducible first
    | assumption
    | rfl
    | apply keeps_readBar
theorem keeps_execReg64HighWordWrite {pq} (off : Nat) (v : Word) (s : State) (gd_s : Good pq s) (t9 : State) (ht : execReg64HighWordWrite off v s = .next t9) : Good pq t9 := by
  simp only [execReg64HighWordWrite] at ht
  cases ht
  repeat' with_reducible first
    | assumption
    | rfl
    | apply keeps_writeBar
theorem keeps_execClearOnRead {pq} (off : Nat) (size : Nat) (counted : Word) (s : State) (gd_s : Good pq s) (t9 : State) (ht : execClearOnRead off size counted s = .next t9) : Good pq t9 := by
  simp only [execClearOnRead] at ht
  cases ht
  repeat' with_reducible first
    | assumption
    | rfl
    | apply keeps_countErrors
    | apply keeps_readBar
theorem keeps_execGlbLockSet {pq} (s : State) (gd_s : Good pq s) (t9 : State) (ht : execGlbLockSet s = .next t9) : Good pq t9 := by
  simp only [execGlbLockSet] at ht
  cases ht
  repeat' with_reducible first
    | assumption
    | rfl
    | apply keeps_raise
theorem keeps_execMapRegionWrite {pq} (size : Bool) (v : DWord) (s : State) (gd_s : Good pq s) (t9 : State) (ht : execMapRegionWrite size v s = .next t9) : Good pq t9 := by
  simp only [execMapRegionWrite] at ht
  cases ht
  repeat' with_reducible first
    | assumption
    | rfl
    | apply keeps_onBlock
    | apply keeps_raise
    | apply keeps_writeMapRegion
    | apply keeps_ite
end Sys2Proof.Machine
end

