-- ==== Sys2Proof/Laws/KeepsJtag.lean ====
section
/-! SUPPORT. Every operation of Jtag.lean keeps the invariant and leaves the queue of commands alone. -/

namespace Sys2Proof.Machine
theorem keeps_loadIr {pq} (s : State) (code : Nat) (gd_s : Good pq s) : Good pq (State.loadIr s code) := by
  unfold State.loadIr
  try dsimp only
  repeat' with_reducible first
    | assumption
    | rfl
    | apply keeps_ite
    | split
    | intro _
    | apply keeps_mk
theorem keeps_capture {pq} (s : State) (v : Nat) (gd_s : Good pq s) : Good pq (State.capture s v) := by
  unfold State.capture
  try dsimp only
  repeat' with_reducible first
    | assumption
    | rfl
    | apply keeps_ite
    | split
    | intro _
    | apply keeps_mk
theorem keeps_scan {pq} (s : State) (op : BoundaryOp) (gd_s : Good pq s) : Good pq (State.scan s op) := by
  unfold State.scan
  try dsimp only
  repeat' with_reducible first
    | assumption
    | rfl
    | apply keeps_capture
    | apply keeps_ite
    | split
    | intro _
    | apply keeps_mk
theorem keeps_drive {pq} (s : State) (code : Nat) (op : BoundaryOp) (t : State → State) (gd_s : Good pq s) (hft : ∀ a0, Good pq a0 → Good pq (t a0)) : Good pq (State.drive s code op t) := by
  unfold State.drive
  try dsimp only
  repeat' with_reducible first
    | assumption
    | rfl
    | apply hft
    | apply keeps_loadIr
    | apply keeps_raise
    | apply keeps_scan
    | apply keeps_ite
theorem keeps_regacc {pq} (s : State) (write : Bool) (off : Nat) (data : Nat) (counted : Nat) (gd_s : Good pq s) : Good pq (State.regacc s write off data counted) := by
  unfold State.regacc
  try dsimp only
  repeat' with_reducible first
    | assumption
    | rfl
    | apply keeps_capture
    | apply keeps_countErrors
    | apply keeps_drew
    | apply keeps_loadIr
    | apply keeps_raise
    | apply keeps_readWord
    | apply keeps_writeWord
    | apply keeps_ite
    | split
    | intro _
    | apply keeps_mk
theorem keeps_otpAuth {pq} (s : State) (go : Bool) (hash : Nat) (check : Nat) (ok : Bool) (gd_s : Good pq s) : Good pq (State.otpAuth s go hash check ok) := by
  unfold State.otpAuth
  try dsimp only
  repeat' with_reducible first
    | assumption
    | rfl
    | apply keeps_capture
    | apply keeps_loadIr
    | apply keeps_setPosition
    | apply keeps_ite
    | split
    | intro _
    | apply keeps_mk
theorem keeps_execJtagTestLogicReset {pq} (s : State) (gd_s : Good pq s) (t9 : State) (ht : execJtagTestLogicReset s = .next t9) : Good pq t9 := by
  simp only [execJtagTestLogicReset] at ht
  cases ht
  repeat' with_reducible first
    | assumption
    | rfl
    | apply keeps_loadIr
theorem keeps_execJtagExtest {pq} (op : BoundaryOp) (s : State) (gd_s : Good pq s) (t9 : State) (ht : execJtagExtest op s = .next t9) : Good pq t9 := by
  simp only [execJtagExtest] at ht
  cases ht
  repeat' with_reducible first
    | assumption
    | rfl
    | apply keeps_drive
    | apply keeps_scan
    | apply keeps_ite
    | split
    | intro _
theorem keeps_execJtagSamplePreload {pq} (op : BoundaryOp) (s : State) (gd_s : Good pq s) (t9 : State) (ht : execJtagSamplePreload op s = .next t9) : Good pq t9 := by
  simp only [execJtagSamplePreload] at ht
  cases ht
  repeat' with_reducible first
    | assumption
    | rfl
    | apply keeps_loadIr
    | apply keeps_scan
theorem keeps_execJtagIdcode {pq} (s : State) (gd_s : Good pq s) (t9 : State) (ht : execJtagIdcode s = .next t9) : Good pq t9 := by
  simp only [execJtagIdcode] at ht
  cases ht
  repeat' with_reducible first
    | assumption
    | rfl
    | apply keeps_capture
    | apply keeps_loadIr
theorem keeps_execJtagClamp {pq} (op : BoundaryOp) (s : State) (gd_s : Good pq s) (t9 : State) (ht : execJtagClamp op s = .next t9) : Good pq t9 := by
  simp only [execJtagClamp] at ht
  cases ht
  repeat' with_reducible first
    | assumption
    | rfl
    | apply keeps_capture
    | apply keeps_drive
    | apply keeps_ite
    | split
    | intro _
theorem keeps_execJtagHighz {pq} (op : BoundaryOp) (s : State) (gd_s : Good pq s) (t9 : State) (ht : execJtagHighz op s = .next t9) : Good pq t9 := by
  simp only [execJtagHighz] at ht
  cases ht
  repeat' with_reducible first
    | assumption
    | rfl
    | apply keeps_capture
    | apply keeps_drive
    | apply keeps_ite
    | split
    | intro _
theorem keeps_execJtagExtestPulse {pq} (op : BoundaryOp) (s : State) (gd_s : Good pq s) (t9 : State) (ht : execJtagExtestPulse op s = .next t9) : Good pq t9 := by
  simp only [execJtagExtestPulse] at ht
  cases ht
  repeat' with_reducible first
    | assumption
    | rfl
    | apply keeps_drive
    | apply keeps_scan
    | apply keeps_ite
    | split
    | intro _
theorem keeps_execJtagExtestTrain {pq} (op : BoundaryOp) (s : State) (gd_s : Good pq s) (t9 : State) (ht : execJtagExtestTrain op s = .next t9) : Good pq t9 := by
  simp only [execJtagExtestTrain] at ht
  cases ht
  repeat' with_reducible first
    | assumption
    | rfl
    | apply keeps_drive
    | apply keeps_scan
    | apply keeps_ite
    | split
    | intro _
theorem keeps_execJtagRegacc {pq} (write : Bool) (off : Word) (data : Word) (counted : Word) (s : State) (gd_s : Good pq s) (t9 : State) (ht : execJtagRegacc write off data counted s = .next t9) : Good pq t9 := by
  simp only [execJtagRegacc] at ht
  cases ht
  repeat' with_reducible first
    | assumption
    | rfl
    | apply keeps_regacc
theorem keeps_execJtagOtpAuth0 {pq} (go : Bool) (hash : BitVec 384) (check : Word) (ok : Bool) (s : State) (gd_s : Good pq s) (t9 : State) (ht : execJtagOtpAuth0 go hash check ok s = .next t9) : Good pq t9 := by
  simp only [execJtagOtpAuth0] at ht
  cases ht
  repeat' with_reducible first
    | assumption
    | rfl
    | apply keeps_otpAuth
theorem keeps_execJtagBypass {pq} (code : BitVec 6) (s : State) (gd_s : Good pq s) (t9 : State) (ht : execJtagBypass code s = .next t9) : Good pq t9 := by
  simp only [execJtagBypass] at ht
  cases ht
  repeat' with_reducible first
    | assumption
    | rfl
    | apply keeps_capture
    | apply keeps_loadIr
    | apply keeps_ite
end Sys2Proof.Machine
end

