-- ==== Sys2Proof/Laws/KeepsIdle.lean ====
section
/-! SUPPORT. Every operation of Idle.lean keeps the invariant and leaves the queue of commands alone. -/

namespace Sys2Proof.Machine
theorem keeps_idle {pq} (s : State) (gd_s : Good pq s) : Good pq (State.idle s) := by
  unfold State.idle
  try dsimp only
  repeat' with_reducible first
    | assumption
    | rfl
    | apply keeps_ite
    | split
    | intro _
    | apply keeps_mk
end Sys2Proof.Machine
end

