-- ==== Sys2Proof/Laws/Registers.lean ====
section
/-! SUPPORT. The laws of bit fields and of the register file: read after write, writes that change nothing, and what a register write leaves
alone. -/

namespace Sys2Proof.Machine

/-! ### Bit fields -/

theorem bitsOf_lt (v lo w : Nat) : bitsOf v lo w < 2 ^ w := Nat.mod_lt _ (Nat.two_pow_pos w)

theorem setBits_bitsOf (v lo w : Nat) : setBits v lo w (bitsOf v lo w) = v := by
  unfold setBits bitsOf
  rw [Nat.mod_mod, Nat.pow_add, ← Nat.div_div_eq_div_mul]
  have h1 := Nat.div_add_mod (v / 2 ^ lo) (2 ^ w)
  have h2 := Nat.div_add_mod v (2 ^ lo)
  calc v / 2 ^ lo / 2 ^ w * (2 ^ lo * 2 ^ w) + v / 2 ^ lo % 2 ^ w * 2 ^ lo + v % 2 ^ lo
      = (2 ^ w * (v / 2 ^ lo / 2 ^ w) + v / 2 ^ lo % 2 ^ w) * 2 ^ lo + v % 2 ^ lo := by ring
    _ = v := by rw [h1, Nat.mul_comm]; exact h2

theorem setBits_lt {v lo w x n : Nat} (hv : v < 2 ^ n) (hn : lo + w ≤ n) : setBits v lo w x < 2 ^ n := by
  unfold setBits
  obtain ⟨m, rfl⟩ := Nat.exists_eq_add_of_le hn
  have h1 : v / 2 ^ (lo + w) < 2 ^ m := Nat.div_lt_of_lt_mul (by rwa [← Nat.pow_add])
  have h2 : x % 2 ^ w * 2 ^ lo + v % 2 ^ lo < 2 ^ (lo + w) := by
    have a := Nat.mod_lt x (Nat.two_pow_pos w)
    have b := Nat.mod_lt v (Nat.two_pow_pos lo)
    have c : (x % 2 ^ w + 1) * 2 ^ lo ≤ 2 ^ w * 2 ^ lo := Nat.mul_le_mul_right _ a
    rw [Nat.pow_add, Nat.mul_comm (2 ^ lo)]
    rw [Nat.add_mul] at c
    omega
  have h3 : (v / 2 ^ (lo + w) + 1) * 2 ^ (lo + w) ≤ 2 ^ m * 2 ^ (lo + w) := Nat.mul_le_mul_right _ h1
  rw [Nat.pow_add 2 (lo + w) m, Nat.mul_comm (2 ^ (lo + w)) (2 ^ m)]
  rw [Nat.add_mul] at h3
  omega

theorem setBits_mod_div (v lo w x : Nat) : setBits v lo w x / 2 ^ lo % 2 ^ w = x % 2 ^ w := by
  unfold setBits
  have b := Nat.mod_lt v (Nat.two_pow_pos lo)
  have : v / 2 ^ (lo + w) * 2 ^ (lo + w) + x % 2 ^ w * 2 ^ lo + v % 2 ^ lo
      = (v / 2 ^ (lo + w) * 2 ^ w + x % 2 ^ w) * 2 ^ lo + v % 2 ^ lo := by rw [Nat.pow_add]; ring
  rw [this, Nat.add_comm, Nat.add_mul_div_right _ _ (Nat.two_pow_pos lo), Nat.div_eq_of_lt b, Nat.zero_add, Nat.add_comm,
    Nat.add_mul_mod_self_right, Nat.mod_mod]

theorem bitsOf_setBits (v lo w x : Nat) : bitsOf (setBits v lo w x) lo w = x % 2 ^ w := setBits_mod_div v lo w x

/-- A field above the one that is set keeps its value. -/
theorem bitsOf_setBits_above {v lo w x l k : Nat} (h : lo + w ≤ l) : bitsOf (setBits v lo w x) l k = bitsOf v l k := by
  unfold bitsOf
  congr 1
  obtain ⟨m, rfl⟩ := Nat.exists_eq_add_of_le h
  unfold setBits
  have h2 : x % 2 ^ w * 2 ^ lo + v % 2 ^ lo < 2 ^ (lo + w) := by
    have a := Nat.mod_lt x (Nat.two_pow_pos w)
    have b := Nat.mod_lt v (Nat.two_pow_pos lo)
    have c : (x % 2 ^ w + 1) * 2 ^ lo ≤ 2 ^ w * 2 ^ lo := Nat.mul_le_mul_right _ a
    rw [Nat.pow_add, Nat.mul_comm (2 ^ lo)]
    rw [Nat.add_mul] at c
    omega
  rw [Nat.pow_add 2 (lo + w) m, ← Nat.div_div_eq_div_mul, ← Nat.div_div_eq_div_mul, Nat.add_assoc, Nat.mul_comm,
    Nat.mul_add_div (Nat.two_pow_pos _), Nat.div_eq_of_lt h2, Nat.add_zero]

/-- A field below the one that is set keeps its value. -/
theorem bitsOf_setBits_below {v lo w x l k : Nat} (h : l + k ≤ lo) : bitsOf (setBits v lo w x) l k = bitsOf v l k := by
  unfold bitsOf setBits
  obtain ⟨m, rfl⟩ := Nat.exists_eq_add_of_le h
  have e1 : v / 2 ^ (l + k + m + w) * 2 ^ (l + k + m + w) + x % 2 ^ w * 2 ^ (l + k + m) + v % 2 ^ (l + k + m)
      = v % 2 ^ (l + k + m) + (v / 2 ^ (l + k + m + w) * 2 ^ (m + w) + x % 2 ^ w * 2 ^ m) * 2 ^ k * 2 ^ l := by
    simp only [Nat.pow_add]; ring
  have e2 : v % 2 ^ (l + k + m) / 2 ^ l % 2 ^ k = v / 2 ^ l % 2 ^ k := by
    have h1 : 2 ^ (l + k + m) = 2 ^ l * 2 ^ (k + m) := by rw [Nat.add_assoc, Nat.pow_add]
    rw [h1, Nat.mod_mul_right_div_self]
    exact Nat.mod_mod_of_dvd _ (Nat.pow_dvd_pow 2 (Nat.le_add_right k m))
  rw [e1, Nat.add_mul_div_right _ _ (Nat.two_pow_pos l), Nat.add_mul_mod_self_right, e2]

theorem bitB_bitsOf (v i : Nat) : bitB v i = decide (bitsOf v i 1 ≠ 0) := by
  unfold bitB bitsOf
  rcases Nat.mod_two_eq_zero_or_one (v / 2 ^ i) with h | h <;> simp [h]

/-! ### The register file -/

/-- Storing the value that a canonical store holds changes nothing. -/
theorem sput_sget {α} [DecidableEq α] (d : Nat → α) (k : Nat) : ∀ m : Sparse α, swf d m = true → sput d m k (sget d m k) = m
  | [], _ => by simp [sput, sget]
  | (i, w) :: m, h => by
    simp [swf] at h
    unfold sput sget
    split
    · rename_i h1
      have h2 : k ≠ i := by omega
      rw [if_neg h2, sget_above d m k (sabove_mono (by omega) m h.1.1)]
      simp
    · split
      · rename_i h1 h2
        subst h2
        simp [h.1.2]
      · rename_i h1 h2
        rw [sput_sget d k m h.2]

theorem State.reg_lt (s : State) (o : Nat) : s.reg o < 2 ^ 32 := (sget regDflt s.regs o).isLt

theorem State.setReg_reg (s : State) (o : Nat) (h : swf regDflt s.regs = true) : s.setReg o (s.reg o) = s := by
  unfold State.setReg State.reg
  rw [BitVec.ofNat_toNat, BitVec.setWidth_eq, sput_sget _ _ _ h]

@[simp] theorem State.reg_setReg_ne (s : State) (o o' v : Nat) (h : o' ≠ o) : (s.setReg o v).reg o' = s.reg o' := by
  unfold State.setReg State.reg
  rw [sget_sput_ne _ _ _ _ h]

theorem State.reg_setReg (s : State) (o v : Nat) (h : swf regDflt s.regs = true) : (s.setReg o v).reg o = v % 2 ^ 32 := by
  unfold State.setReg State.reg
  rw [sget_sput_self _ _ _ _ h, BitVec.toNat_ofNat]

theorem State.setReg_wf (s : State) (o v : Nat) (h : swf regDflt s.regs = true) : swf regDflt (s.setReg o v).regs = true :=
  swf_sput _ _ _ _ h

theorem State.setFld_wf (s : State) (x : Fld) (v : Nat) (h : swf regDflt s.regs = true) : swf regDflt (s.setFld x v).regs = true :=
  swf_sput _ _ _ _ h

/-- Loading a field with its own value changes nothing. -/
theorem State.setFld_fld (s : State) (x : Fld) (h : swf regDflt s.regs = true) : s.setFld x (s.fld x) = s := by
  unfold State.setFld State.fld
  rw [setBits_bitsOf, State.setReg_reg s _ h]

/-- Loading a bit with the value that it has changes nothing. -/
theorem State.setFld_bit (s : State) (x : Fld) (hw : x.w = 1) (h : swf regDflt s.regs = true) : s.setFld x (b2n (s.bit x)) = s := by
  have : b2n (s.bit x) = s.fld x := by
    have h1 := bitsOf_lt (s.reg x.off) x.lo x.w
    rw [hw] at h1
    unfold State.bit State.fld b2n
    rw [hw]
    by_cases h0 : bitsOf (s.reg x.off) x.lo 1 = 0
    · simp [h0]
    · have : bitsOf (s.reg x.off) x.lo 1 = 1 := by omega
      simp [this]
  rw [this, State.setFld_fld s x h]

/-- A field reads as it was loaded. -/
theorem State.fld_setFld (s : State) (x : Fld) (v : Nat) (hx : x.lo + x.w ≤ 32) (h : swf regDflt s.regs = true) : (s.setFld x v).fld x = v % 2 ^ x.w := by
  unfold State.fld State.setFld
  rw [State.reg_setReg _ _ _ h, Nat.mod_eq_of_lt (setBits_lt (State.reg_lt s x.off) hx), bitsOf_setBits]

/-- A field in another register keeps its value. -/
@[simp] theorem State.fld_setReg_ne (s : State) (x : Fld) (o v : Nat) (h : x.off ≠ o) : (s.setReg o v).fld x = s.fld x := by
  unfold State.fld
  rw [State.reg_setReg_ne _ _ _ _ h]

@[simp] theorem State.bit_setReg_ne (s : State) (x : Fld) (o v : Nat) (h : x.off ≠ o) : (s.setReg o v).bit x = s.bit x := by
  unfold State.bit
  rw [State.fld_setReg_ne _ _ _ _ h]

theorem State.fld_setFld_ne (s : State) (x y : Fld) (v : Nat) (h : x.off ≠ y.off) : (s.setFld y v).fld x = s.fld x := State.fld_setReg_ne s x y.off _ h

/-- Another field of the same register keeps its value. -/
theorem State.fld_setFld_apart (s : State) (x y : Fld) (v : Nat) (ho : x.off = y.off) (hy : y.lo + y.w ≤ 32) (h : swf regDflt s.regs = true)
    (hd : y.lo + y.w ≤ x.lo ∨ x.lo + x.w ≤ y.lo) : (s.setFld y v).fld x = s.fld x := by
  unfold State.fld State.setFld
  rw [ho, State.reg_setReg _ _ _ h, Nat.mod_eq_of_lt (setBits_lt (State.reg_lt s y.off) hy)]
  rcases hd with hd | hd
  · exact bitsOf_setBits_above hd
  · exact bitsOf_setBits_below hd

end Sys2Proof.Machine
end

