-- ==== Sys2Proof/Laws/State.lean ====
section
/-! SUPPORT. What the shared operations leave alone: one lemma per operation and field of State. -/

namespace Sys2Proof.Machine

@[simp] theorem State.setReg_readLatch (s : State) (off v : Nat) : (State.setReg s off v).readLatch = s.readLatch := by rfl
@[simp] theorem State.setReg_writeLatch (s : State) (off v : Nat) : (State.setReg s off v).writeLatch = s.writeLatch := by rfl
@[simp] theorem State.setReg_timeLatch (s : State) (off v : Nat) : (State.setReg s off v).timeLatch = s.timeLatch := by rfl
@[simp] theorem State.setReg_staged (s : State) (off v : Nat) : (State.setReg s off v).staged = s.staged := by rfl
@[simp] theorem State.setReg_tb (s : State) (off v : Nat) : (State.setReg s off v).tb = s.tb := by rfl
@[simp] theorem State.setReg_tick (s : State) (off v : Nat) : (State.setReg s off v).tick = s.tick := by rfl
@[simp] theorem State.setReg_hif (s : State) (off v : Nat) : (State.setReg s off v).hif = s.hif := by rfl
@[simp] theorem State.setReg_evq (s : State) (off v : Nat) : (State.setReg s off v).evq = s.evq := by rfl
@[simp] theorem State.setReg_denyNotice (s : State) (off v : Nat) : (State.setReg s off v).denyNotice = s.denyNotice := by rfl
@[simp] theorem State.setReg_fe (s : State) (off v : Nat) : (State.setReg s off v).fe = s.fe := by rfl
@[simp] theorem State.setReg_crb (s : State) (off v : Nat) : (State.setReg s off v).crb = s.crb := by rfl
@[simp] theorem State.setReg_tdm (s : State) (off v : Nat) : (State.setReg s off v).tdm = s.tdm := by rfl
@[simp] theorem State.setReg_mem (s : State) (off v : Nat) : (State.setReg s off v).mem = s.mem := by rfl
@[simp] theorem State.setReg_tkr (s : State) (off v : Nat) : (State.setReg s off v).tkr = s.tkr := by rfl
@[simp] theorem State.setReg_tm (s : State) (off v : Nat) : (State.setReg s off v).tm = s.tm := by rfl
@[simp] theorem State.setReg_drv (s : State) (off v : Nat) : (State.setReg s off v).drv = s.drv := by rfl
@[simp] theorem State.setReg_php (s : State) (off v : Nat) : (State.setReg s off v).php = s.php := by rfl
@[simp] theorem State.setReg_tlm (s : State) (off v : Nat) : (State.setReg s off v).tlm = s.tlm := by rfl
@[simp] theorem State.setReg_mtr (s : State) (off v : Nat) : (State.setReg s off v).mtr = s.mtr := by rfl
@[simp] theorem State.setReg_far (s : State) (off v : Nat) : (State.setReg s off v).far = s.far := by rfl
@[simp] theorem State.setReg_nor (s : State) (off v : Nat) : (State.setReg s off v).nor = s.nor := by rfl
@[simp] theorem State.setReg_img (s : State) (off v : Nat) : (State.setReg s off v).img = s.img := by rfl
@[simp] theorem State.setReg_pwr (s : State) (off v : Nat) : (State.setReg s off v).pwr = s.pwr := by rfl
@[simp] theorem State.setReg_test (s : State) (off v : Nat) : (State.setReg s off v).test = s.test := by rfl
@[simp] theorem State.setReg_shu (s : State) (off v : Nat) : (State.setReg s off v).shu = s.shu := by rfl
@[simp] theorem State.setReg_drawn (s : State) (off v : Nat) : (State.setReg s off v).drawn = s.drawn := by rfl
@[simp] theorem State.setReg_out (s : State) (off v : Nat) : (State.setReg s off v).out = s.out := by rfl
@[simp] theorem State.setReg_pending (s : State) (off v : Nat) : (State.setReg s off v).pending = s.pending := by rfl
@[simp] theorem State.setFld_readLatch (s : State) (x : Fld) (v : Nat) : (State.setFld s x v).readLatch = s.readLatch := by rfl
@[simp] theorem State.setFld_writeLatch (s : State) (x : Fld) (v : Nat) : (State.setFld s x v).writeLatch = s.writeLatch := by rfl
@[simp] theorem State.setFld_timeLatch (s : State) (x : Fld) (v : Nat) : (State.setFld s x v).timeLatch = s.timeLatch := by rfl
@[simp] theorem State.setFld_staged (s : State) (x : Fld) (v : Nat) : (State.setFld s x v).staged = s.staged := by rfl
@[simp] theorem State.setFld_tb (s : State) (x : Fld) (v : Nat) : (State.setFld s x v).tb = s.tb := by rfl
@[simp] theorem State.setFld_tick (s : State) (x : Fld) (v : Nat) : (State.setFld s x v).tick = s.tick := by rfl
@[simp] theorem State.setFld_hif (s : State) (x : Fld) (v : Nat) : (State.setFld s x v).hif = s.hif := by rfl
@[simp] theorem State.setFld_evq (s : State) (x : Fld) (v : Nat) : (State.setFld s x v).evq = s.evq := by rfl
@[simp] theorem State.setFld_denyNotice (s : State) (x : Fld) (v : Nat) : (State.setFld s x v).denyNotice = s.denyNotice := by rfl
@[simp] theorem State.setFld_fe (s : State) (x : Fld) (v : Nat) : (State.setFld s x v).fe = s.fe := by rfl
@[simp] theorem State.setFld_crb (s : State) (x : Fld) (v : Nat) : (State.setFld s x v).crb = s.crb := by rfl
@[simp] theorem State.setFld_tdm (s : State) (x : Fld) (v : Nat) : (State.setFld s x v).tdm = s.tdm := by rfl
@[simp] theorem State.setFld_mem (s : State) (x : Fld) (v : Nat) : (State.setFld s x v).mem = s.mem := by rfl
@[simp] theorem State.setFld_tkr (s : State) (x : Fld) (v : Nat) : (State.setFld s x v).tkr = s.tkr := by rfl
@[simp] theorem State.setFld_tm (s : State) (x : Fld) (v : Nat) : (State.setFld s x v).tm = s.tm := by rfl
@[simp] theorem State.setFld_drv (s : State) (x : Fld) (v : Nat) : (State.setFld s x v).drv = s.drv := by rfl
@[simp] theorem State.setFld_php (s : State) (x : Fld) (v : Nat) : (State.setFld s x v).php = s.php := by rfl
@[simp] theorem State.setFld_tlm (s : State) (x : Fld) (v : Nat) : (State.setFld s x v).tlm = s.tlm := by rfl
@[simp] theorem State.setFld_mtr (s : State) (x : Fld) (v : Nat) : (State.setFld s x v).mtr = s.mtr := by rfl
@[simp] theorem State.setFld_far (s : State) (x : Fld) (v : Nat) : (State.setFld s x v).far = s.far := by rfl
@[simp] theorem State.setFld_nor (s : State) (x : Fld) (v : Nat) : (State.setFld s x v).nor = s.nor := by rfl
@[simp] theorem State.setFld_img (s : State) (x : Fld) (v : Nat) : (State.setFld s x v).img = s.img := by rfl
@[simp] theorem State.setFld_pwr (s : State) (x : Fld) (v : Nat) : (State.setFld s x v).pwr = s.pwr := by rfl
@[simp] theorem State.setFld_test (s : State) (x : Fld) (v : Nat) : (State.setFld s x v).test = s.test := by rfl
@[simp] theorem State.setFld_shu (s : State) (x : Fld) (v : Nat) : (State.setFld s x v).shu = s.shu := by rfl
@[simp] theorem State.setFld_drawn (s : State) (x : Fld) (v : Nat) : (State.setFld s x v).drawn = s.drawn := by rfl
@[simp] theorem State.setFld_out (s : State) (x : Fld) (v : Nat) : (State.setFld s x v).out = s.out := by rfl
@[simp] theorem State.setFld_pending (s : State) (x : Fld) (v : Nat) : (State.setFld s x v).pending = s.pending := by rfl
@[simp] theorem State.raise_readLatch (s : State) (x : Fld) : (State.raise s x).readLatch = s.readLatch := by rfl
@[simp] theorem State.raise_writeLatch (s : State) (x : Fld) : (State.raise s x).writeLatch = s.writeLatch := by rfl
@[simp] theorem State.raise_timeLatch (s : State) (x : Fld) : (State.raise s x).timeLatch = s.timeLatch := by rfl
@[simp] theorem State.raise_staged (s : State) (x : Fld) : (State.raise s x).staged = s.staged := by rfl
@[simp] theorem State.raise_tb (s : State) (x : Fld) : (State.raise s x).tb = s.tb := by rfl
@[simp] theorem State.raise_tick (s : State) (x : Fld) : (State.raise s x).tick = s.tick := by rfl
@[simp] theorem State.raise_hif (s : State) (x : Fld) : (State.raise s x).hif = s.hif := by rfl
@[simp] theorem State.raise_evq (s : State) (x : Fld) : (State.raise s x).evq = s.evq := by rfl
@[simp] theorem State.raise_denyNotice (s : State) (x : Fld) : (State.raise s x).denyNotice = s.denyNotice := by rfl
@[simp] theorem State.raise_fe (s : State) (x : Fld) : (State.raise s x).fe = s.fe := by rfl
@[simp] theorem State.raise_crb (s : State) (x : Fld) : (State.raise s x).crb = s.crb := by rfl
@[simp] theorem State.raise_tdm (s : State) (x : Fld) : (State.raise s x).tdm = s.tdm := by rfl
@[simp] theorem State.raise_mem (s : State) (x : Fld) : (State.raise s x).mem = s.mem := by rfl
@[simp] theorem State.raise_tkr (s : State) (x : Fld) : (State.raise s x).tkr = s.tkr := by rfl
@[simp] theorem State.raise_tm (s : State) (x : Fld) : (State.raise s x).tm = s.tm := by rfl
@[simp] theorem State.raise_drv (s : State) (x : Fld) : (State.raise s x).drv = s.drv := by rfl
@[simp] theorem State.raise_php (s : State) (x : Fld) : (State.raise s x).php = s.php := by rfl
@[simp] theorem State.raise_tlm (s : State) (x : Fld) : (State.raise s x).tlm = s.tlm := by rfl
@[simp] theorem State.raise_mtr (s : State) (x : Fld) : (State.raise s x).mtr = s.mtr := by rfl
@[simp] theorem State.raise_far (s : State) (x : Fld) : (State.raise s x).far = s.far := by rfl
@[simp] theorem State.raise_nor (s : State) (x : Fld) : (State.raise s x).nor = s.nor := by rfl
@[simp] theorem State.raise_img (s : State) (x : Fld) : (State.raise s x).img = s.img := by rfl
@[simp] theorem State.raise_pwr (s : State) (x : Fld) : (State.raise s x).pwr = s.pwr := by rfl
@[simp] theorem State.raise_test (s : State) (x : Fld) : (State.raise s x).test = s.test := by rfl
@[simp] theorem State.raise_shu (s : State) (x : Fld) : (State.raise s x).shu = s.shu := by rfl
@[simp] theorem State.raise_drawn (s : State) (x : Fld) : (State.raise s x).drawn = s.drawn := by rfl
@[simp] theorem State.raise_out (s : State) (x : Fld) : (State.raise s x).out = s.out := by rfl
@[simp] theorem State.raise_pending (s : State) (x : Fld) : (State.raise s x).pending = s.pending := by rfl
@[simp] theorem State.clear_readLatch (s : State) (x : Fld) : (State.clear s x).readLatch = s.readLatch := by rfl
@[simp] theorem State.clear_writeLatch (s : State) (x : Fld) : (State.clear s x).writeLatch = s.writeLatch := by rfl
@[simp] theorem State.clear_timeLatch (s : State) (x : Fld) : (State.clear s x).timeLatch = s.timeLatch := by rfl
@[simp] theorem State.clear_staged (s : State) (x : Fld) : (State.clear s x).staged = s.staged := by rfl
@[simp] theorem State.clear_tb (s : State) (x : Fld) : (State.clear s x).tb = s.tb := by rfl
@[simp] theorem State.clear_tick (s : State) (x : Fld) : (State.clear s x).tick = s.tick := by rfl
@[simp] theorem State.clear_hif (s : State) (x : Fld) : (State.clear s x).hif = s.hif := by rfl
@[simp] theorem State.clear_evq (s : State) (x : Fld) : (State.clear s x).evq = s.evq := by rfl
@[simp] theorem State.clear_denyNotice (s : State) (x : Fld) : (State.clear s x).denyNotice = s.denyNotice := by rfl
@[simp] theorem State.clear_fe (s : State) (x : Fld) : (State.clear s x).fe = s.fe := by rfl
@[simp] theorem State.clear_crb (s : State) (x : Fld) : (State.clear s x).crb = s.crb := by rfl
@[simp] theorem State.clear_tdm (s : State) (x : Fld) : (State.clear s x).tdm = s.tdm := by rfl
@[simp] theorem State.clear_mem (s : State) (x : Fld) : (State.clear s x).mem = s.mem := by rfl
@[simp] theorem State.clear_tkr (s : State) (x : Fld) : (State.clear s x).tkr = s.tkr := by rfl
@[simp] theorem State.clear_tm (s : State) (x : Fld) : (State.clear s x).tm = s.tm := by rfl
@[simp] theorem State.clear_drv (s : State) (x : Fld) : (State.clear s x).drv = s.drv := by rfl
@[simp] theorem State.clear_php (s : State) (x : Fld) : (State.clear s x).php = s.php := by rfl
@[simp] theorem State.clear_tlm (s : State) (x : Fld) : (State.clear s x).tlm = s.tlm := by rfl
@[simp] theorem State.clear_mtr (s : State) (x : Fld) : (State.clear s x).mtr = s.mtr := by rfl
@[simp] theorem State.clear_far (s : State) (x : Fld) : (State.clear s x).far = s.far := by rfl
@[simp] theorem State.clear_nor (s : State) (x : Fld) : (State.clear s x).nor = s.nor := by rfl
@[simp] theorem State.clear_img (s : State) (x : Fld) : (State.clear s x).img = s.img := by rfl
@[simp] theorem State.clear_pwr (s : State) (x : Fld) : (State.clear s x).pwr = s.pwr := by rfl
@[simp] theorem State.clear_test (s : State) (x : Fld) : (State.clear s x).test = s.test := by rfl
@[simp] theorem State.clear_shu (s : State) (x : Fld) : (State.clear s x).shu = s.shu := by rfl
@[simp] theorem State.clear_drawn (s : State) (x : Fld) : (State.clear s x).drawn = s.drawn := by rfl
@[simp] theorem State.clear_out (s : State) (x : Fld) : (State.clear s x).out = s.out := by rfl
@[simp] theorem State.clear_pending (s : State) (x : Fld) : (State.clear s x).pending = s.pending := by rfl
@[simp] theorem State.bump_readLatch (s : State) (x : Fld) (n : Nat) : (State.bump s x n).readLatch = s.readLatch := by rfl
@[simp] theorem State.bump_writeLatch (s : State) (x : Fld) (n : Nat) : (State.bump s x n).writeLatch = s.writeLatch := by rfl
@[simp] theorem State.bump_timeLatch (s : State) (x : Fld) (n : Nat) : (State.bump s x n).timeLatch = s.timeLatch := by rfl
@[simp] theorem State.bump_staged (s : State) (x : Fld) (n : Nat) : (State.bump s x n).staged = s.staged := by rfl
@[simp] theorem State.bump_tb (s : State) (x : Fld) (n : Nat) : (State.bump s x n).tb = s.tb := by rfl
@[simp] theorem State.bump_tick (s : State) (x : Fld) (n : Nat) : (State.bump s x n).tick = s.tick := by rfl
@[simp] theorem State.bump_hif (s : State) (x : Fld) (n : Nat) : (State.bump s x n).hif = s.hif := by rfl
@[simp] theorem State.bump_evq (s : State) (x : Fld) (n : Nat) : (State.bump s x n).evq = s.evq := by rfl
@[simp] theorem State.bump_denyNotice (s : State) (x : Fld) (n : Nat) : (State.bump s x n).denyNotice = s.denyNotice := by rfl
@[simp] theorem State.bump_fe (s : State) (x : Fld) (n : Nat) : (State.bump s x n).fe = s.fe := by rfl
@[simp] theorem State.bump_crb (s : State) (x : Fld) (n : Nat) : (State.bump s x n).crb = s.crb := by rfl
@[simp] theorem State.bump_tdm (s : State) (x : Fld) (n : Nat) : (State.bump s x n).tdm = s.tdm := by rfl
@[simp] theorem State.bump_mem (s : State) (x : Fld) (n : Nat) : (State.bump s x n).mem = s.mem := by rfl
@[simp] theorem State.bump_tkr (s : State) (x : Fld) (n : Nat) : (State.bump s x n).tkr = s.tkr := by rfl
@[simp] theorem State.bump_tm (s : State) (x : Fld) (n : Nat) : (State.bump s x n).tm = s.tm := by rfl
@[simp] theorem State.bump_drv (s : State) (x : Fld) (n : Nat) : (State.bump s x n).drv = s.drv := by rfl
@[simp] theorem State.bump_php (s : State) (x : Fld) (n : Nat) : (State.bump s x n).php = s.php := by rfl
@[simp] theorem State.bump_tlm (s : State) (x : Fld) (n : Nat) : (State.bump s x n).tlm = s.tlm := by rfl
@[simp] theorem State.bump_mtr (s : State) (x : Fld) (n : Nat) : (State.bump s x n).mtr = s.mtr := by rfl
@[simp] theorem State.bump_far (s : State) (x : Fld) (n : Nat) : (State.bump s x n).far = s.far := by rfl
@[simp] theorem State.bump_nor (s : State) (x : Fld) (n : Nat) : (State.bump s x n).nor = s.nor := by rfl
@[simp] theorem State.bump_img (s : State) (x : Fld) (n : Nat) : (State.bump s x n).img = s.img := by rfl
@[simp] theorem State.bump_pwr (s : State) (x : Fld) (n : Nat) : (State.bump s x n).pwr = s.pwr := by rfl
@[simp] theorem State.bump_test (s : State) (x : Fld) (n : Nat) : (State.bump s x n).test = s.test := by rfl
@[simp] theorem State.bump_shu (s : State) (x : Fld) (n : Nat) : (State.bump s x n).shu = s.shu := by rfl
@[simp] theorem State.bump_drawn (s : State) (x : Fld) (n : Nat) : (State.bump s x n).drawn = s.drawn := by rfl
@[simp] theorem State.bump_out (s : State) (x : Fld) (n : Nat) : (State.bump s x n).out = s.out := by rfl
@[simp] theorem State.bump_pending (s : State) (x : Fld) (n : Nat) : (State.bump s x n).pending = s.pending := by rfl
@[simp] theorem State.bumpReg_readLatch (s : State) (off n : Nat) : (State.bumpReg s off n).readLatch = s.readLatch := by rfl
@[simp] theorem State.bumpReg_writeLatch (s : State) (off n : Nat) : (State.bumpReg s off n).writeLatch = s.writeLatch := by rfl
@[simp] theorem State.bumpReg_timeLatch (s : State) (off n : Nat) : (State.bumpReg s off n).timeLatch = s.timeLatch := by rfl
@[simp] theorem State.bumpReg_staged (s : State) (off n : Nat) : (State.bumpReg s off n).staged = s.staged := by rfl
@[simp] theorem State.bumpReg_tb (s : State) (off n : Nat) : (State.bumpReg s off n).tb = s.tb := by rfl
@[simp] theorem State.bumpReg_tick (s : State) (off n : Nat) : (State.bumpReg s off n).tick = s.tick := by rfl
@[simp] theorem State.bumpReg_hif (s : State) (off n : Nat) : (State.bumpReg s off n).hif = s.hif := by rfl
@[simp] theorem State.bumpReg_evq (s : State) (off n : Nat) : (State.bumpReg s off n).evq = s.evq := by rfl
@[simp] theorem State.bumpReg_denyNotice (s : State) (off n : Nat) : (State.bumpReg s off n).denyNotice = s.denyNotice := by rfl
@[simp] theorem State.bumpReg_fe (s : State) (off n : Nat) : (State.bumpReg s off n).fe = s.fe := by rfl
@[simp] theorem State.bumpReg_crb (s : State) (off n : Nat) : (State.bumpReg s off n).crb = s.crb := by rfl
@[simp] theorem State.bumpReg_tdm (s : State) (off n : Nat) : (State.bumpReg s off n).tdm = s.tdm := by rfl
@[simp] theorem State.bumpReg_mem (s : State) (off n : Nat) : (State.bumpReg s off n).mem = s.mem := by rfl
@[simp] theorem State.bumpReg_tkr (s : State) (off n : Nat) : (State.bumpReg s off n).tkr = s.tkr := by rfl
@[simp] theorem State.bumpReg_tm (s : State) (off n : Nat) : (State.bumpReg s off n).tm = s.tm := by rfl
@[simp] theorem State.bumpReg_drv (s : State) (off n : Nat) : (State.bumpReg s off n).drv = s.drv := by rfl
@[simp] theorem State.bumpReg_php (s : State) (off n : Nat) : (State.bumpReg s off n).php = s.php := by rfl
@[simp] theorem State.bumpReg_tlm (s : State) (off n : Nat) : (State.bumpReg s off n).tlm = s.tlm := by rfl
@[simp] theorem State.bumpReg_mtr (s : State) (off n : Nat) : (State.bumpReg s off n).mtr = s.mtr := by rfl
@[simp] theorem State.bumpReg_far (s : State) (off n : Nat) : (State.bumpReg s off n).far = s.far := by rfl
@[simp] theorem State.bumpReg_nor (s : State) (off n : Nat) : (State.bumpReg s off n).nor = s.nor := by rfl
@[simp] theorem State.bumpReg_img (s : State) (off n : Nat) : (State.bumpReg s off n).img = s.img := by rfl
@[simp] theorem State.bumpReg_pwr (s : State) (off n : Nat) : (State.bumpReg s off n).pwr = s.pwr := by rfl
@[simp] theorem State.bumpReg_test (s : State) (off n : Nat) : (State.bumpReg s off n).test = s.test := by rfl
@[simp] theorem State.bumpReg_shu (s : State) (off n : Nat) : (State.bumpReg s off n).shu = s.shu := by rfl
@[simp] theorem State.bumpReg_drawn (s : State) (off n : Nat) : (State.bumpReg s off n).drawn = s.drawn := by rfl
@[simp] theorem State.bumpReg_out (s : State) (off n : Nat) : (State.bumpReg s off n).out = s.out := by rfl
@[simp] theorem State.bumpReg_pending (s : State) (off n : Nat) : (State.bumpReg s off n).pending = s.pending := by rfl
@[simp] theorem State.setReg64_readLatch (s : State) (off v : Nat) : (State.setReg64 s off v).readLatch = s.readLatch := by rfl
@[simp] theorem State.setReg64_writeLatch (s : State) (off v : Nat) : (State.setReg64 s off v).writeLatch = s.writeLatch := by rfl
@[simp] theorem State.setReg64_timeLatch (s : State) (off v : Nat) : (State.setReg64 s off v).timeLatch = s.timeLatch := by rfl
@[simp] theorem State.setReg64_staged (s : State) (off v : Nat) : (State.setReg64 s off v).staged = s.staged := by rfl
@[simp] theorem State.setReg64_tb (s : State) (off v : Nat) : (State.setReg64 s off v).tb = s.tb := by rfl
@[simp] theorem State.setReg64_tick (s : State) (off v : Nat) : (State.setReg64 s off v).tick = s.tick := by rfl
@[simp] theorem State.setReg64_hif (s : State) (off v : Nat) : (State.setReg64 s off v).hif = s.hif := by rfl
@[simp] theorem State.setReg64_evq (s : State) (off v : Nat) : (State.setReg64 s off v).evq = s.evq := by rfl
@[simp] theorem State.setReg64_denyNotice (s : State) (off v : Nat) : (State.setReg64 s off v).denyNotice = s.denyNotice := by rfl
@[simp] theorem State.setReg64_fe (s : State) (off v : Nat) : (State.setReg64 s off v).fe = s.fe := by rfl
@[simp] theorem State.setReg64_crb (s : State) (off v : Nat) : (State.setReg64 s off v).crb = s.crb := by rfl
@[simp] theorem State.setReg64_tdm (s : State) (off v : Nat) : (State.setReg64 s off v).tdm = s.tdm := by rfl
@[simp] theorem State.setReg64_mem (s : State) (off v : Nat) : (State.setReg64 s off v).mem = s.mem := by rfl
@[simp] theorem State.setReg64_tkr (s : State) (off v : Nat) : (State.setReg64 s off v).tkr = s.tkr := by rfl
@[simp] theorem State.setReg64_tm (s : State) (off v : Nat) : (State.setReg64 s off v).tm = s.tm := by rfl
@[simp] theorem State.setReg64_drv (s : State) (off v : Nat) : (State.setReg64 s off v).drv = s.drv := by rfl
@[simp] theorem State.setReg64_php (s : State) (off v : Nat) : (State.setReg64 s off v).php = s.php := by rfl
@[simp] theorem State.setReg64_tlm (s : State) (off v : Nat) : (State.setReg64 s off v).tlm = s.tlm := by rfl
@[simp] theorem State.setReg64_mtr (s : State) (off v : Nat) : (State.setReg64 s off v).mtr = s.mtr := by rfl
@[simp] theorem State.setReg64_far (s : State) (off v : Nat) : (State.setReg64 s off v).far = s.far := by rfl
@[simp] theorem State.setReg64_nor (s : State) (off v : Nat) : (State.setReg64 s off v).nor = s.nor := by rfl
@[simp] theorem State.setReg64_img (s : State) (off v : Nat) : (State.setReg64 s off v).img = s.img := by rfl
@[simp] theorem State.setReg64_pwr (s : State) (off v : Nat) : (State.setReg64 s off v).pwr = s.pwr := by rfl
@[simp] theorem State.setReg64_test (s : State) (off v : Nat) : (State.setReg64 s off v).test = s.test := by rfl
@[simp] theorem State.setReg64_shu (s : State) (off v : Nat) : (State.setReg64 s off v).shu = s.shu := by rfl
@[simp] theorem State.setReg64_drawn (s : State) (off v : Nat) : (State.setReg64 s off v).drawn = s.drawn := by rfl
@[simp] theorem State.setReg64_out (s : State) (off v : Nat) : (State.setReg64 s off v).out = s.out := by rfl
@[simp] theorem State.setReg64_pending (s : State) (off v : Nat) : (State.setReg64 s off v).pending = s.pending := by rfl
@[simp] theorem State.drew_regs (s : State) : (State.drew s).regs = s.regs := by rfl
@[simp] theorem State.drew_readLatch (s : State) : (State.drew s).readLatch = s.readLatch := by rfl
@[simp] theorem State.drew_writeLatch (s : State) : (State.drew s).writeLatch = s.writeLatch := by rfl
@[simp] theorem State.drew_timeLatch (s : State) : (State.drew s).timeLatch = s.timeLatch := by rfl
@[simp] theorem State.drew_staged (s : State) : (State.drew s).staged = s.staged := by rfl
@[simp] theorem State.drew_tb (s : State) : (State.drew s).tb = s.tb := by rfl
@[simp] theorem State.drew_tick (s : State) : (State.drew s).tick = s.tick := by rfl
@[simp] theorem State.drew_hif (s : State) : (State.drew s).hif = s.hif := by rfl
@[simp] theorem State.drew_evq (s : State) : (State.drew s).evq = s.evq := by rfl
@[simp] theorem State.drew_denyNotice (s : State) : (State.drew s).denyNotice = s.denyNotice := by rfl
@[simp] theorem State.drew_fe (s : State) : (State.drew s).fe = s.fe := by rfl
@[simp] theorem State.drew_crb (s : State) : (State.drew s).crb = s.crb := by rfl
@[simp] theorem State.drew_tdm (s : State) : (State.drew s).tdm = s.tdm := by rfl
@[simp] theorem State.drew_mem (s : State) : (State.drew s).mem = s.mem := by rfl
@[simp] theorem State.drew_tkr (s : State) : (State.drew s).tkr = s.tkr := by rfl
@[simp] theorem State.drew_tm (s : State) : (State.drew s).tm = s.tm := by rfl
@[simp] theorem State.drew_drv (s : State) : (State.drew s).drv = s.drv := by rfl
@[simp] theorem State.drew_php (s : State) : (State.drew s).php = s.php := by rfl
@[simp] theorem State.drew_tlm (s : State) : (State.drew s).tlm = s.tlm := by rfl
@[simp] theorem State.drew_mtr (s : State) : (State.drew s).mtr = s.mtr := by rfl
@[simp] theorem State.drew_far (s : State) : (State.drew s).far = s.far := by rfl
@[simp] theorem State.drew_nor (s : State) : (State.drew s).nor = s.nor := by rfl
@[simp] theorem State.drew_img (s : State) : (State.drew s).img = s.img := by rfl
@[simp] theorem State.drew_pwr (s : State) : (State.drew s).pwr = s.pwr := by rfl
@[simp] theorem State.drew_test (s : State) : (State.drew s).test = s.test := by rfl
@[simp] theorem State.drew_shu (s : State) : (State.drew s).shu = s.shu := by rfl
@[simp] theorem State.drew_out (s : State) : (State.drew s).out = s.out := by rfl
@[simp] theorem State.drew_pending (s : State) : (State.drew s).pending = s.pending := by rfl
@[simp] theorem State.emit_regs (s : State) (o : Output) : (State.emit s o).regs = s.regs := by rfl
@[simp] theorem State.emit_readLatch (s : State) (o : Output) : (State.emit s o).readLatch = s.readLatch := by rfl
@[simp] theorem State.emit_writeLatch (s : State) (o : Output) : (State.emit s o).writeLatch = s.writeLatch := by rfl
@[simp] theorem State.emit_timeLatch (s : State) (o : Output) : (State.emit s o).timeLatch = s.timeLatch := by rfl
@[simp] theorem State.emit_staged (s : State) (o : Output) : (State.emit s o).staged = s.staged := by rfl
@[simp] theorem State.emit_tb (s : State) (o : Output) : (State.emit s o).tb = s.tb := by rfl
@[simp] theorem State.emit_tick (s : State) (o : Output) : (State.emit s o).tick = s.tick := by rfl
@[simp] theorem State.emit_hif (s : State) (o : Output) : (State.emit s o).hif = s.hif := by rfl
@[simp] theorem State.emit_evq (s : State) (o : Output) : (State.emit s o).evq = s.evq := by rfl
@[simp] theorem State.emit_denyNotice (s : State) (o : Output) : (State.emit s o).denyNotice = s.denyNotice := by rfl
@[simp] theorem State.emit_fe (s : State) (o : Output) : (State.emit s o).fe = s.fe := by rfl
@[simp] theorem State.emit_crb (s : State) (o : Output) : (State.emit s o).crb = s.crb := by rfl
@[simp] theorem State.emit_tdm (s : State) (o : Output) : (State.emit s o).tdm = s.tdm := by rfl
@[simp] theorem State.emit_mem (s : State) (o : Output) : (State.emit s o).mem = s.mem := by rfl
@[simp] theorem State.emit_tkr (s : State) (o : Output) : (State.emit s o).tkr = s.tkr := by rfl
@[simp] theorem State.emit_tm (s : State) (o : Output) : (State.emit s o).tm = s.tm := by rfl
@[simp] theorem State.emit_drv (s : State) (o : Output) : (State.emit s o).drv = s.drv := by rfl
@[simp] theorem State.emit_php (s : State) (o : Output) : (State.emit s o).php = s.php := by rfl
@[simp] theorem State.emit_tlm (s : State) (o : Output) : (State.emit s o).tlm = s.tlm := by rfl
@[simp] theorem State.emit_mtr (s : State) (o : Output) : (State.emit s o).mtr = s.mtr := by rfl
@[simp] theorem State.emit_far (s : State) (o : Output) : (State.emit s o).far = s.far := by rfl
@[simp] theorem State.emit_nor (s : State) (o : Output) : (State.emit s o).nor = s.nor := by rfl
@[simp] theorem State.emit_img (s : State) (o : Output) : (State.emit s o).img = s.img := by rfl
@[simp] theorem State.emit_pwr (s : State) (o : Output) : (State.emit s o).pwr = s.pwr := by rfl
@[simp] theorem State.emit_test (s : State) (o : Output) : (State.emit s o).test = s.test := by rfl
@[simp] theorem State.emit_shu (s : State) (o : Output) : (State.emit s o).shu = s.shu := by rfl
@[simp] theorem State.emit_drawn (s : State) (o : Output) : (State.emit s o).drawn = s.drawn := by rfl
@[simp] theorem State.emit_pending (s : State) (o : Output) : (State.emit s o).pending = s.pending := by rfl
@[simp] theorem State.setQueue_regs (s : State) (e : Nat) (q : EventQueue) : (State.setQueue s e q).regs = s.regs := by rfl
@[simp] theorem State.setQueue_readLatch (s : State) (e : Nat) (q : EventQueue) : (State.setQueue s e q).readLatch = s.readLatch := by rfl
@[simp] theorem State.setQueue_writeLatch (s : State) (e : Nat) (q : EventQueue) : (State.setQueue s e q).writeLatch = s.writeLatch := by rfl
@[simp] theorem State.setQueue_timeLatch (s : State) (e : Nat) (q : EventQueue) : (State.setQueue s e q).timeLatch = s.timeLatch := by rfl
@[simp] theorem State.setQueue_staged (s : State) (e : Nat) (q : EventQueue) : (State.setQueue s e q).staged = s.staged := by rfl
@[simp] theorem State.setQueue_tb (s : State) (e : Nat) (q : EventQueue) : (State.setQueue s e q).tb = s.tb := by rfl
@[simp] theorem State.setQueue_tick (s : State) (e : Nat) (q : EventQueue) : (State.setQueue s e q).tick = s.tick := by rfl
@[simp] theorem State.setQueue_hif (s : State) (e : Nat) (q : EventQueue) : (State.setQueue s e q).hif = s.hif := by rfl
@[simp] theorem State.setQueue_denyNotice (s : State) (e : Nat) (q : EventQueue) : (State.setQueue s e q).denyNotice = s.denyNotice := by rfl
@[simp] theorem State.setQueue_fe (s : State) (e : Nat) (q : EventQueue) : (State.setQueue s e q).fe = s.fe := by rfl
@[simp] theorem State.setQueue_crb (s : State) (e : Nat) (q : EventQueue) : (State.setQueue s e q).crb = s.crb := by rfl
@[simp] theorem State.setQueue_tdm (s : State) (e : Nat) (q : EventQueue) : (State.setQueue s e q).tdm = s.tdm := by rfl
@[simp] theorem State.setQueue_mem (s : State) (e : Nat) (q : EventQueue) : (State.setQueue s e q).mem = s.mem := by rfl
@[simp] theorem State.setQueue_tkr (s : State) (e : Nat) (q : EventQueue) : (State.setQueue s e q).tkr = s.tkr := by rfl
@[simp] theorem State.setQueue_tm (s : State) (e : Nat) (q : EventQueue) : (State.setQueue s e q).tm = s.tm := by rfl
@[simp] theorem State.setQueue_drv (s : State) (e : Nat) (q : EventQueue) : (State.setQueue s e q).drv = s.drv := by rfl
@[simp] theorem State.setQueue_php (s : State) (e : Nat) (q : EventQueue) : (State.setQueue s e q).php = s.php := by rfl
@[simp] theorem State.setQueue_tlm (s : State) (e : Nat) (q : EventQueue) : (State.setQueue s e q).tlm = s.tlm := by rfl
@[simp] theorem State.setQueue_mtr (s : State) (e : Nat) (q : EventQueue) : (State.setQueue s e q).mtr = s.mtr := by rfl
@[simp] theorem State.setQueue_far (s : State) (e : Nat) (q : EventQueue) : (State.setQueue s e q).far = s.far := by rfl
@[simp] theorem State.setQueue_nor (s : State) (e : Nat) (q : EventQueue) : (State.setQueue s e q).nor = s.nor := by rfl
@[simp] theorem State.setQueue_img (s : State) (e : Nat) (q : EventQueue) : (State.setQueue s e q).img = s.img := by rfl
@[simp] theorem State.setQueue_pwr (s : State) (e : Nat) (q : EventQueue) : (State.setQueue s e q).pwr = s.pwr := by rfl
@[simp] theorem State.setQueue_test (s : State) (e : Nat) (q : EventQueue) : (State.setQueue s e q).test = s.test := by rfl
@[simp] theorem State.setQueue_shu (s : State) (e : Nat) (q : EventQueue) : (State.setQueue s e q).shu = s.shu := by rfl
@[simp] theorem State.setQueue_drawn (s : State) (e : Nat) (q : EventQueue) : (State.setQueue s e q).drawn = s.drawn := by rfl
@[simp] theorem State.setQueue_out (s : State) (e : Nat) (q : EventQueue) : (State.setQueue s e q).out = s.out := by rfl
@[simp] theorem State.setQueue_pending (s : State) (e : Nat) (q : EventQueue) : (State.setQueue s e q).pending = s.pending := by rfl
@[simp] theorem State.overwrite_readLatch (s : State) (e : Nat) (q : EventQueue) (ev : Event) : (State.overwrite s e q ev).readLatch = s.readLatch := by unfold State.overwrite; dsimp only; (repeat' split) <;> simp
@[simp] theorem State.overwrite_writeLatch (s : State) (e : Nat) (q : EventQueue) (ev : Event) : (State.overwrite s e q ev).writeLatch = s.writeLatch := by unfold State.overwrite; dsimp only; (repeat' split) <;> simp
@[simp] theorem State.overwrite_timeLatch (s : State) (e : Nat) (q : EventQueue) (ev : Event) : (State.overwrite s e q ev).timeLatch = s.timeLatch := by unfold State.overwrite; dsimp only; (repeat' split) <;> simp
@[simp] theorem State.overwrite_staged (s : State) (e : Nat) (q : EventQueue) (ev : Event) : (State.overwrite s e q ev).staged = s.staged := by unfold State.overwrite; dsimp only; (repeat' split) <;> simp
@[simp] theorem State.overwrite_tb (s : State) (e : Nat) (q : EventQueue) (ev : Event) : (State.overwrite s e q ev).tb = s.tb := by unfold State.overwrite; dsimp only; (repeat' split) <;> simp
@[simp] theorem State.overwrite_tick (s : State) (e : Nat) (q : EventQueue) (ev : Event) : (State.overwrite s e q ev).tick = s.tick := by unfold State.overwrite; dsimp only; (repeat' split) <;> simp
@[simp] theorem State.overwrite_hif (s : State) (e : Nat) (q : EventQueue) (ev : Event) : (State.overwrite s e q ev).hif = s.hif := by unfold State.overwrite; dsimp only; (repeat' split) <;> simp
@[simp] theorem State.overwrite_denyNotice (s : State) (e : Nat) (q : EventQueue) (ev : Event) : (State.overwrite s e q ev).denyNotice = s.denyNotice := by unfold State.overwrite; dsimp only; (repeat' split) <;> simp
@[simp] theorem State.overwrite_fe (s : State) (e : Nat) (q : EventQueue) (ev : Event) : (State.overwrite s e q ev).fe = s.fe := by unfold State.overwrite; dsimp only; (repeat' split) <;> simp
@[simp] theorem State.overwrite_crb (s : State) (e : Nat) (q : EventQueue) (ev : Event) : (State.overwrite s e q ev).crb = s.crb := by unfold State.overwrite; dsimp only; (repeat' split) <;> simp
@[simp] theorem State.overwrite_tdm (s : State) (e : Nat) (q : EventQueue) (ev : Event) : (State.overwrite s e q ev).tdm = s.tdm := by unfold State.overwrite; dsimp only; (repeat' split) <;> simp
@[simp] theorem State.overwrite_mem (s : State) (e : Nat) (q : EventQueue) (ev : Event) : (State.overwrite s e q ev).mem = s.mem := by unfold State.overwrite; dsimp only; (repeat' split) <;> simp
@[simp] theorem State.overwrite_tkr (s : State) (e : Nat) (q : EventQueue) (ev : Event) : (State.overwrite s e q ev).tkr = s.tkr := by unfold State.overwrite; dsimp only; (repeat' split) <;> simp
@[simp] theorem State.overwrite_tm (s : State) (e : Nat) (q : EventQueue) (ev : Event) : (State.overwrite s e q ev).tm = s.tm := by unfold State.overwrite; dsimp only; (repeat' split) <;> simp
@[simp] theorem State.overwrite_drv (s : State) (e : Nat) (q : EventQueue) (ev : Event) : (State.overwrite s e q ev).drv = s.drv := by unfold State.overwrite; dsimp only; (repeat' split) <;> simp
@[simp] theorem State.overwrite_php (s : State) (e : Nat) (q : EventQueue) (ev : Event) : (State.overwrite s e q ev).php = s.php := by unfold State.overwrite; dsimp only; (repeat' split) <;> simp
@[simp] theorem State.overwrite_tlm (s : State) (e : Nat) (q : EventQueue) (ev : Event) : (State.overwrite s e q ev).tlm = s.tlm := by unfold State.overwrite; dsimp only; (repeat' split) <;> simp
@[simp] theorem State.overwrite_mtr (s : State) (e : Nat) (q : EventQueue) (ev : Event) : (State.overwrite s e q ev).mtr = s.mtr := by unfold State.overwrite; dsimp only; (repeat' split) <;> simp
@[simp] theorem State.overwrite_far (s : State) (e : Nat) (q : EventQueue) (ev : Event) : (State.overwrite s e q ev).far = s.far := by unfold State.overwrite; dsimp only; (repeat' split) <;> simp
@[simp] theorem State.overwrite_nor (s : State) (e : Nat) (q : EventQueue) (ev : Event) : (State.overwrite s e q ev).nor = s.nor := by unfold State.overwrite; dsimp only; (repeat' split) <;> simp
@[simp] theorem State.overwrite_img (s : State) (e : Nat) (q : EventQueue) (ev : Event) : (State.overwrite s e q ev).img = s.img := by unfold State.overwrite; dsimp only; (repeat' split) <;> simp
@[simp] theorem State.overwrite_pwr (s : State) (e : Nat) (q : EventQueue) (ev : Event) : (State.overwrite s e q ev).pwr = s.pwr := by unfold State.overwrite; dsimp only; (repeat' split) <;> simp
@[simp] theorem State.overwrite_test (s : State) (e : Nat) (q : EventQueue) (ev : Event) : (State.overwrite s e q ev).test = s.test := by unfold State.overwrite; dsimp only; (repeat' split) <;> simp
@[simp] theorem State.overwrite_shu (s : State) (e : Nat) (q : EventQueue) (ev : Event) : (State.overwrite s e q ev).shu = s.shu := by unfold State.overwrite; dsimp only; (repeat' split) <;> simp
@[simp] theorem State.overwrite_drawn (s : State) (e : Nat) (q : EventQueue) (ev : Event) : (State.overwrite s e q ev).drawn = s.drawn := by unfold State.overwrite; dsimp only; (repeat' split) <;> simp
@[simp] theorem State.overwrite_out (s : State) (e : Nat) (q : EventQueue) (ev : Event) : (State.overwrite s e q ev).out = s.out := by unfold State.overwrite; dsimp only; (repeat' split) <;> simp
@[simp] theorem State.overwrite_pending (s : State) (e : Nat) (q : EventQueue) (ev : Event) : (State.overwrite s e q ev).pending = s.pending := by unfold State.overwrite; dsimp only; (repeat' split) <;> simp
@[simp] theorem State.offer_readLatch (s : State) (e : Nat) (ev : Event) : (State.offer s e ev).readLatch = s.readLatch := by unfold State.offer; dsimp only; (repeat' split) <;> simp
@[simp] theorem State.offer_writeLatch (s : State) (e : Nat) (ev : Event) : (State.offer s e ev).writeLatch = s.writeLatch := by unfold State.offer; dsimp only; (repeat' split) <;> simp
@[simp] theorem State.offer_timeLatch (s : State) (e : Nat) (ev : Event) : (State.offer s e ev).timeLatch = s.timeLatch := by unfold State.offer; dsimp only; (repeat' split) <;> simp
@[simp] theorem State.offer_staged (s : State) (e : Nat) (ev : Event) : (State.offer s e ev).staged = s.staged := by unfold State.offer; dsimp only; (repeat' split) <;> simp
@[simp] theorem State.offer_tb (s : State) (e : Nat) (ev : Event) : (State.offer s e ev).tb = s.tb := by unfold State.offer; dsimp only; (repeat' split) <;> simp
@[simp] theorem State.offer_tick (s : State) (e : Nat) (ev : Event) : (State.offer s e ev).tick = s.tick := by unfold State.offer; dsimp only; (repeat' split) <;> simp
@[simp] theorem State.offer_hif (s : State) (e : Nat) (ev : Event) : (State.offer s e ev).hif = s.hif := by unfold State.offer; dsimp only; (repeat' split) <;> simp
@[simp] theorem State.offer_denyNotice (s : State) (e : Nat) (ev : Event) : (State.offer s e ev).denyNotice = s.denyNotice := by unfold State.offer; dsimp only; (repeat' split) <;> simp
@[simp] theorem State.offer_fe (s : State) (e : Nat) (ev : Event) : (State.offer s e ev).fe = s.fe := by unfold State.offer; dsimp only; (repeat' split) <;> simp
@[simp] theorem State.offer_crb (s : State) (e : Nat) (ev : Event) : (State.offer s e ev).crb = s.crb := by unfold State.offer; dsimp only; (repeat' split) <;> simp
@[simp] theorem State.offer_tdm (s : State) (e : Nat) (ev : Event) : (State.offer s e ev).tdm = s.tdm := by unfold State.offer; dsimp only; (repeat' split) <;> simp
@[simp] theorem State.offer_mem (s : State) (e : Nat) (ev : Event) : (State.offer s e ev).mem = s.mem := by unfold State.offer; dsimp only; (repeat' split) <;> simp
@[simp] theorem State.offer_tkr (s : State) (e : Nat) (ev : Event) : (State.offer s e ev).tkr = s.tkr := by unfold State.offer; dsimp only; (repeat' split) <;> simp
@[simp] theorem State.offer_tm (s : State) (e : Nat) (ev : Event) : (State.offer s e ev).tm = s.tm := by unfold State.offer; dsimp only; (repeat' split) <;> simp
@[simp] theorem State.offer_drv (s : State) (e : Nat) (ev : Event) : (State.offer s e ev).drv = s.drv := by unfold State.offer; dsimp only; (repeat' split) <;> simp
@[simp] theorem State.offer_php (s : State) (e : Nat) (ev : Event) : (State.offer s e ev).php = s.php := by unfold State.offer; dsimp only; (repeat' split) <;> simp
@[simp] theorem State.offer_tlm (s : State) (e : Nat) (ev : Event) : (State.offer s e ev).tlm = s.tlm := by unfold State.offer; dsimp only; (repeat' split) <;> simp
@[simp] theorem State.offer_mtr (s : State) (e : Nat) (ev : Event) : (State.offer s e ev).mtr = s.mtr := by unfold State.offer; dsimp only; (repeat' split) <;> simp
@[simp] theorem State.offer_far (s : State) (e : Nat) (ev : Event) : (State.offer s e ev).far = s.far := by unfold State.offer; dsimp only; (repeat' split) <;> simp
@[simp] theorem State.offer_nor (s : State) (e : Nat) (ev : Event) : (State.offer s e ev).nor = s.nor := by unfold State.offer; dsimp only; (repeat' split) <;> simp
@[simp] theorem State.offer_img (s : State) (e : Nat) (ev : Event) : (State.offer s e ev).img = s.img := by unfold State.offer; dsimp only; (repeat' split) <;> simp
@[simp] theorem State.offer_pwr (s : State) (e : Nat) (ev : Event) : (State.offer s e ev).pwr = s.pwr := by unfold State.offer; dsimp only; (repeat' split) <;> simp
@[simp] theorem State.offer_test (s : State) (e : Nat) (ev : Event) : (State.offer s e ev).test = s.test := by unfold State.offer; dsimp only; (repeat' split) <;> simp
@[simp] theorem State.offer_shu (s : State) (e : Nat) (ev : Event) : (State.offer s e ev).shu = s.shu := by unfold State.offer; dsimp only; (repeat' split) <;> simp
@[simp] theorem State.offer_drawn (s : State) (e : Nat) (ev : Event) : (State.offer s e ev).drawn = s.drawn := by unfold State.offer; dsimp only; (repeat' split) <;> simp
@[simp] theorem State.offer_out (s : State) (e : Nat) (ev : Event) : (State.offer s e ev).out = s.out := by unfold State.offer; dsimp only; (repeat' split) <;> simp
@[simp] theorem State.offer_pending (s : State) (e : Nat) (ev : Event) : (State.offer s e ev).pending = s.pending := by unfold State.offer; dsimp only; (repeat' split) <;> simp
@[simp] theorem State.removeHead_regs (s : State) (e : Nat) : (State.removeHead s e).regs = s.regs := by unfold State.removeHead; dsimp only; (repeat' split) <;> simp
@[simp] theorem State.removeHead_readLatch (s : State) (e : Nat) : (State.removeHead s e).readLatch = s.readLatch := by unfold State.removeHead; dsimp only; (repeat' split) <;> simp
@[simp] theorem State.removeHead_writeLatch (s : State) (e : Nat) : (State.removeHead s e).writeLatch = s.writeLatch := by unfold State.removeHead; dsimp only; (repeat' split) <;> simp
@[simp] theorem State.removeHead_timeLatch (s : State) (e : Nat) : (State.removeHead s e).timeLatch = s.timeLatch := by unfold State.removeHead; dsimp only; (repeat' split) <;> simp
@[simp] theorem State.removeHead_staged (s : State) (e : Nat) : (State.removeHead s e).staged = s.staged := by unfold State.removeHead; dsimp only; (repeat' split) <;> simp
@[simp] theorem State.removeHead_tb (s : State) (e : Nat) : (State.removeHead s e).tb = s.tb := by unfold State.removeHead; dsimp only; (repeat' split) <;> simp
@[simp] theorem State.removeHead_tick (s : State) (e : Nat) : (State.removeHead s e).tick = s.tick := by unfold State.removeHead; dsimp only; (repeat' split) <;> simp
@[simp] theorem State.removeHead_hif (s : State) (e : Nat) : (State.removeHead s e).hif = s.hif := by unfold State.removeHead; dsimp only; (repeat' split) <;> simp
@[simp] theorem State.removeHead_denyNotice (s : State) (e : Nat) : (State.removeHead s e).denyNotice = s.denyNotice := by unfold State.removeHead; dsimp only; (repeat' split) <;> simp
@[simp] theorem State.removeHead_fe (s : State) (e : Nat) : (State.removeHead s e).fe = s.fe := by unfold State.removeHead; dsimp only; (repeat' split) <;> simp
@[simp] theorem State.removeHead_crb (s : State) (e : Nat) : (State.removeHead s e).crb = s.crb := by unfold State.removeHead; dsimp only; (repeat' split) <;> simp
@[simp] theorem State.removeHead_tdm (s : State) (e : Nat) : (State.removeHead s e).tdm = s.tdm := by unfold State.removeHead; dsimp only; (repeat' split) <;> simp
@[simp] theorem State.removeHead_mem (s : State) (e : Nat) : (State.removeHead s e).mem = s.mem := by unfold State.removeHead; dsimp only; (repeat' split) <;> simp
@[simp] theorem State.removeHead_tkr (s : State) (e : Nat) : (State.removeHead s e).tkr = s.tkr := by unfold State.removeHead; dsimp only; (repeat' split) <;> simp
@[simp] theorem State.removeHead_tm (s : State) (e : Nat) : (State.removeHead s e).tm = s.tm := by unfold State.removeHead; dsimp only; (repeat' split) <;> simp
@[simp] theorem State.removeHead_drv (s : State) (e : Nat) : (State.removeHead s e).drv = s.drv := by unfold State.removeHead; dsimp only; (repeat' split) <;> simp
@[simp] theorem State.removeHead_php (s : State) (e : Nat) : (State.removeHead s e).php = s.php := by unfold State.removeHead; dsimp only; (repeat' split) <;> simp
@[simp] theorem State.removeHead_tlm (s : State) (e : Nat) : (State.removeHead s e).tlm = s.tlm := by unfold State.removeHead; dsimp only; (repeat' split) <;> simp
@[simp] theorem State.removeHead_mtr (s : State) (e : Nat) : (State.removeHead s e).mtr = s.mtr := by unfold State.removeHead; dsimp only; (repeat' split) <;> simp
@[simp] theorem State.removeHead_far (s : State) (e : Nat) : (State.removeHead s e).far = s.far := by unfold State.removeHead; dsimp only; (repeat' split) <;> simp
@[simp] theorem State.removeHead_nor (s : State) (e : Nat) : (State.removeHead s e).nor = s.nor := by unfold State.removeHead; dsimp only; (repeat' split) <;> simp
@[simp] theorem State.removeHead_img (s : State) (e : Nat) : (State.removeHead s e).img = s.img := by unfold State.removeHead; dsimp only; (repeat' split) <;> simp
@[simp] theorem State.removeHead_pwr (s : State) (e : Nat) : (State.removeHead s e).pwr = s.pwr := by unfold State.removeHead; dsimp only; (repeat' split) <;> simp
@[simp] theorem State.removeHead_test (s : State) (e : Nat) : (State.removeHead s e).test = s.test := by unfold State.removeHead; dsimp only; (repeat' split) <;> simp
@[simp] theorem State.removeHead_shu (s : State) (e : Nat) : (State.removeHead s e).shu = s.shu := by unfold State.removeHead; dsimp only; (repeat' split) <;> simp
@[simp] theorem State.removeHead_drawn (s : State) (e : Nat) : (State.removeHead s e).drawn = s.drawn := by unfold State.removeHead; dsimp only; (repeat' split) <;> simp
@[simp] theorem State.removeHead_out (s : State) (e : Nat) : (State.removeHead s e).out = s.out := by unfold State.removeHead; dsimp only; (repeat' split) <;> simp
@[simp] theorem State.removeHead_pending (s : State) (e : Nat) : (State.removeHead s e).pending = s.pending := by unfold State.removeHead; dsimp only; (repeat' split) <;> simp
@[simp] theorem State.post_readLatch (s : State) (ev : Event) : (State.post s ev).readLatch = s.readLatch := by unfold State.post; dsimp only; split <;> simp
@[simp] theorem State.post_writeLatch (s : State) (ev : Event) : (State.post s ev).writeLatch = s.writeLatch := by unfold State.post; dsimp only; split <;> simp
@[simp] theorem State.post_timeLatch (s : State) (ev : Event) : (State.post s ev).timeLatch = s.timeLatch := by unfold State.post; dsimp only; split <;> simp
@[simp] theorem State.post_staged (s : State) (ev : Event) : (State.post s ev).staged = s.staged := by unfold State.post; dsimp only; split <;> simp
@[simp] theorem State.post_tb (s : State) (ev : Event) : (State.post s ev).tb = s.tb := by unfold State.post; dsimp only; split <;> simp
@[simp] theorem State.post_tick (s : State) (ev : Event) : (State.post s ev).tick = s.tick := by unfold State.post; dsimp only; split <;> simp
@[simp] theorem State.post_hif (s : State) (ev : Event) : (State.post s ev).hif = s.hif := by unfold State.post; dsimp only; split <;> simp
@[simp] theorem State.post_denyNotice (s : State) (ev : Event) : (State.post s ev).denyNotice = s.denyNotice := by unfold State.post; dsimp only; split <;> simp
@[simp] theorem State.post_fe (s : State) (ev : Event) : (State.post s ev).fe = s.fe := by unfold State.post; dsimp only; split <;> simp
@[simp] theorem State.post_crb (s : State) (ev : Event) : (State.post s ev).crb = s.crb := by unfold State.post; dsimp only; split <;> simp
@[simp] theorem State.post_tdm (s : State) (ev : Event) : (State.post s ev).tdm = s.tdm := by unfold State.post; dsimp only; split <;> simp
@[simp] theorem State.post_mem (s : State) (ev : Event) : (State.post s ev).mem = s.mem := by unfold State.post; dsimp only; split <;> simp
@[simp] theorem State.post_tkr (s : State) (ev : Event) : (State.post s ev).tkr = s.tkr := by unfold State.post; dsimp only; split <;> simp
@[simp] theorem State.post_tm (s : State) (ev : Event) : (State.post s ev).tm = s.tm := by unfold State.post; dsimp only; split <;> simp
@[simp] theorem State.post_drv (s : State) (ev : Event) : (State.post s ev).drv = s.drv := by unfold State.post; dsimp only; split <;> simp
@[simp] theorem State.post_php (s : State) (ev : Event) : (State.post s ev).php = s.php := by unfold State.post; dsimp only; split <;> simp
@[simp] theorem State.post_tlm (s : State) (ev : Event) : (State.post s ev).tlm = s.tlm := by unfold State.post; dsimp only; split <;> simp
@[simp] theorem State.post_mtr (s : State) (ev : Event) : (State.post s ev).mtr = s.mtr := by unfold State.post; dsimp only; split <;> simp
@[simp] theorem State.post_far (s : State) (ev : Event) : (State.post s ev).far = s.far := by unfold State.post; dsimp only; split <;> simp
@[simp] theorem State.post_nor (s : State) (ev : Event) : (State.post s ev).nor = s.nor := by unfold State.post; dsimp only; split <;> simp
@[simp] theorem State.post_img (s : State) (ev : Event) : (State.post s ev).img = s.img := by unfold State.post; dsimp only; split <;> simp
@[simp] theorem State.post_pwr (s : State) (ev : Event) : (State.post s ev).pwr = s.pwr := by unfold State.post; dsimp only; split <;> simp
@[simp] theorem State.post_test (s : State) (ev : Event) : (State.post s ev).test = s.test := by unfold State.post; dsimp only; split <;> simp
@[simp] theorem State.post_shu (s : State) (ev : Event) : (State.post s ev).shu = s.shu := by unfold State.post; dsimp only; split <;> simp
@[simp] theorem State.post_drawn (s : State) (ev : Event) : (State.post s ev).drawn = s.drawn := by unfold State.post; dsimp only; split <;> simp
@[simp] theorem State.post_out (s : State) (ev : Event) : (State.post s ev).out = s.out := by unfold State.post; dsimp only; split <;> simp
@[simp] theorem State.post_pending (s : State) (ev : Event) : (State.post s ev).pending = s.pending := by unfold State.post; dsimp only; split <;> simp
@[simp] theorem State.postNow_readLatch (s : State) (typ kind idx : Nat) (fs : List (Nat × Nat × Nat)) : (State.postNow s typ kind idx fs).readLatch = s.readLatch := by unfold State.postNow; simp
@[simp] theorem State.postNow_writeLatch (s : State) (typ kind idx : Nat) (fs : List (Nat × Nat × Nat)) : (State.postNow s typ kind idx fs).writeLatch = s.writeLatch := by unfold State.postNow; simp
@[simp] theorem State.postNow_timeLatch (s : State) (typ kind idx : Nat) (fs : List (Nat × Nat × Nat)) : (State.postNow s typ kind idx fs).timeLatch = s.timeLatch := by unfold State.postNow; simp
@[simp] theorem State.postNow_staged (s : State) (typ kind idx : Nat) (fs : List (Nat × Nat × Nat)) : (State.postNow s typ kind idx fs).staged = s.staged := by unfold State.postNow; simp
@[simp] theorem State.postNow_tb (s : State) (typ kind idx : Nat) (fs : List (Nat × Nat × Nat)) : (State.postNow s typ kind idx fs).tb = s.tb := by unfold State.postNow; simp
@[simp] theorem State.postNow_tick (s : State) (typ kind idx : Nat) (fs : List (Nat × Nat × Nat)) : (State.postNow s typ kind idx fs).tick = s.tick := by unfold State.postNow; simp
@[simp] theorem State.postNow_hif (s : State) (typ kind idx : Nat) (fs : List (Nat × Nat × Nat)) : (State.postNow s typ kind idx fs).hif = s.hif := by unfold State.postNow; simp
@[simp] theorem State.postNow_denyNotice (s : State) (typ kind idx : Nat) (fs : List (Nat × Nat × Nat)) : (State.postNow s typ kind idx fs).denyNotice = s.denyNotice := by unfold State.postNow; simp
@[simp] theorem State.postNow_fe (s : State) (typ kind idx : Nat) (fs : List (Nat × Nat × Nat)) : (State.postNow s typ kind idx fs).fe = s.fe := by unfold State.postNow; simp
@[simp] theorem State.postNow_crb (s : State) (typ kind idx : Nat) (fs : List (Nat × Nat × Nat)) : (State.postNow s typ kind idx fs).crb = s.crb := by unfold State.postNow; simp
@[simp] theorem State.postNow_tdm (s : State) (typ kind idx : Nat) (fs : List (Nat × Nat × Nat)) : (State.postNow s typ kind idx fs).tdm = s.tdm := by unfold State.postNow; simp
@[simp] theorem State.postNow_mem (s : State) (typ kind idx : Nat) (fs : List (Nat × Nat × Nat)) : (State.postNow s typ kind idx fs).mem = s.mem := by unfold State.postNow; simp
@[simp] theorem State.postNow_tkr (s : State) (typ kind idx : Nat) (fs : List (Nat × Nat × Nat)) : (State.postNow s typ kind idx fs).tkr = s.tkr := by unfold State.postNow; simp
@[simp] theorem State.postNow_tm (s : State) (typ kind idx : Nat) (fs : List (Nat × Nat × Nat)) : (State.postNow s typ kind idx fs).tm = s.tm := by unfold State.postNow; simp
@[simp] theorem State.postNow_drv (s : State) (typ kind idx : Nat) (fs : List (Nat × Nat × Nat)) : (State.postNow s typ kind idx fs).drv = s.drv := by unfold State.postNow; simp
@[simp] theorem State.postNow_php (s : State) (typ kind idx : Nat) (fs : List (Nat × Nat × Nat)) : (State.postNow s typ kind idx fs).php = s.php := by unfold State.postNow; simp
@[simp] theorem State.postNow_tlm (s : State) (typ kind idx : Nat) (fs : List (Nat × Nat × Nat)) : (State.postNow s typ kind idx fs).tlm = s.tlm := by unfold State.postNow; simp
@[simp] theorem State.postNow_mtr (s : State) (typ kind idx : Nat) (fs : List (Nat × Nat × Nat)) : (State.postNow s typ kind idx fs).mtr = s.mtr := by unfold State.postNow; simp
@[simp] theorem State.postNow_far (s : State) (typ kind idx : Nat) (fs : List (Nat × Nat × Nat)) : (State.postNow s typ kind idx fs).far = s.far := by unfold State.postNow; simp
@[simp] theorem State.postNow_nor (s : State) (typ kind idx : Nat) (fs : List (Nat × Nat × Nat)) : (State.postNow s typ kind idx fs).nor = s.nor := by unfold State.postNow; simp
@[simp] theorem State.postNow_img (s : State) (typ kind idx : Nat) (fs : List (Nat × Nat × Nat)) : (State.postNow s typ kind idx fs).img = s.img := by unfold State.postNow; simp
@[simp] theorem State.postNow_pwr (s : State) (typ kind idx : Nat) (fs : List (Nat × Nat × Nat)) : (State.postNow s typ kind idx fs).pwr = s.pwr := by unfold State.postNow; simp
@[simp] theorem State.postNow_test (s : State) (typ kind idx : Nat) (fs : List (Nat × Nat × Nat)) : (State.postNow s typ kind idx fs).test = s.test := by unfold State.postNow; simp
@[simp] theorem State.postNow_shu (s : State) (typ kind idx : Nat) (fs : List (Nat × Nat × Nat)) : (State.postNow s typ kind idx fs).shu = s.shu := by unfold State.postNow; simp
@[simp] theorem State.postNow_drawn (s : State) (typ kind idx : Nat) (fs : List (Nat × Nat × Nat)) : (State.postNow s typ kind idx fs).drawn = s.drawn := by unfold State.postNow; simp
@[simp] theorem State.postNow_out (s : State) (typ kind idx : Nat) (fs : List (Nat × Nat × Nat)) : (State.postNow s typ kind idx fs).out = s.out := by unfold State.postNow; simp
@[simp] theorem State.postNow_pending (s : State) (typ kind idx : Nat) (fs : List (Nat × Nat × Nat)) : (State.postNow s typ kind idx fs).pending = s.pending := by unfold State.postNow; simp
@[simp] theorem State.sendVec_regs (s : State) (v : Nat) : (State.sendVec s v).regs = s.regs := by rfl
@[simp] theorem State.sendVec_readLatch (s : State) (v : Nat) : (State.sendVec s v).readLatch = s.readLatch := by rfl
@[simp] theorem State.sendVec_writeLatch (s : State) (v : Nat) : (State.sendVec s v).writeLatch = s.writeLatch := by rfl
@[simp] theorem State.sendVec_timeLatch (s : State) (v : Nat) : (State.sendVec s v).timeLatch = s.timeLatch := by rfl
@[simp] theorem State.sendVec_staged (s : State) (v : Nat) : (State.sendVec s v).staged = s.staged := by rfl
@[simp] theorem State.sendVec_tb (s : State) (v : Nat) : (State.sendVec s v).tb = s.tb := by rfl
@[simp] theorem State.sendVec_tick (s : State) (v : Nat) : (State.sendVec s v).tick = s.tick := by rfl
@[simp] theorem State.sendVec_hif (s : State) (v : Nat) : (State.sendVec s v).hif = s.hif := by rfl
@[simp] theorem State.sendVec_evq (s : State) (v : Nat) : (State.sendVec s v).evq = s.evq := by rfl
@[simp] theorem State.sendVec_denyNotice (s : State) (v : Nat) : (State.sendVec s v).denyNotice = s.denyNotice := by rfl
@[simp] theorem State.sendVec_fe (s : State) (v : Nat) : (State.sendVec s v).fe = s.fe := by rfl
@[simp] theorem State.sendVec_crb (s : State) (v : Nat) : (State.sendVec s v).crb = s.crb := by rfl
@[simp] theorem State.sendVec_tdm (s : State) (v : Nat) : (State.sendVec s v).tdm = s.tdm := by rfl
@[simp] theorem State.sendVec_mem (s : State) (v : Nat) : (State.sendVec s v).mem = s.mem := by rfl
@[simp] theorem State.sendVec_tkr (s : State) (v : Nat) : (State.sendVec s v).tkr = s.tkr := by rfl
@[simp] theorem State.sendVec_tm (s : State) (v : Nat) : (State.sendVec s v).tm = s.tm := by rfl
@[simp] theorem State.sendVec_drv (s : State) (v : Nat) : (State.sendVec s v).drv = s.drv := by rfl
@[simp] theorem State.sendVec_php (s : State) (v : Nat) : (State.sendVec s v).php = s.php := by rfl
@[simp] theorem State.sendVec_tlm (s : State) (v : Nat) : (State.sendVec s v).tlm = s.tlm := by rfl
@[simp] theorem State.sendVec_mtr (s : State) (v : Nat) : (State.sendVec s v).mtr = s.mtr := by rfl
@[simp] theorem State.sendVec_far (s : State) (v : Nat) : (State.sendVec s v).far = s.far := by rfl
@[simp] theorem State.sendVec_nor (s : State) (v : Nat) : (State.sendVec s v).nor = s.nor := by rfl
@[simp] theorem State.sendVec_img (s : State) (v : Nat) : (State.sendVec s v).img = s.img := by rfl
@[simp] theorem State.sendVec_pwr (s : State) (v : Nat) : (State.sendVec s v).pwr = s.pwr := by rfl
@[simp] theorem State.sendVec_test (s : State) (v : Nat) : (State.sendVec s v).test = s.test := by rfl
@[simp] theorem State.sendVec_shu (s : State) (v : Nat) : (State.sendVec s v).shu = s.shu := by rfl
@[simp] theorem State.sendVec_drawn (s : State) (v : Nat) : (State.sendVec s v).drawn = s.drawn := by rfl
@[simp] theorem State.sendVec_pending (s : State) (v : Nat) : (State.sendVec s v).pending = s.pending := by rfl
@[simp] theorem State.signal_regs (s : State) (f v : Nat) : (State.signal s f v).regs = s.regs := by unfold State.signal; dsimp only; split <;> simp
@[simp] theorem State.signal_readLatch (s : State) (f v : Nat) : (State.signal s f v).readLatch = s.readLatch := by unfold State.signal; dsimp only; split <;> simp
@[simp] theorem State.signal_writeLatch (s : State) (f v : Nat) : (State.signal s f v).writeLatch = s.writeLatch := by unfold State.signal; dsimp only; split <;> simp
@[simp] theorem State.signal_timeLatch (s : State) (f v : Nat) : (State.signal s f v).timeLatch = s.timeLatch := by unfold State.signal; dsimp only; split <;> simp
@[simp] theorem State.signal_staged (s : State) (f v : Nat) : (State.signal s f v).staged = s.staged := by unfold State.signal; dsimp only; split <;> simp
@[simp] theorem State.signal_tb (s : State) (f v : Nat) : (State.signal s f v).tb = s.tb := by unfold State.signal; dsimp only; split <;> simp
@[simp] theorem State.signal_tick (s : State) (f v : Nat) : (State.signal s f v).tick = s.tick := by unfold State.signal; dsimp only; split <;> simp
@[simp] theorem State.signal_evq (s : State) (f v : Nat) : (State.signal s f v).evq = s.evq := by unfold State.signal; dsimp only; split <;> simp
@[simp] theorem State.signal_denyNotice (s : State) (f v : Nat) : (State.signal s f v).denyNotice = s.denyNotice := by unfold State.signal; dsimp only; split <;> simp
@[simp] theorem State.signal_fe (s : State) (f v : Nat) : (State.signal s f v).fe = s.fe := by unfold State.signal; dsimp only; split <;> simp
@[simp] theorem State.signal_crb (s : State) (f v : Nat) : (State.signal s f v).crb = s.crb := by unfold State.signal; dsimp only; split <;> simp
@[simp] theorem State.signal_tdm (s : State) (f v : Nat) : (State.signal s f v).tdm = s.tdm := by unfold State.signal; dsimp only; split <;> simp
@[simp] theorem State.signal_mem (s : State) (f v : Nat) : (State.signal s f v).mem = s.mem := by unfold State.signal; dsimp only; split <;> simp
@[simp] theorem State.signal_tkr (s : State) (f v : Nat) : (State.signal s f v).tkr = s.tkr := by unfold State.signal; dsimp only; split <;> simp
@[simp] theorem State.signal_tm (s : State) (f v : Nat) : (State.signal s f v).tm = s.tm := by unfold State.signal; dsimp only; split <;> simp
@[simp] theorem State.signal_drv (s : State) (f v : Nat) : (State.signal s f v).drv = s.drv := by unfold State.signal; dsimp only; split <;> simp
@[simp] theorem State.signal_php (s : State) (f v : Nat) : (State.signal s f v).php = s.php := by unfold State.signal; dsimp only; split <;> simp
@[simp] theorem State.signal_tlm (s : State) (f v : Nat) : (State.signal s f v).tlm = s.tlm := by unfold State.signal; dsimp only; split <;> simp
@[simp] theorem State.signal_mtr (s : State) (f v : Nat) : (State.signal s f v).mtr = s.mtr := by unfold State.signal; dsimp only; split <;> simp
@[simp] theorem State.signal_far (s : State) (f v : Nat) : (State.signal s f v).far = s.far := by unfold State.signal; dsimp only; split <;> simp
@[simp] theorem State.signal_nor (s : State) (f v : Nat) : (State.signal s f v).nor = s.nor := by unfold State.signal; dsimp only; split <;> simp
@[simp] theorem State.signal_img (s : State) (f v : Nat) : (State.signal s f v).img = s.img := by unfold State.signal; dsimp only; split <;> simp
@[simp] theorem State.signal_pwr (s : State) (f v : Nat) : (State.signal s f v).pwr = s.pwr := by unfold State.signal; dsimp only; split <;> simp
@[simp] theorem State.signal_test (s : State) (f v : Nat) : (State.signal s f v).test = s.test := by unfold State.signal; dsimp only; split <;> simp
@[simp] theorem State.signal_shu (s : State) (f v : Nat) : (State.signal s f v).shu = s.shu := by unfold State.signal; dsimp only; split <;> simp
@[simp] theorem State.signal_drawn (s : State) (f v : Nat) : (State.signal s f v).drawn = s.drawn := by unfold State.signal; dsimp only; split <;> simp
@[simp] theorem State.signal_out (s : State) (f v : Nat) : (State.signal s f v).out = s.out := by unfold State.signal; dsimp only; split <;> simp
@[simp] theorem State.signal_pending (s : State) (f v : Nat) : (State.signal s f v).pending = s.pending := by unfold State.signal; dsimp only; split <;> simp
@[simp] theorem State.denyEvent_readLatch (s : State) (i b : Nat) : (State.denyEvent s i b).readLatch = s.readLatch := by unfold State.denyEvent; dsimp only; (repeat' split) <;> simp
@[simp] theorem State.denyEvent_writeLatch (s : State) (i b : Nat) : (State.denyEvent s i b).writeLatch = s.writeLatch := by unfold State.denyEvent; dsimp only; (repeat' split) <;> simp
@[simp] theorem State.denyEvent_timeLatch (s : State) (i b : Nat) : (State.denyEvent s i b).timeLatch = s.timeLatch := by unfold State.denyEvent; dsimp only; (repeat' split) <;> simp
@[simp] theorem State.denyEvent_staged (s : State) (i b : Nat) : (State.denyEvent s i b).staged = s.staged := by unfold State.denyEvent; dsimp only; (repeat' split) <;> simp
@[simp] theorem State.denyEvent_tb (s : State) (i b : Nat) : (State.denyEvent s i b).tb = s.tb := by unfold State.denyEvent; dsimp only; (repeat' split) <;> simp
@[simp] theorem State.denyEvent_tick (s : State) (i b : Nat) : (State.denyEvent s i b).tick = s.tick := by unfold State.denyEvent; dsimp only; (repeat' split) <;> simp
@[simp] theorem State.denyEvent_hif (s : State) (i b : Nat) : (State.denyEvent s i b).hif = s.hif := by unfold State.denyEvent; dsimp only; (repeat' split) <;> simp
@[simp] theorem State.denyEvent_fe (s : State) (i b : Nat) : (State.denyEvent s i b).fe = s.fe := by unfold State.denyEvent; dsimp only; (repeat' split) <;> simp
@[simp] theorem State.denyEvent_crb (s : State) (i b : Nat) : (State.denyEvent s i b).crb = s.crb := by unfold State.denyEvent; dsimp only; (repeat' split) <;> simp
@[simp] theorem State.denyEvent_tdm (s : State) (i b : Nat) : (State.denyEvent s i b).tdm = s.tdm := by unfold State.denyEvent; dsimp only; (repeat' split) <;> simp
@[simp] theorem State.denyEvent_mem (s : State) (i b : Nat) : (State.denyEvent s i b).mem = s.mem := by unfold State.denyEvent; dsimp only; (repeat' split) <;> simp
@[simp] theorem State.denyEvent_tkr (s : State) (i b : Nat) : (State.denyEvent s i b).tkr = s.tkr := by unfold State.denyEvent; dsimp only; (repeat' split) <;> simp
@[simp] theorem State.denyEvent_tm (s : State) (i b : Nat) : (State.denyEvent s i b).tm = s.tm := by unfold State.denyEvent; dsimp only; (repeat' split) <;> simp
@[simp] theorem State.denyEvent_drv (s : State) (i b : Nat) : (State.denyEvent s i b).drv = s.drv := by unfold State.denyEvent; dsimp only; (repeat' split) <;> simp
@[simp] theorem State.denyEvent_php (s : State) (i b : Nat) : (State.denyEvent s i b).php = s.php := by unfold State.denyEvent; dsimp only; (repeat' split) <;> simp
@[simp] theorem State.denyEvent_tlm (s : State) (i b : Nat) : (State.denyEvent s i b).tlm = s.tlm := by unfold State.denyEvent; dsimp only; (repeat' split) <;> simp
@[simp] theorem State.denyEvent_mtr (s : State) (i b : Nat) : (State.denyEvent s i b).mtr = s.mtr := by unfold State.denyEvent; dsimp only; (repeat' split) <;> simp
@[simp] theorem State.denyEvent_far (s : State) (i b : Nat) : (State.denyEvent s i b).far = s.far := by unfold State.denyEvent; dsimp only; (repeat' split) <;> simp
@[simp] theorem State.denyEvent_nor (s : State) (i b : Nat) : (State.denyEvent s i b).nor = s.nor := by unfold State.denyEvent; dsimp only; (repeat' split) <;> simp
@[simp] theorem State.denyEvent_img (s : State) (i b : Nat) : (State.denyEvent s i b).img = s.img := by unfold State.denyEvent; dsimp only; (repeat' split) <;> simp
@[simp] theorem State.denyEvent_pwr (s : State) (i b : Nat) : (State.denyEvent s i b).pwr = s.pwr := by unfold State.denyEvent; dsimp only; (repeat' split) <;> simp
@[simp] theorem State.denyEvent_test (s : State) (i b : Nat) : (State.denyEvent s i b).test = s.test := by unfold State.denyEvent; dsimp only; (repeat' split) <;> simp
@[simp] theorem State.denyEvent_shu (s : State) (i b : Nat) : (State.denyEvent s i b).shu = s.shu := by unfold State.denyEvent; dsimp only; (repeat' split) <;> simp
@[simp] theorem State.denyEvent_drawn (s : State) (i b : Nat) : (State.denyEvent s i b).drawn = s.drawn := by unfold State.denyEvent; dsimp only; (repeat' split) <;> simp
@[simp] theorem State.denyEvent_out (s : State) (i b : Nat) : (State.denyEvent s i b).out = s.out := by unfold State.denyEvent; dsimp only; (repeat' split) <;> simp
@[simp] theorem State.denyEvent_pending (s : State) (i b : Nat) : (State.denyEvent s i b).pending = s.pending := by unfold State.denyEvent; dsimp only; (repeat' split) <;> simp
@[simp] theorem State.bridleDeny_readLatch (s : State) (i b : Nat) : (State.bridleDeny s i b).readLatch = s.readLatch := by unfold State.bridleDeny; simp
@[simp] theorem State.bridleDeny_writeLatch (s : State) (i b : Nat) : (State.bridleDeny s i b).writeLatch = s.writeLatch := by unfold State.bridleDeny; simp
@[simp] theorem State.bridleDeny_timeLatch (s : State) (i b : Nat) : (State.bridleDeny s i b).timeLatch = s.timeLatch := by unfold State.bridleDeny; simp
@[simp] theorem State.bridleDeny_staged (s : State) (i b : Nat) : (State.bridleDeny s i b).staged = s.staged := by unfold State.bridleDeny; simp
@[simp] theorem State.bridleDeny_tb (s : State) (i b : Nat) : (State.bridleDeny s i b).tb = s.tb := by unfold State.bridleDeny; simp
@[simp] theorem State.bridleDeny_tick (s : State) (i b : Nat) : (State.bridleDeny s i b).tick = s.tick := by unfold State.bridleDeny; simp
@[simp] theorem State.bridleDeny_hif (s : State) (i b : Nat) : (State.bridleDeny s i b).hif = s.hif := by unfold State.bridleDeny; simp
@[simp] theorem State.bridleDeny_fe (s : State) (i b : Nat) : (State.bridleDeny s i b).fe = s.fe := by unfold State.bridleDeny; simp
@[simp] theorem State.bridleDeny_crb (s : State) (i b : Nat) : (State.bridleDeny s i b).crb = s.crb := by unfold State.bridleDeny; simp
@[simp] theorem State.bridleDeny_tdm (s : State) (i b : Nat) : (State.bridleDeny s i b).tdm = s.tdm := by unfold State.bridleDeny; simp
@[simp] theorem State.bridleDeny_mem (s : State) (i b : Nat) : (State.bridleDeny s i b).mem = s.mem := by unfold State.bridleDeny; simp
@[simp] theorem State.bridleDeny_tkr (s : State) (i b : Nat) : (State.bridleDeny s i b).tkr = s.tkr := by unfold State.bridleDeny; simp
@[simp] theorem State.bridleDeny_tm (s : State) (i b : Nat) : (State.bridleDeny s i b).tm = s.tm := by unfold State.bridleDeny; simp
@[simp] theorem State.bridleDeny_drv (s : State) (i b : Nat) : (State.bridleDeny s i b).drv = s.drv := by unfold State.bridleDeny; simp
@[simp] theorem State.bridleDeny_php (s : State) (i b : Nat) : (State.bridleDeny s i b).php = s.php := by unfold State.bridleDeny; simp
@[simp] theorem State.bridleDeny_tlm (s : State) (i b : Nat) : (State.bridleDeny s i b).tlm = s.tlm := by unfold State.bridleDeny; simp
@[simp] theorem State.bridleDeny_mtr (s : State) (i b : Nat) : (State.bridleDeny s i b).mtr = s.mtr := by unfold State.bridleDeny; simp
@[simp] theorem State.bridleDeny_far (s : State) (i b : Nat) : (State.bridleDeny s i b).far = s.far := by unfold State.bridleDeny; simp
@[simp] theorem State.bridleDeny_nor (s : State) (i b : Nat) : (State.bridleDeny s i b).nor = s.nor := by unfold State.bridleDeny; simp
@[simp] theorem State.bridleDeny_img (s : State) (i b : Nat) : (State.bridleDeny s i b).img = s.img := by unfold State.bridleDeny; simp
@[simp] theorem State.bridleDeny_pwr (s : State) (i b : Nat) : (State.bridleDeny s i b).pwr = s.pwr := by unfold State.bridleDeny; simp
@[simp] theorem State.bridleDeny_test (s : State) (i b : Nat) : (State.bridleDeny s i b).test = s.test := by unfold State.bridleDeny; simp
@[simp] theorem State.bridleDeny_shu (s : State) (i b : Nat) : (State.bridleDeny s i b).shu = s.shu := by unfold State.bridleDeny; simp
@[simp] theorem State.bridleDeny_drawn (s : State) (i b : Nat) : (State.bridleDeny s i b).drawn = s.drawn := by unfold State.bridleDeny; simp
@[simp] theorem State.bridleDeny_out (s : State) (i b : Nat) : (State.bridleDeny s i b).out = s.out := by unfold State.bridleDeny; simp
@[simp] theorem State.bridleDeny_pending (s : State) (i b : Nat) : (State.bridleDeny s i b).pending = s.pending := by unfold State.bridleDeny; simp
@[simp] theorem State.setSlot_regs (s : State) (i : Nat) (x : KeySlot) : (State.setSlot s i x).regs = s.regs := by rfl
@[simp] theorem State.setSlot_readLatch (s : State) (i : Nat) (x : KeySlot) : (State.setSlot s i x).readLatch = s.readLatch := by rfl
@[simp] theorem State.setSlot_writeLatch (s : State) (i : Nat) (x : KeySlot) : (State.setSlot s i x).writeLatch = s.writeLatch := by rfl
@[simp] theorem State.setSlot_timeLatch (s : State) (i : Nat) (x : KeySlot) : (State.setSlot s i x).timeLatch = s.timeLatch := by rfl
@[simp] theorem State.setSlot_staged (s : State) (i : Nat) (x : KeySlot) : (State.setSlot s i x).staged = s.staged := by rfl
@[simp] theorem State.setSlot_tb (s : State) (i : Nat) (x : KeySlot) : (State.setSlot s i x).tb = s.tb := by rfl
@[simp] theorem State.setSlot_tick (s : State) (i : Nat) (x : KeySlot) : (State.setSlot s i x).tick = s.tick := by rfl
@[simp] theorem State.setSlot_hif (s : State) (i : Nat) (x : KeySlot) : (State.setSlot s i x).hif = s.hif := by rfl
@[simp] theorem State.setSlot_evq (s : State) (i : Nat) (x : KeySlot) : (State.setSlot s i x).evq = s.evq := by rfl
@[simp] theorem State.setSlot_denyNotice (s : State) (i : Nat) (x : KeySlot) : (State.setSlot s i x).denyNotice = s.denyNotice := by rfl
@[simp] theorem State.setSlot_fe (s : State) (i : Nat) (x : KeySlot) : (State.setSlot s i x).fe = s.fe := by rfl
@[simp] theorem State.setSlot_crb (s : State) (i : Nat) (x : KeySlot) : (State.setSlot s i x).crb = s.crb := by rfl
@[simp] theorem State.setSlot_tdm (s : State) (i : Nat) (x : KeySlot) : (State.setSlot s i x).tdm = s.tdm := by rfl
@[simp] theorem State.setSlot_mem (s : State) (i : Nat) (x : KeySlot) : (State.setSlot s i x).mem = s.mem := by rfl
@[simp] theorem State.setSlot_tm (s : State) (i : Nat) (x : KeySlot) : (State.setSlot s i x).tm = s.tm := by rfl
@[simp] theorem State.setSlot_drv (s : State) (i : Nat) (x : KeySlot) : (State.setSlot s i x).drv = s.drv := by rfl
@[simp] theorem State.setSlot_php (s : State) (i : Nat) (x : KeySlot) : (State.setSlot s i x).php = s.php := by rfl
@[simp] theorem State.setSlot_tlm (s : State) (i : Nat) (x : KeySlot) : (State.setSlot s i x).tlm = s.tlm := by rfl
@[simp] theorem State.setSlot_mtr (s : State) (i : Nat) (x : KeySlot) : (State.setSlot s i x).mtr = s.mtr := by rfl
@[simp] theorem State.setSlot_far (s : State) (i : Nat) (x : KeySlot) : (State.setSlot s i x).far = s.far := by rfl
@[simp] theorem State.setSlot_nor (s : State) (i : Nat) (x : KeySlot) : (State.setSlot s i x).nor = s.nor := by rfl
@[simp] theorem State.setSlot_img (s : State) (i : Nat) (x : KeySlot) : (State.setSlot s i x).img = s.img := by rfl
@[simp] theorem State.setSlot_pwr (s : State) (i : Nat) (x : KeySlot) : (State.setSlot s i x).pwr = s.pwr := by rfl
@[simp] theorem State.setSlot_test (s : State) (i : Nat) (x : KeySlot) : (State.setSlot s i x).test = s.test := by rfl
@[simp] theorem State.setSlot_shu (s : State) (i : Nat) (x : KeySlot) : (State.setSlot s i x).shu = s.shu := by rfl
@[simp] theorem State.setSlot_drawn (s : State) (i : Nat) (x : KeySlot) : (State.setSlot s i x).drawn = s.drawn := by rfl
@[simp] theorem State.setSlot_out (s : State) (i : Nat) (x : KeySlot) : (State.setSlot s i x).out = s.out := by rfl
@[simp] theorem State.setSlot_pending (s : State) (i : Nat) (x : KeySlot) : (State.setSlot s i x).pending = s.pending := by rfl
@[simp] theorem State.sendOn_regs (s : State) (k : Nat) (m : TdmMsg) : (State.sendOn s k m).regs = s.regs := by rfl
@[simp] theorem State.sendOn_readLatch (s : State) (k : Nat) (m : TdmMsg) : (State.sendOn s k m).readLatch = s.readLatch := by rfl
@[simp] theorem State.sendOn_writeLatch (s : State) (k : Nat) (m : TdmMsg) : (State.sendOn s k m).writeLatch = s.writeLatch := by rfl
@[simp] theorem State.sendOn_timeLatch (s : State) (k : Nat) (m : TdmMsg) : (State.sendOn s k m).timeLatch = s.timeLatch := by rfl
@[simp] theorem State.sendOn_staged (s : State) (k : Nat) (m : TdmMsg) : (State.sendOn s k m).staged = s.staged := by rfl
@[simp] theorem State.sendOn_tb (s : State) (k : Nat) (m : TdmMsg) : (State.sendOn s k m).tb = s.tb := by rfl
@[simp] theorem State.sendOn_tick (s : State) (k : Nat) (m : TdmMsg) : (State.sendOn s k m).tick = s.tick := by rfl
@[simp] theorem State.sendOn_hif (s : State) (k : Nat) (m : TdmMsg) : (State.sendOn s k m).hif = s.hif := by rfl
@[simp] theorem State.sendOn_evq (s : State) (k : Nat) (m : TdmMsg) : (State.sendOn s k m).evq = s.evq := by rfl
@[simp] theorem State.sendOn_denyNotice (s : State) (k : Nat) (m : TdmMsg) : (State.sendOn s k m).denyNotice = s.denyNotice := by rfl
@[simp] theorem State.sendOn_fe (s : State) (k : Nat) (m : TdmMsg) : (State.sendOn s k m).fe = s.fe := by rfl
@[simp] theorem State.sendOn_crb (s : State) (k : Nat) (m : TdmMsg) : (State.sendOn s k m).crb = s.crb := by rfl
@[simp] theorem State.sendOn_mem (s : State) (k : Nat) (m : TdmMsg) : (State.sendOn s k m).mem = s.mem := by rfl
@[simp] theorem State.sendOn_tkr (s : State) (k : Nat) (m : TdmMsg) : (State.sendOn s k m).tkr = s.tkr := by rfl
@[simp] theorem State.sendOn_tm (s : State) (k : Nat) (m : TdmMsg) : (State.sendOn s k m).tm = s.tm := by rfl
@[simp] theorem State.sendOn_drv (s : State) (k : Nat) (m : TdmMsg) : (State.sendOn s k m).drv = s.drv := by rfl
@[simp] theorem State.sendOn_php (s : State) (k : Nat) (m : TdmMsg) : (State.sendOn s k m).php = s.php := by rfl
@[simp] theorem State.sendOn_tlm (s : State) (k : Nat) (m : TdmMsg) : (State.sendOn s k m).tlm = s.tlm := by rfl
@[simp] theorem State.sendOn_mtr (s : State) (k : Nat) (m : TdmMsg) : (State.sendOn s k m).mtr = s.mtr := by rfl
@[simp] theorem State.sendOn_far (s : State) (k : Nat) (m : TdmMsg) : (State.sendOn s k m).far = s.far := by rfl
@[simp] theorem State.sendOn_nor (s : State) (k : Nat) (m : TdmMsg) : (State.sendOn s k m).nor = s.nor := by rfl
@[simp] theorem State.sendOn_img (s : State) (k : Nat) (m : TdmMsg) : (State.sendOn s k m).img = s.img := by rfl
@[simp] theorem State.sendOn_pwr (s : State) (k : Nat) (m : TdmMsg) : (State.sendOn s k m).pwr = s.pwr := by rfl
@[simp] theorem State.sendOn_test (s : State) (k : Nat) (m : TdmMsg) : (State.sendOn s k m).test = s.test := by rfl
@[simp] theorem State.sendOn_shu (s : State) (k : Nat) (m : TdmMsg) : (State.sendOn s k m).shu = s.shu := by rfl
@[simp] theorem State.sendOn_drawn (s : State) (k : Nat) (m : TdmMsg) : (State.sendOn s k m).drawn = s.drawn := by rfl
@[simp] theorem State.sendOn_pending (s : State) (k : Nat) (m : TdmMsg) : (State.sendOn s k m).pending = s.pending := by rfl
@[simp] theorem State.postTime_readLatch (s : State) (typ b16 b17 : Nat) : (State.postTime s typ b16 b17).readLatch = s.readLatch := by unfold State.postTime; simp
@[simp] theorem State.postTime_writeLatch (s : State) (typ b16 b17 : Nat) : (State.postTime s typ b16 b17).writeLatch = s.writeLatch := by unfold State.postTime; simp
@[simp] theorem State.postTime_timeLatch (s : State) (typ b16 b17 : Nat) : (State.postTime s typ b16 b17).timeLatch = s.timeLatch := by unfold State.postTime; simp
@[simp] theorem State.postTime_staged (s : State) (typ b16 b17 : Nat) : (State.postTime s typ b16 b17).staged = s.staged := by unfold State.postTime; simp
@[simp] theorem State.postTime_tb (s : State) (typ b16 b17 : Nat) : (State.postTime s typ b16 b17).tb = s.tb := by unfold State.postTime; simp
@[simp] theorem State.postTime_tick (s : State) (typ b16 b17 : Nat) : (State.postTime s typ b16 b17).tick = s.tick := by unfold State.postTime; simp
@[simp] theorem State.postTime_hif (s : State) (typ b16 b17 : Nat) : (State.postTime s typ b16 b17).hif = s.hif := by unfold State.postTime; simp
@[simp] theorem State.postTime_denyNotice (s : State) (typ b16 b17 : Nat) : (State.postTime s typ b16 b17).denyNotice = s.denyNotice := by unfold State.postTime; simp
@[simp] theorem State.postTime_fe (s : State) (typ b16 b17 : Nat) : (State.postTime s typ b16 b17).fe = s.fe := by unfold State.postTime; simp
@[simp] theorem State.postTime_crb (s : State) (typ b16 b17 : Nat) : (State.postTime s typ b16 b17).crb = s.crb := by unfold State.postTime; simp
@[simp] theorem State.postTime_tdm (s : State) (typ b16 b17 : Nat) : (State.postTime s typ b16 b17).tdm = s.tdm := by unfold State.postTime; simp
@[simp] theorem State.postTime_mem (s : State) (typ b16 b17 : Nat) : (State.postTime s typ b16 b17).mem = s.mem := by unfold State.postTime; simp
@[simp] theorem State.postTime_tkr (s : State) (typ b16 b17 : Nat) : (State.postTime s typ b16 b17).tkr = s.tkr := by unfold State.postTime; simp
@[simp] theorem State.postTime_tm (s : State) (typ b16 b17 : Nat) : (State.postTime s typ b16 b17).tm = s.tm := by unfold State.postTime; simp
@[simp] theorem State.postTime_drv (s : State) (typ b16 b17 : Nat) : (State.postTime s typ b16 b17).drv = s.drv := by unfold State.postTime; simp
@[simp] theorem State.postTime_php (s : State) (typ b16 b17 : Nat) : (State.postTime s typ b16 b17).php = s.php := by unfold State.postTime; simp
@[simp] theorem State.postTime_tlm (s : State) (typ b16 b17 : Nat) : (State.postTime s typ b16 b17).tlm = s.tlm := by unfold State.postTime; simp
@[simp] theorem State.postTime_mtr (s : State) (typ b16 b17 : Nat) : (State.postTime s typ b16 b17).mtr = s.mtr := by unfold State.postTime; simp
@[simp] theorem State.postTime_far (s : State) (typ b16 b17 : Nat) : (State.postTime s typ b16 b17).far = s.far := by unfold State.postTime; simp
@[simp] theorem State.postTime_nor (s : State) (typ b16 b17 : Nat) : (State.postTime s typ b16 b17).nor = s.nor := by unfold State.postTime; simp
@[simp] theorem State.postTime_img (s : State) (typ b16 b17 : Nat) : (State.postTime s typ b16 b17).img = s.img := by unfold State.postTime; simp
@[simp] theorem State.postTime_pwr (s : State) (typ b16 b17 : Nat) : (State.postTime s typ b16 b17).pwr = s.pwr := by unfold State.postTime; simp
@[simp] theorem State.postTime_test (s : State) (typ b16 b17 : Nat) : (State.postTime s typ b16 b17).test = s.test := by unfold State.postTime; simp
@[simp] theorem State.postTime_shu (s : State) (typ b16 b17 : Nat) : (State.postTime s typ b16 b17).shu = s.shu := by unfold State.postTime; simp
@[simp] theorem State.postTime_drawn (s : State) (typ b16 b17 : Nat) : (State.postTime s typ b16 b17).drawn = s.drawn := by unfold State.postTime; simp
@[simp] theorem State.postTime_out (s : State) (typ b16 b17 : Nat) : (State.postTime s typ b16 b17).out = s.out := by unfold State.postTime; simp
@[simp] theorem State.postTime_pending (s : State) (typ b16 b17 : Nat) : (State.postTime s typ b16 b17).pending = s.pending := by unfold State.postTime; simp
@[simp] theorem State.dropSlew_regs (s : State) : (State.dropSlew s).regs = s.regs := by rfl
@[simp] theorem State.dropSlew_readLatch (s : State) : (State.dropSlew s).readLatch = s.readLatch := by rfl
@[simp] theorem State.dropSlew_writeLatch (s : State) : (State.dropSlew s).writeLatch = s.writeLatch := by rfl
@[simp] theorem State.dropSlew_timeLatch (s : State) : (State.dropSlew s).timeLatch = s.timeLatch := by rfl
@[simp] theorem State.dropSlew_staged (s : State) : (State.dropSlew s).staged = s.staged := by rfl
@[simp] theorem State.dropSlew_tick (s : State) : (State.dropSlew s).tick = s.tick := by rfl
@[simp] theorem State.dropSlew_hif (s : State) : (State.dropSlew s).hif = s.hif := by rfl
@[simp] theorem State.dropSlew_evq (s : State) : (State.dropSlew s).evq = s.evq := by rfl
@[simp] theorem State.dropSlew_denyNotice (s : State) : (State.dropSlew s).denyNotice = s.denyNotice := by rfl
@[simp] theorem State.dropSlew_fe (s : State) : (State.dropSlew s).fe = s.fe := by rfl
@[simp] theorem State.dropSlew_crb (s : State) : (State.dropSlew s).crb = s.crb := by rfl
@[simp] theorem State.dropSlew_tdm (s : State) : (State.dropSlew s).tdm = s.tdm := by rfl
@[simp] theorem State.dropSlew_mem (s : State) : (State.dropSlew s).mem = s.mem := by rfl
@[simp] theorem State.dropSlew_tkr (s : State) : (State.dropSlew s).tkr = s.tkr := by rfl
@[simp] theorem State.dropSlew_tm (s : State) : (State.dropSlew s).tm = s.tm := by rfl
@[simp] theorem State.dropSlew_drv (s : State) : (State.dropSlew s).drv = s.drv := by rfl
@[simp] theorem State.dropSlew_php (s : State) : (State.dropSlew s).php = s.php := by rfl
@[simp] theorem State.dropSlew_tlm (s : State) : (State.dropSlew s).tlm = s.tlm := by rfl
@[simp] theorem State.dropSlew_mtr (s : State) : (State.dropSlew s).mtr = s.mtr := by rfl
@[simp] theorem State.dropSlew_far (s : State) : (State.dropSlew s).far = s.far := by rfl
@[simp] theorem State.dropSlew_nor (s : State) : (State.dropSlew s).nor = s.nor := by rfl
@[simp] theorem State.dropSlew_img (s : State) : (State.dropSlew s).img = s.img := by rfl
@[simp] theorem State.dropSlew_pwr (s : State) : (State.dropSlew s).pwr = s.pwr := by rfl
@[simp] theorem State.dropSlew_test (s : State) : (State.dropSlew s).test = s.test := by rfl
@[simp] theorem State.dropSlew_shu (s : State) : (State.dropSlew s).shu = s.shu := by rfl
@[simp] theorem State.dropSlew_drawn (s : State) : (State.dropSlew s).drawn = s.drawn := by rfl
@[simp] theorem State.dropSlew_out (s : State) : (State.dropSlew s).out = s.out := by rfl
@[simp] theorem State.dropSlew_pending (s : State) : (State.dropSlew s).pending = s.pending := by rfl
@[simp] theorem State.enterHoldover_readLatch (s : State) (cause : Nat) : (State.enterHoldover s cause).readLatch = s.readLatch := by unfold State.enterHoldover; dsimp only; split <;> simp
@[simp] theorem State.enterHoldover_writeLatch (s : State) (cause : Nat) : (State.enterHoldover s cause).writeLatch = s.writeLatch := by unfold State.enterHoldover; dsimp only; split <;> simp
@[simp] theorem State.enterHoldover_timeLatch (s : State) (cause : Nat) : (State.enterHoldover s cause).timeLatch = s.timeLatch := by unfold State.enterHoldover; dsimp only; split <;> simp
@[simp] theorem State.enterHoldover_staged (s : State) (cause : Nat) : (State.enterHoldover s cause).staged = s.staged := by unfold State.enterHoldover; dsimp only; split <;> simp
@[simp] theorem State.enterHoldover_tick (s : State) (cause : Nat) : (State.enterHoldover s cause).tick = s.tick := by unfold State.enterHoldover; dsimp only; split <;> simp
@[simp] theorem State.enterHoldover_hif (s : State) (cause : Nat) : (State.enterHoldover s cause).hif = s.hif := by unfold State.enterHoldover; dsimp only; split <;> simp
@[simp] theorem State.enterHoldover_denyNotice (s : State) (cause : Nat) : (State.enterHoldover s cause).denyNotice = s.denyNotice := by unfold State.enterHoldover; dsimp only; split <;> simp
@[simp] theorem State.enterHoldover_fe (s : State) (cause : Nat) : (State.enterHoldover s cause).fe = s.fe := by unfold State.enterHoldover; dsimp only; split <;> simp
@[simp] theorem State.enterHoldover_crb (s : State) (cause : Nat) : (State.enterHoldover s cause).crb = s.crb := by unfold State.enterHoldover; dsimp only; split <;> simp
@[simp] theorem State.enterHoldover_tdm (s : State) (cause : Nat) : (State.enterHoldover s cause).tdm = s.tdm := by unfold State.enterHoldover; dsimp only; split <;> simp
@[simp] theorem State.enterHoldover_mem (s : State) (cause : Nat) : (State.enterHoldover s cause).mem = s.mem := by unfold State.enterHoldover; dsimp only; split <;> simp
@[simp] theorem State.enterHoldover_tkr (s : State) (cause : Nat) : (State.enterHoldover s cause).tkr = s.tkr := by unfold State.enterHoldover; dsimp only; split <;> simp
@[simp] theorem State.enterHoldover_tm (s : State) (cause : Nat) : (State.enterHoldover s cause).tm = s.tm := by unfold State.enterHoldover; dsimp only; split <;> simp
@[simp] theorem State.enterHoldover_drv (s : State) (cause : Nat) : (State.enterHoldover s cause).drv = s.drv := by unfold State.enterHoldover; dsimp only; split <;> simp
@[simp] theorem State.enterHoldover_php (s : State) (cause : Nat) : (State.enterHoldover s cause).php = s.php := by unfold State.enterHoldover; dsimp only; split <;> simp
@[simp] theorem State.enterHoldover_tlm (s : State) (cause : Nat) : (State.enterHoldover s cause).tlm = s.tlm := by unfold State.enterHoldover; dsimp only; split <;> simp
@[simp] theorem State.enterHoldover_mtr (s : State) (cause : Nat) : (State.enterHoldover s cause).mtr = s.mtr := by unfold State.enterHoldover; dsimp only; split <;> simp
@[simp] theorem State.enterHoldover_far (s : State) (cause : Nat) : (State.enterHoldover s cause).far = s.far := by unfold State.enterHoldover; dsimp only; split <;> simp
@[simp] theorem State.enterHoldover_nor (s : State) (cause : Nat) : (State.enterHoldover s cause).nor = s.nor := by unfold State.enterHoldover; dsimp only; split <;> simp
@[simp] theorem State.enterHoldover_img (s : State) (cause : Nat) : (State.enterHoldover s cause).img = s.img := by unfold State.enterHoldover; dsimp only; split <;> simp
@[simp] theorem State.enterHoldover_pwr (s : State) (cause : Nat) : (State.enterHoldover s cause).pwr = s.pwr := by unfold State.enterHoldover; dsimp only; split <;> simp
@[simp] theorem State.enterHoldover_test (s : State) (cause : Nat) : (State.enterHoldover s cause).test = s.test := by unfold State.enterHoldover; dsimp only; split <;> simp
@[simp] theorem State.enterHoldover_shu (s : State) (cause : Nat) : (State.enterHoldover s cause).shu = s.shu := by unfold State.enterHoldover; dsimp only; split <;> simp
@[simp] theorem State.enterHoldover_drawn (s : State) (cause : Nat) : (State.enterHoldover s cause).drawn = s.drawn := by unfold State.enterHoldover; dsimp only; split <;> simp
@[simp] theorem State.enterHoldover_out (s : State) (cause : Nat) : (State.enterHoldover s cause).out = s.out := by unfold State.enterHoldover; dsimp only; split <;> simp
@[simp] theorem State.enterHoldover_pending (s : State) (cause : Nat) : (State.enterHoldover s cause).pending = s.pending := by unfold State.enterHoldover; dsimp only; split <;> simp
@[simp] theorem State.latchRegs_regs (s : State) (offs : List Nat) : (State.latchRegs s offs).regs = s.regs := by rfl
@[simp] theorem State.latchRegs_readLatch (s : State) (offs : List Nat) : (State.latchRegs s offs).readLatch = s.readLatch := by rfl
@[simp] theorem State.latchRegs_writeLatch (s : State) (offs : List Nat) : (State.latchRegs s offs).writeLatch = s.writeLatch := by rfl
@[simp] theorem State.latchRegs_staged (s : State) (offs : List Nat) : (State.latchRegs s offs).staged = s.staged := by rfl
@[simp] theorem State.latchRegs_tb (s : State) (offs : List Nat) : (State.latchRegs s offs).tb = s.tb := by rfl
@[simp] theorem State.latchRegs_tick (s : State) (offs : List Nat) : (State.latchRegs s offs).tick = s.tick := by rfl
@[simp] theorem State.latchRegs_hif (s : State) (offs : List Nat) : (State.latchRegs s offs).hif = s.hif := by rfl
@[simp] theorem State.latchRegs_evq (s : State) (offs : List Nat) : (State.latchRegs s offs).evq = s.evq := by rfl
@[simp] theorem State.latchRegs_denyNotice (s : State) (offs : List Nat) : (State.latchRegs s offs).denyNotice = s.denyNotice := by rfl
@[simp] theorem State.latchRegs_fe (s : State) (offs : List Nat) : (State.latchRegs s offs).fe = s.fe := by rfl
@[simp] theorem State.latchRegs_crb (s : State) (offs : List Nat) : (State.latchRegs s offs).crb = s.crb := by rfl
@[simp] theorem State.latchRegs_tdm (s : State) (offs : List Nat) : (State.latchRegs s offs).tdm = s.tdm := by rfl
@[simp] theorem State.latchRegs_mem (s : State) (offs : List Nat) : (State.latchRegs s offs).mem = s.mem := by rfl
@[simp] theorem State.latchRegs_tkr (s : State) (offs : List Nat) : (State.latchRegs s offs).tkr = s.tkr := by rfl
@[simp] theorem State.latchRegs_tm (s : State) (offs : List Nat) : (State.latchRegs s offs).tm = s.tm := by rfl
@[simp] theorem State.latchRegs_drv (s : State) (offs : List Nat) : (State.latchRegs s offs).drv = s.drv := by rfl
@[simp] theorem State.latchRegs_php (s : State) (offs : List Nat) : (State.latchRegs s offs).php = s.php := by rfl
@[simp] theorem State.latchRegs_tlm (s : State) (offs : List Nat) : (State.latchRegs s offs).tlm = s.tlm := by rfl
@[simp] theorem State.latchRegs_mtr (s : State) (offs : List Nat) : (State.latchRegs s offs).mtr = s.mtr := by rfl
@[simp] theorem State.latchRegs_far (s : State) (offs : List Nat) : (State.latchRegs s offs).far = s.far := by rfl
@[simp] theorem State.latchRegs_nor (s : State) (offs : List Nat) : (State.latchRegs s offs).nor = s.nor := by rfl
@[simp] theorem State.latchRegs_img (s : State) (offs : List Nat) : (State.latchRegs s offs).img = s.img := by rfl
@[simp] theorem State.latchRegs_pwr (s : State) (offs : List Nat) : (State.latchRegs s offs).pwr = s.pwr := by rfl
@[simp] theorem State.latchRegs_test (s : State) (offs : List Nat) : (State.latchRegs s offs).test = s.test := by rfl
@[simp] theorem State.latchRegs_shu (s : State) (offs : List Nat) : (State.latchRegs s offs).shu = s.shu := by rfl
@[simp] theorem State.latchRegs_drawn (s : State) (offs : List Nat) : (State.latchRegs s offs).drawn = s.drawn := by rfl
@[simp] theorem State.latchRegs_out (s : State) (offs : List Nat) : (State.latchRegs s offs).out = s.out := by rfl
@[simp] theorem State.latchRegs_pending (s : State) (offs : List Nat) : (State.latchRegs s offs).pending = s.pending := by rfl
@[simp] theorem State.setSq_regs (s : State) (i : Nat) (r : SubRing) : (State.setSq s i r).regs = s.regs := by rfl
@[simp] theorem State.setSq_readLatch (s : State) (i : Nat) (r : SubRing) : (State.setSq s i r).readLatch = s.readLatch := by rfl
@[simp] theorem State.setSq_writeLatch (s : State) (i : Nat) (r : SubRing) : (State.setSq s i r).writeLatch = s.writeLatch := by rfl
@[simp] theorem State.setSq_timeLatch (s : State) (i : Nat) (r : SubRing) : (State.setSq s i r).timeLatch = s.timeLatch := by rfl
@[simp] theorem State.setSq_staged (s : State) (i : Nat) (r : SubRing) : (State.setSq s i r).staged = s.staged := by rfl
@[simp] theorem State.setSq_tb (s : State) (i : Nat) (r : SubRing) : (State.setSq s i r).tb = s.tb := by rfl
@[simp] theorem State.setSq_tick (s : State) (i : Nat) (r : SubRing) : (State.setSq s i r).tick = s.tick := by rfl
@[simp] theorem State.setSq_evq (s : State) (i : Nat) (r : SubRing) : (State.setSq s i r).evq = s.evq := by rfl
@[simp] theorem State.setSq_denyNotice (s : State) (i : Nat) (r : SubRing) : (State.setSq s i r).denyNotice = s.denyNotice := by rfl
@[simp] theorem State.setSq_fe (s : State) (i : Nat) (r : SubRing) : (State.setSq s i r).fe = s.fe := by rfl
@[simp] theorem State.setSq_crb (s : State) (i : Nat) (r : SubRing) : (State.setSq s i r).crb = s.crb := by rfl
@[simp] theorem State.setSq_tdm (s : State) (i : Nat) (r : SubRing) : (State.setSq s i r).tdm = s.tdm := by rfl
@[simp] theorem State.setSq_mem (s : State) (i : Nat) (r : SubRing) : (State.setSq s i r).mem = s.mem := by rfl
@[simp] theorem State.setSq_tkr (s : State) (i : Nat) (r : SubRing) : (State.setSq s i r).tkr = s.tkr := by rfl
@[simp] theorem State.setSq_tm (s : State) (i : Nat) (r : SubRing) : (State.setSq s i r).tm = s.tm := by rfl
@[simp] theorem State.setSq_drv (s : State) (i : Nat) (r : SubRing) : (State.setSq s i r).drv = s.drv := by rfl
@[simp] theorem State.setSq_php (s : State) (i : Nat) (r : SubRing) : (State.setSq s i r).php = s.php := by rfl
@[simp] theorem State.setSq_tlm (s : State) (i : Nat) (r : SubRing) : (State.setSq s i r).tlm = s.tlm := by rfl
@[simp] theorem State.setSq_mtr (s : State) (i : Nat) (r : SubRing) : (State.setSq s i r).mtr = s.mtr := by rfl
@[simp] theorem State.setSq_far (s : State) (i : Nat) (r : SubRing) : (State.setSq s i r).far = s.far := by rfl
@[simp] theorem State.setSq_nor (s : State) (i : Nat) (r : SubRing) : (State.setSq s i r).nor = s.nor := by rfl
@[simp] theorem State.setSq_img (s : State) (i : Nat) (r : SubRing) : (State.setSq s i r).img = s.img := by rfl
@[simp] theorem State.setSq_pwr (s : State) (i : Nat) (r : SubRing) : (State.setSq s i r).pwr = s.pwr := by rfl
@[simp] theorem State.setSq_test (s : State) (i : Nat) (r : SubRing) : (State.setSq s i r).test = s.test := by rfl
@[simp] theorem State.setSq_shu (s : State) (i : Nat) (r : SubRing) : (State.setSq s i r).shu = s.shu := by rfl
@[simp] theorem State.setSq_drawn (s : State) (i : Nat) (r : SubRing) : (State.setSq s i r).drawn = s.drawn := by rfl
@[simp] theorem State.setSq_out (s : State) (i : Nat) (r : SubRing) : (State.setSq s i r).out = s.out := by rfl
@[simp] theorem State.setSq_pending (s : State) (i : Nat) (r : SubRing) : (State.setSq s i r).pending = s.pending := by rfl
@[simp] theorem State.setCq_regs (s : State) (c : Nat) (r : OutRing) : (State.setCq s c r).regs = s.regs := by rfl
@[simp] theorem State.setCq_readLatch (s : State) (c : Nat) (r : OutRing) : (State.setCq s c r).readLatch = s.readLatch := by rfl
@[simp] theorem State.setCq_writeLatch (s : State) (c : Nat) (r : OutRing) : (State.setCq s c r).writeLatch = s.writeLatch := by rfl
@[simp] theorem State.setCq_timeLatch (s : State) (c : Nat) (r : OutRing) : (State.setCq s c r).timeLatch = s.timeLatch := by rfl
@[simp] theorem State.setCq_staged (s : State) (c : Nat) (r : OutRing) : (State.setCq s c r).staged = s.staged := by rfl
@[simp] theorem State.setCq_tb (s : State) (c : Nat) (r : OutRing) : (State.setCq s c r).tb = s.tb := by rfl
@[simp] theorem State.setCq_tick (s : State) (c : Nat) (r : OutRing) : (State.setCq s c r).tick = s.tick := by rfl
@[simp] theorem State.setCq_evq (s : State) (c : Nat) (r : OutRing) : (State.setCq s c r).evq = s.evq := by rfl
@[simp] theorem State.setCq_denyNotice (s : State) (c : Nat) (r : OutRing) : (State.setCq s c r).denyNotice = s.denyNotice := by rfl
@[simp] theorem State.setCq_fe (s : State) (c : Nat) (r : OutRing) : (State.setCq s c r).fe = s.fe := by rfl
@[simp] theorem State.setCq_crb (s : State) (c : Nat) (r : OutRing) : (State.setCq s c r).crb = s.crb := by rfl
@[simp] theorem State.setCq_tdm (s : State) (c : Nat) (r : OutRing) : (State.setCq s c r).tdm = s.tdm := by rfl
@[simp] theorem State.setCq_mem (s : State) (c : Nat) (r : OutRing) : (State.setCq s c r).mem = s.mem := by rfl
@[simp] theorem State.setCq_tkr (s : State) (c : Nat) (r : OutRing) : (State.setCq s c r).tkr = s.tkr := by rfl
@[simp] theorem State.setCq_tm (s : State) (c : Nat) (r : OutRing) : (State.setCq s c r).tm = s.tm := by rfl
@[simp] theorem State.setCq_drv (s : State) (c : Nat) (r : OutRing) : (State.setCq s c r).drv = s.drv := by rfl
@[simp] theorem State.setCq_php (s : State) (c : Nat) (r : OutRing) : (State.setCq s c r).php = s.php := by rfl
@[simp] theorem State.setCq_tlm (s : State) (c : Nat) (r : OutRing) : (State.setCq s c r).tlm = s.tlm := by rfl
@[simp] theorem State.setCq_mtr (s : State) (c : Nat) (r : OutRing) : (State.setCq s c r).mtr = s.mtr := by rfl
@[simp] theorem State.setCq_far (s : State) (c : Nat) (r : OutRing) : (State.setCq s c r).far = s.far := by rfl
@[simp] theorem State.setCq_nor (s : State) (c : Nat) (r : OutRing) : (State.setCq s c r).nor = s.nor := by rfl
@[simp] theorem State.setCq_img (s : State) (c : Nat) (r : OutRing) : (State.setCq s c r).img = s.img := by rfl
@[simp] theorem State.setCq_pwr (s : State) (c : Nat) (r : OutRing) : (State.setCq s c r).pwr = s.pwr := by rfl
@[simp] theorem State.setCq_test (s : State) (c : Nat) (r : OutRing) : (State.setCq s c r).test = s.test := by rfl
@[simp] theorem State.setCq_shu (s : State) (c : Nat) (r : OutRing) : (State.setCq s c r).shu = s.shu := by rfl
@[simp] theorem State.setCq_drawn (s : State) (c : Nat) (r : OutRing) : (State.setCq s c r).drawn = s.drawn := by rfl
@[simp] theorem State.setCq_out (s : State) (c : Nat) (r : OutRing) : (State.setCq s c r).out = s.out := by rfl
@[simp] theorem State.setCq_pending (s : State) (c : Nat) (r : OutRing) : (State.setCq s c r).pending = s.pending := by rfl
@[simp] theorem State.setEq_regs (s : State) (e : Nat) (r : OutRing) : (State.setEq s e r).regs = s.regs := by rfl
@[simp] theorem State.setEq_readLatch (s : State) (e : Nat) (r : OutRing) : (State.setEq s e r).readLatch = s.readLatch := by rfl
@[simp] theorem State.setEq_writeLatch (s : State) (e : Nat) (r : OutRing) : (State.setEq s e r).writeLatch = s.writeLatch := by rfl
@[simp] theorem State.setEq_timeLatch (s : State) (e : Nat) (r : OutRing) : (State.setEq s e r).timeLatch = s.timeLatch := by rfl
@[simp] theorem State.setEq_staged (s : State) (e : Nat) (r : OutRing) : (State.setEq s e r).staged = s.staged := by rfl
@[simp] theorem State.setEq_tb (s : State) (e : Nat) (r : OutRing) : (State.setEq s e r).tb = s.tb := by rfl
@[simp] theorem State.setEq_tick (s : State) (e : Nat) (r : OutRing) : (State.setEq s e r).tick = s.tick := by rfl
@[simp] theorem State.setEq_evq (s : State) (e : Nat) (r : OutRing) : (State.setEq s e r).evq = s.evq := by rfl
@[simp] theorem State.setEq_denyNotice (s : State) (e : Nat) (r : OutRing) : (State.setEq s e r).denyNotice = s.denyNotice := by rfl
@[simp] theorem State.setEq_fe (s : State) (e : Nat) (r : OutRing) : (State.setEq s e r).fe = s.fe := by rfl
@[simp] theorem State.setEq_crb (s : State) (e : Nat) (r : OutRing) : (State.setEq s e r).crb = s.crb := by rfl
@[simp] theorem State.setEq_tdm (s : State) (e : Nat) (r : OutRing) : (State.setEq s e r).tdm = s.tdm := by rfl
@[simp] theorem State.setEq_mem (s : State) (e : Nat) (r : OutRing) : (State.setEq s e r).mem = s.mem := by rfl
@[simp] theorem State.setEq_tkr (s : State) (e : Nat) (r : OutRing) : (State.setEq s e r).tkr = s.tkr := by rfl
@[simp] theorem State.setEq_tm (s : State) (e : Nat) (r : OutRing) : (State.setEq s e r).tm = s.tm := by rfl
@[simp] theorem State.setEq_drv (s : State) (e : Nat) (r : OutRing) : (State.setEq s e r).drv = s.drv := by rfl
@[simp] theorem State.setEq_php (s : State) (e : Nat) (r : OutRing) : (State.setEq s e r).php = s.php := by rfl
@[simp] theorem State.setEq_tlm (s : State) (e : Nat) (r : OutRing) : (State.setEq s e r).tlm = s.tlm := by rfl
@[simp] theorem State.setEq_mtr (s : State) (e : Nat) (r : OutRing) : (State.setEq s e r).mtr = s.mtr := by rfl
@[simp] theorem State.setEq_far (s : State) (e : Nat) (r : OutRing) : (State.setEq s e r).far = s.far := by rfl
@[simp] theorem State.setEq_nor (s : State) (e : Nat) (r : OutRing) : (State.setEq s e r).nor = s.nor := by rfl
@[simp] theorem State.setEq_img (s : State) (e : Nat) (r : OutRing) : (State.setEq s e r).img = s.img := by rfl
@[simp] theorem State.setEq_pwr (s : State) (e : Nat) (r : OutRing) : (State.setEq s e r).pwr = s.pwr := by rfl
@[simp] theorem State.setEq_test (s : State) (e : Nat) (r : OutRing) : (State.setEq s e r).test = s.test := by rfl
@[simp] theorem State.setEq_shu (s : State) (e : Nat) (r : OutRing) : (State.setEq s e r).shu = s.shu := by rfl
@[simp] theorem State.setEq_drawn (s : State) (e : Nat) (r : OutRing) : (State.setEq s e r).drawn = s.drawn := by rfl
@[simp] theorem State.setEq_out (s : State) (e : Nat) (r : OutRing) : (State.setEq s e r).out = s.out := by rfl
@[simp] theorem State.setEq_pending (s : State) (e : Nat) (r : OutRing) : (State.setEq s e r).pending = s.pending := by rfl
@[simp] theorem State.setSvc_readLatch (s : State) (new cause : Nat) : (State.setSvc s new cause).readLatch = s.readLatch := by unfold State.setSvc; dsimp only; split <;> simp
@[simp] theorem State.setSvc_writeLatch (s : State) (new cause : Nat) : (State.setSvc s new cause).writeLatch = s.writeLatch := by unfold State.setSvc; dsimp only; split <;> simp
@[simp] theorem State.setSvc_timeLatch (s : State) (new cause : Nat) : (State.setSvc s new cause).timeLatch = s.timeLatch := by unfold State.setSvc; dsimp only; split <;> simp
@[simp] theorem State.setSvc_staged (s : State) (new cause : Nat) : (State.setSvc s new cause).staged = s.staged := by unfold State.setSvc; dsimp only; split <;> simp
@[simp] theorem State.setSvc_tb (s : State) (new cause : Nat) : (State.setSvc s new cause).tb = s.tb := by unfold State.setSvc; dsimp only; split <;> simp
@[simp] theorem State.setSvc_tick (s : State) (new cause : Nat) : (State.setSvc s new cause).tick = s.tick := by unfold State.setSvc; dsimp only; split <;> simp
@[simp] theorem State.setSvc_hif (s : State) (new cause : Nat) : (State.setSvc s new cause).hif = s.hif := by unfold State.setSvc; dsimp only; split <;> simp
@[simp] theorem State.setSvc_denyNotice (s : State) (new cause : Nat) : (State.setSvc s new cause).denyNotice = s.denyNotice := by unfold State.setSvc; dsimp only; split <;> simp
@[simp] theorem State.setSvc_fe (s : State) (new cause : Nat) : (State.setSvc s new cause).fe = s.fe := by unfold State.setSvc; dsimp only; split <;> simp
@[simp] theorem State.setSvc_crb (s : State) (new cause : Nat) : (State.setSvc s new cause).crb = s.crb := by unfold State.setSvc; dsimp only; split <;> simp
@[simp] theorem State.setSvc_tdm (s : State) (new cause : Nat) : (State.setSvc s new cause).tdm = s.tdm := by unfold State.setSvc; dsimp only; split <;> simp
@[simp] theorem State.setSvc_tkr (s : State) (new cause : Nat) : (State.setSvc s new cause).tkr = s.tkr := by unfold State.setSvc; dsimp only; split <;> simp
@[simp] theorem State.setSvc_tm (s : State) (new cause : Nat) : (State.setSvc s new cause).tm = s.tm := by unfold State.setSvc; dsimp only; split <;> simp
@[simp] theorem State.setSvc_drv (s : State) (new cause : Nat) : (State.setSvc s new cause).drv = s.drv := by unfold State.setSvc; dsimp only; split <;> simp
@[simp] theorem State.setSvc_php (s : State) (new cause : Nat) : (State.setSvc s new cause).php = s.php := by unfold State.setSvc; dsimp only; split <;> simp
@[simp] theorem State.setSvc_tlm (s : State) (new cause : Nat) : (State.setSvc s new cause).tlm = s.tlm := by unfold State.setSvc; dsimp only; split <;> simp
@[simp] theorem State.setSvc_mtr (s : State) (new cause : Nat) : (State.setSvc s new cause).mtr = s.mtr := by unfold State.setSvc; dsimp only; split <;> simp
@[simp] theorem State.setSvc_far (s : State) (new cause : Nat) : (State.setSvc s new cause).far = s.far := by unfold State.setSvc; dsimp only; split <;> simp
@[simp] theorem State.setSvc_nor (s : State) (new cause : Nat) : (State.setSvc s new cause).nor = s.nor := by unfold State.setSvc; dsimp only; split <;> simp
@[simp] theorem State.setSvc_img (s : State) (new cause : Nat) : (State.setSvc s new cause).img = s.img := by unfold State.setSvc; dsimp only; split <;> simp
@[simp] theorem State.setSvc_pwr (s : State) (new cause : Nat) : (State.setSvc s new cause).pwr = s.pwr := by unfold State.setSvc; dsimp only; split <;> simp
@[simp] theorem State.setSvc_test (s : State) (new cause : Nat) : (State.setSvc s new cause).test = s.test := by unfold State.setSvc; dsimp only; split <;> simp
@[simp] theorem State.setSvc_shu (s : State) (new cause : Nat) : (State.setSvc s new cause).shu = s.shu := by unfold State.setSvc; dsimp only; split <;> simp
@[simp] theorem State.setSvc_drawn (s : State) (new cause : Nat) : (State.setSvc s new cause).drawn = s.drawn := by unfold State.setSvc; dsimp only; split <;> simp
@[simp] theorem State.setSvc_pending (s : State) (new cause : Nat) : (State.setSvc s new cause).pending = s.pending := by unfold State.setSvc; dsimp only; split <;> simp
@[simp] theorem State.dropRunning_readLatch (s : State) (d : Running) : (State.dropRunning s d).readLatch = s.readLatch := by rfl
@[simp] theorem State.dropRunning_writeLatch (s : State) (d : Running) : (State.dropRunning s d).writeLatch = s.writeLatch := by rfl
@[simp] theorem State.dropRunning_timeLatch (s : State) (d : Running) : (State.dropRunning s d).timeLatch = s.timeLatch := by rfl
@[simp] theorem State.dropRunning_staged (s : State) (d : Running) : (State.dropRunning s d).staged = s.staged := by rfl
@[simp] theorem State.dropRunning_tb (s : State) (d : Running) : (State.dropRunning s d).tb = s.tb := by rfl
@[simp] theorem State.dropRunning_tick (s : State) (d : Running) : (State.dropRunning s d).tick = s.tick := by rfl
@[simp] theorem State.dropRunning_denyNotice (s : State) (d : Running) : (State.dropRunning s d).denyNotice = s.denyNotice := by rfl
@[simp] theorem State.dropRunning_fe (s : State) (d : Running) : (State.dropRunning s d).fe = s.fe := by rfl
@[simp] theorem State.dropRunning_crb (s : State) (d : Running) : (State.dropRunning s d).crb = s.crb := by rfl
@[simp] theorem State.dropRunning_tdm (s : State) (d : Running) : (State.dropRunning s d).tdm = s.tdm := by rfl
@[simp] theorem State.dropRunning_mem (s : State) (d : Running) : (State.dropRunning s d).mem = s.mem := by rfl
@[simp] theorem State.dropRunning_tkr (s : State) (d : Running) : (State.dropRunning s d).tkr = s.tkr := by rfl
@[simp] theorem State.dropRunning_tm (s : State) (d : Running) : (State.dropRunning s d).tm = s.tm := by rfl
@[simp] theorem State.dropRunning_drv (s : State) (d : Running) : (State.dropRunning s d).drv = s.drv := by rfl
@[simp] theorem State.dropRunning_php (s : State) (d : Running) : (State.dropRunning s d).php = s.php := by rfl
@[simp] theorem State.dropRunning_tlm (s : State) (d : Running) : (State.dropRunning s d).tlm = s.tlm := by rfl
@[simp] theorem State.dropRunning_mtr (s : State) (d : Running) : (State.dropRunning s d).mtr = s.mtr := by rfl
@[simp] theorem State.dropRunning_far (s : State) (d : Running) : (State.dropRunning s d).far = s.far := by rfl
@[simp] theorem State.dropRunning_nor (s : State) (d : Running) : (State.dropRunning s d).nor = s.nor := by rfl
@[simp] theorem State.dropRunning_img (s : State) (d : Running) : (State.dropRunning s d).img = s.img := by rfl
@[simp] theorem State.dropRunning_pwr (s : State) (d : Running) : (State.dropRunning s d).pwr = s.pwr := by rfl
@[simp] theorem State.dropRunning_test (s : State) (d : Running) : (State.dropRunning s d).test = s.test := by rfl
@[simp] theorem State.dropRunning_shu (s : State) (d : Running) : (State.dropRunning s d).shu = s.shu := by rfl
@[simp] theorem State.dropRunning_drawn (s : State) (d : Running) : (State.dropRunning s d).drawn = s.drawn := by rfl
@[simp] theorem State.dropRunning_pending (s : State) (d : Running) : (State.dropRunning s d).pending = s.pending := by rfl
@[simp] theorem State.dropRunning_regs (s : State) (d : Running) : (State.dropRunning s d).regs = s.regs := by rfl
@[simp] theorem State.dropRunning_evq (s : State) (d : Running) : (State.dropRunning s d).evq = s.evq := by rfl
@[simp] theorem State.dropRunning_out (s : State) (d : Running) : (State.dropRunning s d).out = s.out := by rfl
@[simp] theorem State.setLayer_readLatch (s : State) (i : Nat) (l : Option Layer) : (State.setLayer s i l).readLatch = s.readLatch := by rfl
@[simp] theorem State.setLayer_writeLatch (s : State) (i : Nat) (l : Option Layer) : (State.setLayer s i l).writeLatch = s.writeLatch := by rfl
@[simp] theorem State.setLayer_timeLatch (s : State) (i : Nat) (l : Option Layer) : (State.setLayer s i l).timeLatch = s.timeLatch := by rfl
@[simp] theorem State.setLayer_staged (s : State) (i : Nat) (l : Option Layer) : (State.setLayer s i l).staged = s.staged := by rfl
@[simp] theorem State.setLayer_tb (s : State) (i : Nat) (l : Option Layer) : (State.setLayer s i l).tb = s.tb := by rfl
@[simp] theorem State.setLayer_tick (s : State) (i : Nat) (l : Option Layer) : (State.setLayer s i l).tick = s.tick := by rfl
@[simp] theorem State.setLayer_hif (s : State) (i : Nat) (l : Option Layer) : (State.setLayer s i l).hif = s.hif := by rfl
@[simp] theorem State.setLayer_denyNotice (s : State) (i : Nat) (l : Option Layer) : (State.setLayer s i l).denyNotice = s.denyNotice := by rfl
@[simp] theorem State.setLayer_crb (s : State) (i : Nat) (l : Option Layer) : (State.setLayer s i l).crb = s.crb := by rfl
@[simp] theorem State.setLayer_tdm (s : State) (i : Nat) (l : Option Layer) : (State.setLayer s i l).tdm = s.tdm := by rfl
@[simp] theorem State.setLayer_mem (s : State) (i : Nat) (l : Option Layer) : (State.setLayer s i l).mem = s.mem := by rfl
@[simp] theorem State.setLayer_tkr (s : State) (i : Nat) (l : Option Layer) : (State.setLayer s i l).tkr = s.tkr := by rfl
@[simp] theorem State.setLayer_tm (s : State) (i : Nat) (l : Option Layer) : (State.setLayer s i l).tm = s.tm := by rfl
@[simp] theorem State.setLayer_drv (s : State) (i : Nat) (l : Option Layer) : (State.setLayer s i l).drv = s.drv := by rfl
@[simp] theorem State.setLayer_php (s : State) (i : Nat) (l : Option Layer) : (State.setLayer s i l).php = s.php := by rfl
@[simp] theorem State.setLayer_tlm (s : State) (i : Nat) (l : Option Layer) : (State.setLayer s i l).tlm = s.tlm := by rfl
@[simp] theorem State.setLayer_mtr (s : State) (i : Nat) (l : Option Layer) : (State.setLayer s i l).mtr = s.mtr := by rfl
@[simp] theorem State.setLayer_far (s : State) (i : Nat) (l : Option Layer) : (State.setLayer s i l).far = s.far := by rfl
@[simp] theorem State.setLayer_nor (s : State) (i : Nat) (l : Option Layer) : (State.setLayer s i l).nor = s.nor := by rfl
@[simp] theorem State.setLayer_img (s : State) (i : Nat) (l : Option Layer) : (State.setLayer s i l).img = s.img := by rfl
@[simp] theorem State.setLayer_pwr (s : State) (i : Nat) (l : Option Layer) : (State.setLayer s i l).pwr = s.pwr := by rfl
@[simp] theorem State.setLayer_test (s : State) (i : Nat) (l : Option Layer) : (State.setLayer s i l).test = s.test := by rfl
@[simp] theorem State.setLayer_shu (s : State) (i : Nat) (l : Option Layer) : (State.setLayer s i l).shu = s.shu := by rfl
@[simp] theorem State.setLayer_drawn (s : State) (i : Nat) (l : Option Layer) : (State.setLayer s i l).drawn = s.drawn := by rfl
@[simp] theorem State.setLayer_pending (s : State) (i : Nat) (l : Option Layer) : (State.setLayer s i l).pending = s.pending := by rfl
@[simp] theorem State.setLayer_regs (s : State) (i : Nat) (l : Option Layer) : (State.setLayer s i l).regs = s.regs := by rfl
@[simp] theorem State.setLayer_evq (s : State) (i : Nat) (l : Option Layer) : (State.setLayer s i l).evq = s.evq := by rfl
@[simp] theorem State.setLayer_out (s : State) (i : Nat) (l : Option Layer) : (State.setLayer s i l).out = s.out := by rfl
@[simp] theorem State.setRegistering_readLatch (s : State) (i : Nat) (l : Option Layer) : (State.setRegistering s i l).readLatch = s.readLatch := by rfl
@[simp] theorem State.setRegistering_writeLatch (s : State) (i : Nat) (l : Option Layer) : (State.setRegistering s i l).writeLatch = s.writeLatch := by rfl
@[simp] theorem State.setRegistering_timeLatch (s : State) (i : Nat) (l : Option Layer) : (State.setRegistering s i l).timeLatch = s.timeLatch := by rfl
@[simp] theorem State.setRegistering_staged (s : State) (i : Nat) (l : Option Layer) : (State.setRegistering s i l).staged = s.staged := by rfl
@[simp] theorem State.setRegistering_tb (s : State) (i : Nat) (l : Option Layer) : (State.setRegistering s i l).tb = s.tb := by rfl
@[simp] theorem State.setRegistering_tick (s : State) (i : Nat) (l : Option Layer) : (State.setRegistering s i l).tick = s.tick := by rfl
@[simp] theorem State.setRegistering_hif (s : State) (i : Nat) (l : Option Layer) : (State.setRegistering s i l).hif = s.hif := by rfl
@[simp] theorem State.setRegistering_denyNotice (s : State) (i : Nat) (l : Option Layer) : (State.setRegistering s i l).denyNotice = s.denyNotice := by rfl
@[simp] theorem State.setRegistering_crb (s : State) (i : Nat) (l : Option Layer) : (State.setRegistering s i l).crb = s.crb := by rfl
@[simp] theorem State.setRegistering_tdm (s : State) (i : Nat) (l : Option Layer) : (State.setRegistering s i l).tdm = s.tdm := by rfl
@[simp] theorem State.setRegistering_mem (s : State) (i : Nat) (l : Option Layer) : (State.setRegistering s i l).mem = s.mem := by rfl
@[simp] theorem State.setRegistering_tkr (s : State) (i : Nat) (l : Option Layer) : (State.setRegistering s i l).tkr = s.tkr := by rfl
@[simp] theorem State.setRegistering_tm (s : State) (i : Nat) (l : Option Layer) : (State.setRegistering s i l).tm = s.tm := by rfl
@[simp] theorem State.setRegistering_drv (s : State) (i : Nat) (l : Option Layer) : (State.setRegistering s i l).drv = s.drv := by rfl
@[simp] theorem State.setRegistering_php (s : State) (i : Nat) (l : Option Layer) : (State.setRegistering s i l).php = s.php := by rfl
@[simp] theorem State.setRegistering_tlm (s : State) (i : Nat) (l : Option Layer) : (State.setRegistering s i l).tlm = s.tlm := by rfl
@[simp] theorem State.setRegistering_mtr (s : State) (i : Nat) (l : Option Layer) : (State.setRegistering s i l).mtr = s.mtr := by rfl
@[simp] theorem State.setRegistering_far (s : State) (i : Nat) (l : Option Layer) : (State.setRegistering s i l).far = s.far := by rfl
@[simp] theorem State.setRegistering_nor (s : State) (i : Nat) (l : Option Layer) : (State.setRegistering s i l).nor = s.nor := by rfl
@[simp] theorem State.setRegistering_img (s : State) (i : Nat) (l : Option Layer) : (State.setRegistering s i l).img = s.img := by rfl
@[simp] theorem State.setRegistering_pwr (s : State) (i : Nat) (l : Option Layer) : (State.setRegistering s i l).pwr = s.pwr := by rfl
@[simp] theorem State.setRegistering_test (s : State) (i : Nat) (l : Option Layer) : (State.setRegistering s i l).test = s.test := by rfl
@[simp] theorem State.setRegistering_shu (s : State) (i : Nat) (l : Option Layer) : (State.setRegistering s i l).shu = s.shu := by rfl
@[simp] theorem State.setRegistering_drawn (s : State) (i : Nat) (l : Option Layer) : (State.setRegistering s i l).drawn = s.drawn := by rfl
@[simp] theorem State.setRegistering_pending (s : State) (i : Nat) (l : Option Layer) : (State.setRegistering s i l).pending = s.pending := by rfl
@[simp] theorem State.setRegistering_regs (s : State) (i : Nat) (l : Option Layer) : (State.setRegistering s i l).regs = s.regs := by rfl
@[simp] theorem State.setRegistering_evq (s : State) (i : Nat) (l : Option Layer) : (State.setRegistering s i l).evq = s.evq := by rfl
@[simp] theorem State.setRegistering_out (s : State) (i : Nat) (l : Option Layer) : (State.setRegistering s i l).out = s.out := by rfl
@[simp] theorem State.setFeed_readLatch (s : State) (f : Nat) (x : MeterFeed) : (State.setFeed s f x).readLatch = s.readLatch := by rfl
@[simp] theorem State.setFeed_writeLatch (s : State) (f : Nat) (x : MeterFeed) : (State.setFeed s f x).writeLatch = s.writeLatch := by rfl
@[simp] theorem State.setFeed_timeLatch (s : State) (f : Nat) (x : MeterFeed) : (State.setFeed s f x).timeLatch = s.timeLatch := by rfl
@[simp] theorem State.setFeed_staged (s : State) (f : Nat) (x : MeterFeed) : (State.setFeed s f x).staged = s.staged := by rfl
@[simp] theorem State.setFeed_tb (s : State) (f : Nat) (x : MeterFeed) : (State.setFeed s f x).tb = s.tb := by rfl
@[simp] theorem State.setFeed_tick (s : State) (f : Nat) (x : MeterFeed) : (State.setFeed s f x).tick = s.tick := by rfl
@[simp] theorem State.setFeed_hif (s : State) (f : Nat) (x : MeterFeed) : (State.setFeed s f x).hif = s.hif := by rfl
@[simp] theorem State.setFeed_denyNotice (s : State) (f : Nat) (x : MeterFeed) : (State.setFeed s f x).denyNotice = s.denyNotice := by rfl
@[simp] theorem State.setFeed_fe (s : State) (f : Nat) (x : MeterFeed) : (State.setFeed s f x).fe = s.fe := by rfl
@[simp] theorem State.setFeed_crb (s : State) (f : Nat) (x : MeterFeed) : (State.setFeed s f x).crb = s.crb := by rfl
@[simp] theorem State.setFeed_tdm (s : State) (f : Nat) (x : MeterFeed) : (State.setFeed s f x).tdm = s.tdm := by rfl
@[simp] theorem State.setFeed_mem (s : State) (f : Nat) (x : MeterFeed) : (State.setFeed s f x).mem = s.mem := by rfl
@[simp] theorem State.setFeed_tkr (s : State) (f : Nat) (x : MeterFeed) : (State.setFeed s f x).tkr = s.tkr := by rfl
@[simp] theorem State.setFeed_tm (s : State) (f : Nat) (x : MeterFeed) : (State.setFeed s f x).tm = s.tm := by rfl
@[simp] theorem State.setFeed_drv (s : State) (f : Nat) (x : MeterFeed) : (State.setFeed s f x).drv = s.drv := by rfl
@[simp] theorem State.setFeed_php (s : State) (f : Nat) (x : MeterFeed) : (State.setFeed s f x).php = s.php := by rfl
@[simp] theorem State.setFeed_tlm (s : State) (f : Nat) (x : MeterFeed) : (State.setFeed s f x).tlm = s.tlm := by rfl
@[simp] theorem State.setFeed_far (s : State) (f : Nat) (x : MeterFeed) : (State.setFeed s f x).far = s.far := by rfl
@[simp] theorem State.setFeed_nor (s : State) (f : Nat) (x : MeterFeed) : (State.setFeed s f x).nor = s.nor := by rfl
@[simp] theorem State.setFeed_img (s : State) (f : Nat) (x : MeterFeed) : (State.setFeed s f x).img = s.img := by rfl
@[simp] theorem State.setFeed_pwr (s : State) (f : Nat) (x : MeterFeed) : (State.setFeed s f x).pwr = s.pwr := by rfl
@[simp] theorem State.setFeed_test (s : State) (f : Nat) (x : MeterFeed) : (State.setFeed s f x).test = s.test := by rfl
@[simp] theorem State.setFeed_shu (s : State) (f : Nat) (x : MeterFeed) : (State.setFeed s f x).shu = s.shu := by rfl
@[simp] theorem State.setFeed_drawn (s : State) (f : Nat) (x : MeterFeed) : (State.setFeed s f x).drawn = s.drawn := by rfl
@[simp] theorem State.setFeed_pending (s : State) (f : Nat) (x : MeterFeed) : (State.setFeed s f x).pending = s.pending := by rfl
@[simp] theorem State.setFeed_regs (s : State) (f : Nat) (x : MeterFeed) : (State.setFeed s f x).regs = s.regs := by rfl
@[simp] theorem State.setFeed_evq (s : State) (f : Nat) (x : MeterFeed) : (State.setFeed s f x).evq = s.evq := by rfl
@[simp] theorem State.setFeed_out (s : State) (f : Nat) (x : MeterFeed) : (State.setFeed s f x).out = s.out := by rfl
@[simp] theorem State.setChan_readLatch (s : State) (i : Nat) (x : DrvChan) : (State.setChan s i x).readLatch = s.readLatch := by rfl
@[simp] theorem State.setChan_writeLatch (s : State) (i : Nat) (x : DrvChan) : (State.setChan s i x).writeLatch = s.writeLatch := by rfl
@[simp] theorem State.setChan_timeLatch (s : State) (i : Nat) (x : DrvChan) : (State.setChan s i x).timeLatch = s.timeLatch := by rfl
@[simp] theorem State.setChan_staged (s : State) (i : Nat) (x : DrvChan) : (State.setChan s i x).staged = s.staged := by rfl
@[simp] theorem State.setChan_tb (s : State) (i : Nat) (x : DrvChan) : (State.setChan s i x).tb = s.tb := by rfl
@[simp] theorem State.setChan_tick (s : State) (i : Nat) (x : DrvChan) : (State.setChan s i x).tick = s.tick := by rfl
@[simp] theorem State.setChan_hif (s : State) (i : Nat) (x : DrvChan) : (State.setChan s i x).hif = s.hif := by rfl
@[simp] theorem State.setChan_denyNotice (s : State) (i : Nat) (x : DrvChan) : (State.setChan s i x).denyNotice = s.denyNotice := by rfl
@[simp] theorem State.setChan_fe (s : State) (i : Nat) (x : DrvChan) : (State.setChan s i x).fe = s.fe := by rfl
@[simp] theorem State.setChan_crb (s : State) (i : Nat) (x : DrvChan) : (State.setChan s i x).crb = s.crb := by rfl
@[simp] theorem State.setChan_tdm (s : State) (i : Nat) (x : DrvChan) : (State.setChan s i x).tdm = s.tdm := by rfl
@[simp] theorem State.setChan_mem (s : State) (i : Nat) (x : DrvChan) : (State.setChan s i x).mem = s.mem := by rfl
@[simp] theorem State.setChan_tkr (s : State) (i : Nat) (x : DrvChan) : (State.setChan s i x).tkr = s.tkr := by rfl
@[simp] theorem State.setChan_tm (s : State) (i : Nat) (x : DrvChan) : (State.setChan s i x).tm = s.tm := by rfl
@[simp] theorem State.setChan_php (s : State) (i : Nat) (x : DrvChan) : (State.setChan s i x).php = s.php := by rfl
@[simp] theorem State.setChan_tlm (s : State) (i : Nat) (x : DrvChan) : (State.setChan s i x).tlm = s.tlm := by rfl
@[simp] theorem State.setChan_mtr (s : State) (i : Nat) (x : DrvChan) : (State.setChan s i x).mtr = s.mtr := by rfl
@[simp] theorem State.setChan_far (s : State) (i : Nat) (x : DrvChan) : (State.setChan s i x).far = s.far := by rfl
@[simp] theorem State.setChan_nor (s : State) (i : Nat) (x : DrvChan) : (State.setChan s i x).nor = s.nor := by rfl
@[simp] theorem State.setChan_img (s : State) (i : Nat) (x : DrvChan) : (State.setChan s i x).img = s.img := by rfl
@[simp] theorem State.setChan_pwr (s : State) (i : Nat) (x : DrvChan) : (State.setChan s i x).pwr = s.pwr := by rfl
@[simp] theorem State.setChan_test (s : State) (i : Nat) (x : DrvChan) : (State.setChan s i x).test = s.test := by rfl
@[simp] theorem State.setChan_shu (s : State) (i : Nat) (x : DrvChan) : (State.setChan s i x).shu = s.shu := by rfl
@[simp] theorem State.setChan_drawn (s : State) (i : Nat) (x : DrvChan) : (State.setChan s i x).drawn = s.drawn := by rfl
@[simp] theorem State.setChan_pending (s : State) (i : Nat) (x : DrvChan) : (State.setChan s i x).pending = s.pending := by rfl
@[simp] theorem State.setChan_regs (s : State) (i : Nat) (x : DrvChan) : (State.setChan s i x).regs = s.regs := by rfl
@[simp] theorem State.setChan_evq (s : State) (i : Nat) (x : DrvChan) : (State.setChan s i x).evq = s.evq := by rfl
@[simp] theorem State.setChan_out (s : State) (i : Nat) (x : DrvChan) : (State.setChan s i x).out = s.out := by rfl
@[simp] theorem State.setImage_readLatch (s : State) (i : Nat) (x : ImageSlot) : (State.setImage s i x).readLatch = s.readLatch := by rfl
@[simp] theorem State.setImage_writeLatch (s : State) (i : Nat) (x : ImageSlot) : (State.setImage s i x).writeLatch = s.writeLatch := by rfl
@[simp] theorem State.setImage_timeLatch (s : State) (i : Nat) (x : ImageSlot) : (State.setImage s i x).timeLatch = s.timeLatch := by rfl
@[simp] theorem State.setImage_staged (s : State) (i : Nat) (x : ImageSlot) : (State.setImage s i x).staged = s.staged := by rfl
@[simp] theorem State.setImage_tb (s : State) (i : Nat) (x : ImageSlot) : (State.setImage s i x).tb = s.tb := by rfl
@[simp] theorem State.setImage_tick (s : State) (i : Nat) (x : ImageSlot) : (State.setImage s i x).tick = s.tick := by rfl
@[simp] theorem State.setImage_hif (s : State) (i : Nat) (x : ImageSlot) : (State.setImage s i x).hif = s.hif := by rfl
@[simp] theorem State.setImage_denyNotice (s : State) (i : Nat) (x : ImageSlot) : (State.setImage s i x).denyNotice = s.denyNotice := by rfl
@[simp] theorem State.setImage_fe (s : State) (i : Nat) (x : ImageSlot) : (State.setImage s i x).fe = s.fe := by rfl
@[simp] theorem State.setImage_crb (s : State) (i : Nat) (x : ImageSlot) : (State.setImage s i x).crb = s.crb := by rfl
@[simp] theorem State.setImage_tdm (s : State) (i : Nat) (x : ImageSlot) : (State.setImage s i x).tdm = s.tdm := by rfl
@[simp] theorem State.setImage_mem (s : State) (i : Nat) (x : ImageSlot) : (State.setImage s i x).mem = s.mem := by rfl
@[simp] theorem State.setImage_tkr (s : State) (i : Nat) (x : ImageSlot) : (State.setImage s i x).tkr = s.tkr := by rfl
@[simp] theorem State.setImage_tm (s : State) (i : Nat) (x : ImageSlot) : (State.setImage s i x).tm = s.tm := by rfl
@[simp] theorem State.setImage_drv (s : State) (i : Nat) (x : ImageSlot) : (State.setImage s i x).drv = s.drv := by rfl
@[simp] theorem State.setImage_php (s : State) (i : Nat) (x : ImageSlot) : (State.setImage s i x).php = s.php := by rfl
@[simp] theorem State.setImage_tlm (s : State) (i : Nat) (x : ImageSlot) : (State.setImage s i x).tlm = s.tlm := by rfl
@[simp] theorem State.setImage_mtr (s : State) (i : Nat) (x : ImageSlot) : (State.setImage s i x).mtr = s.mtr := by rfl
@[simp] theorem State.setImage_far (s : State) (i : Nat) (x : ImageSlot) : (State.setImage s i x).far = s.far := by rfl
@[simp] theorem State.setImage_nor (s : State) (i : Nat) (x : ImageSlot) : (State.setImage s i x).nor = s.nor := by rfl
@[simp] theorem State.setImage_pwr (s : State) (i : Nat) (x : ImageSlot) : (State.setImage s i x).pwr = s.pwr := by rfl
@[simp] theorem State.setImage_test (s : State) (i : Nat) (x : ImageSlot) : (State.setImage s i x).test = s.test := by rfl
@[simp] theorem State.setImage_shu (s : State) (i : Nat) (x : ImageSlot) : (State.setImage s i x).shu = s.shu := by rfl
@[simp] theorem State.setImage_drawn (s : State) (i : Nat) (x : ImageSlot) : (State.setImage s i x).drawn = s.drawn := by rfl
@[simp] theorem State.setImage_pending (s : State) (i : Nat) (x : ImageSlot) : (State.setImage s i x).pending = s.pending := by rfl
@[simp] theorem State.setImage_regs (s : State) (i : Nat) (x : ImageSlot) : (State.setImage s i x).regs = s.regs := by rfl
@[simp] theorem State.setImage_evq (s : State) (i : Nat) (x : ImageSlot) : (State.setImage s i x).evq = s.evq := by rfl
@[simp] theorem State.setImage_out (s : State) (i : Nat) (x : ImageSlot) : (State.setImage s i x).out = s.out := by rfl
@[simp] theorem State.setPort_readLatch (s : State) (i : Nat) (x : TracePort) : (State.setPort s i x).readLatch = s.readLatch := by rfl
@[simp] theorem State.setPort_writeLatch (s : State) (i : Nat) (x : TracePort) : (State.setPort s i x).writeLatch = s.writeLatch := by rfl
@[simp] theorem State.setPort_timeLatch (s : State) (i : Nat) (x : TracePort) : (State.setPort s i x).timeLatch = s.timeLatch := by rfl
@[simp] theorem State.setPort_staged (s : State) (i : Nat) (x : TracePort) : (State.setPort s i x).staged = s.staged := by rfl
@[simp] theorem State.setPort_tb (s : State) (i : Nat) (x : TracePort) : (State.setPort s i x).tb = s.tb := by rfl
@[simp] theorem State.setPort_tick (s : State) (i : Nat) (x : TracePort) : (State.setPort s i x).tick = s.tick := by rfl
@[simp] theorem State.setPort_hif (s : State) (i : Nat) (x : TracePort) : (State.setPort s i x).hif = s.hif := by rfl
@[simp] theorem State.setPort_denyNotice (s : State) (i : Nat) (x : TracePort) : (State.setPort s i x).denyNotice = s.denyNotice := by rfl
@[simp] theorem State.setPort_fe (s : State) (i : Nat) (x : TracePort) : (State.setPort s i x).fe = s.fe := by rfl
@[simp] theorem State.setPort_crb (s : State) (i : Nat) (x : TracePort) : (State.setPort s i x).crb = s.crb := by rfl
@[simp] theorem State.setPort_tdm (s : State) (i : Nat) (x : TracePort) : (State.setPort s i x).tdm = s.tdm := by rfl
@[simp] theorem State.setPort_mem (s : State) (i : Nat) (x : TracePort) : (State.setPort s i x).mem = s.mem := by rfl
@[simp] theorem State.setPort_tkr (s : State) (i : Nat) (x : TracePort) : (State.setPort s i x).tkr = s.tkr := by rfl
@[simp] theorem State.setPort_drv (s : State) (i : Nat) (x : TracePort) : (State.setPort s i x).drv = s.drv := by rfl
@[simp] theorem State.setPort_php (s : State) (i : Nat) (x : TracePort) : (State.setPort s i x).php = s.php := by rfl
@[simp] theorem State.setPort_tlm (s : State) (i : Nat) (x : TracePort) : (State.setPort s i x).tlm = s.tlm := by rfl
@[simp] theorem State.setPort_mtr (s : State) (i : Nat) (x : TracePort) : (State.setPort s i x).mtr = s.mtr := by rfl
@[simp] theorem State.setPort_far (s : State) (i : Nat) (x : TracePort) : (State.setPort s i x).far = s.far := by rfl
@[simp] theorem State.setPort_nor (s : State) (i : Nat) (x : TracePort) : (State.setPort s i x).nor = s.nor := by rfl
@[simp] theorem State.setPort_img (s : State) (i : Nat) (x : TracePort) : (State.setPort s i x).img = s.img := by rfl
@[simp] theorem State.setPort_pwr (s : State) (i : Nat) (x : TracePort) : (State.setPort s i x).pwr = s.pwr := by rfl
@[simp] theorem State.setPort_test (s : State) (i : Nat) (x : TracePort) : (State.setPort s i x).test = s.test := by rfl
@[simp] theorem State.setPort_shu (s : State) (i : Nat) (x : TracePort) : (State.setPort s i x).shu = s.shu := by rfl
@[simp] theorem State.setPort_drawn (s : State) (i : Nat) (x : TracePort) : (State.setPort s i x).drawn = s.drawn := by rfl
@[simp] theorem State.setPort_pending (s : State) (i : Nat) (x : TracePort) : (State.setPort s i x).pending = s.pending := by rfl
@[simp] theorem State.setPort_regs (s : State) (i : Nat) (x : TracePort) : (State.setPort s i x).regs = s.regs := by rfl
@[simp] theorem State.setPort_evq (s : State) (i : Nat) (x : TracePort) : (State.setPort s i x).evq = s.evq := by rfl
@[simp] theorem State.setPort_out (s : State) (i : Nat) (x : TracePort) : (State.setPort s i x).out = s.out := by rfl
@[simp] theorem State.setSvc_log (s : State) (new cause : Nat) : (State.setSvc s new cause).mem.log = s.mem.log := by
  unfold State.setSvc; dsimp only; split <;> simp

end Sys2Proof.Machine
end

