-- ==== Sys2Proof/WellFormed.lean ====
section
/-! DEFINITION. Well-formedness: which commands a sender can form.  Every operand that is a register word, a port or an
index is bounded by its type; what is left are byte strings whose length the carrier fixes. -/

namespace Sys2Proof

/-- A PTP event message on the wire is at least the 44 bytes of its header and timestamp (R48 puts fields there). -/
def ptpBodyOk (body : List Byte) : Bool := 44 ≤ body.length

/-- The checks on a command. -/
def Instr.wellFormed : Instr → Bool
  | .ptpEventTransmit _ _ body => ptpBodyOk body
  | _ => true

end Sys2Proof
end

