-- ==== Sys2Proof/Tests/Slice0.lean ====
section
/-! SUPPORT. Tests: an ill-formed command is refused by its check, and each statement's hypotheses are met. -/

open Sys2Proof Sys2Proof.Machine

theorem test_reset_queue_is_empty : State.reset.pending = [] := by decide
end

section
/-! Event queues that are full (R381, R382): one equation for each way in which an offered item is handled, and the
obligation that names them all. -/

namespace Sys2Proof.Machine

/-- The GAP that opens now, with no loss counted yet (R382). -/
def State.newGap (s : State) : Gap :=
  { dropped := 0, overwritten := 0, ns := nsOf s.tb.now, sec := secOf s.tb.now % 4294967296,
    firstTick := s.tickNo % 4294967296 }

theorem satAdd_32 (c n : Nat) : satAdd 32 c n = min 4294967295 (c + n) := rfl

theorem State.bumpReg_eq (s : State) (off n : Nat) :
    s.bumpReg off n = s.setReg off (min 4294967295 (s.reg off + n)) := rfl

/-- A loss that a counter can hold counts alike in the GAP that was pending and in the one that opens. -/
theorem State.lossGap_eq (s : State) (g : Option Gap) {d o : Nat} (hd : d ≤ 4294967295) (ho : o ≤ 4294967295) :
    s.lossGap g d o =
      { g.getD s.newGap with
        dropped := min 4294967295 ((g.getD s.newGap).dropped + d)
        overwritten := min 4294967295 ((g.getD s.newGap).overwritten + o) } := by
  cases g with
  | none => simp [State.lossGap, State.newGap, hd, ho]
  | some g => simp [State.lossGap, satAdd_32]

/-- R381, first row: NORMAL and FAILSAFE drop what a full queue is offered. -/
theorem State.offer_full_drops (s : State) (e : Nat) (ev : Event)
    (hfull : (s.queue e).items.length = queueSize) (hsvc : s.svc = 1 ∨ s.svc = 4) :
    s.offer e ev =
      (s.setQueue e { s.queue e with gap := some (s.lossGap (s.queue e).gap 1 0) }).bumpReg (TLM_EQ_DROP e) 1 := by
  simp [State.offer, hfull, hsvc]

/-- R381, second row: every other service state overwrites. -/
theorem State.offer_full_overwrites (s : State) (e : Nat) (ev : Event)
    (hfull : (s.queue e).items.length = queueSize) (hsvc : ¬ (s.svc = 1 ∨ s.svc = 4)) :
    s.offer e ev = s.overwrite e (s.queue e) ev := by
  simp only [State.offer, hfull, Nat.lt_irrefl, if_false, if_neg hsvc]

/-- An overwritten item that is no GAP counts in TLM_EQ_LOST and in the pending GAP. -/
theorem State.overwrite_of_not_gap (s : State) (e : Nat) {q : EventQueue} (ev : Event) {old : Event} {rest : List Event}
    (hitems : q.items = old :: rest) (hold : old.typ ≠ 0x7F) :
    s.overwrite e q ev =
      (s.setQueue e { q with items := rest ++ [ev], gap := some (s.lossGap q.gap 0 1) }).bumpReg (TLM_EQ_LOST e) 1 := by
  simp [State.overwrite, hitems, hold]

/-- Settles O50: each row of R381's table is one equation of `State.offer`, and `State.lossGap_eq` makes the GAP that
was pending and the one that opens a single case. -/
theorem fullQueuesFollowTheServiceState : Obligations.FullQueuesFollowTheServiceState := by
  unfold Obligations.FullQueuesFollowTheServiceState
  intro e ev old rest s g hitems hlen hg
  have hfull : (s.queue e).items.length = queueSize := by rw [hitems, hlen]; rfl
  have hgap : g = (s.queue e).gap.getD s.newGap := by
    rw [hg]; cases (s.queue e).gap <;> rfl
  subst hgap
  refine ⟨?drop, ?overwrite⟩
  case drop =>
    rintro hsvc t rfl
    rw [s.offer_full_drops e ev hfull hsvc, s.lossGap_eq _ (by decide) (by decide)]
    rfl
  case overwrite =>
    rintro hsvc hold t rfl
    rw [s.offer_full_overwrites e ev hfull (by omega), s.overwrite_of_not_gap e ev hitems hold,
      s.lossGap_eq _ (by decide) (by decide)]
    rfl

/-! Each clause is met by a machine whose queue 0 is full of one item. -/

/-- A machine in service state `svc` with the item `old` in every slot of queue 0 and no GAP pending. -/
def fullQueueIn (svc : Nat) (old : Event) : State :=
  (State.reset.setFld GLB_BOOT_SVC svc).setQueue 0 { items := List.replicate queueSize old }

theorem fullQueueIn_items (svc : Nat) (old : Event) :
    ((fullQueueIn svc old).queue 0).items = old :: List.replicate 16383 old := rfl

theorem fullQueueIn_failsafe_counts_drop :
    ((fullQueueIn 4 { typ := 0x10 }).offer 0 { typ := 0x20 }).reg (TLM_EQ_DROP 0) = 1 := by
  obtain ⟨hdrop, -⟩ := fullQueuesFollowTheServiceState 0 { typ := 0x20 } _ _ _ _
    (fullQueueIn_items 4 { typ := 0x10 }) (by rw [List.length_cons, List.length_replicate]) rfl
  rw [hdrop (.inr (by decide)) _ rfl]
  decide

theorem fullQueueIn_test_counts_lost :
    ((fullQueueIn 2 { typ := 0x10 }).offer 0 { typ := 0x20 }).reg (TLM_EQ_LOST 0) = 1 := by
  obtain ⟨-, hlost⟩ := fullQueuesFollowTheServiceState 0 { typ := 0x20 } _ _ _ _
    (fullQueueIn_items 2 { typ := 0x10 }) (by rw [List.length_cons, List.length_replicate]) rfl
  rw [hlost (.inr (.inl (by decide))) (by decide) _ rfl]
  decide

end Sys2Proof.Machine
end

section
/-! REGACC (R588): what a BAR0 read leaves of the TAP, one equation for each form of the scan, and the obligation that
names them all. -/

namespace Sys2Proof.Machine

/-! ### A BAR0 read leaves the TAP alone -/

@[simp] theorem State.readEnergy_test (s : State) (f p a : Nat) : (s.readEnergy f p a).test = s.test := rfl

@[simp] theorem State.readQueue_test (s : State) (e : Nat) : (s.readQueue e).test = s.test := by
  unfold State.readQueue
  split
  · simp
  · split <;> simp

@[simp] theorem State.readEffect_test (s : State) (d : RegDesc) (i w off : Nat) :
    (s.readEffect d i w off).test = s.test := by
  unfold State.readEffect
  dsimp only
  repeat' split
  all_goals simp

@[simp] theorem State.readWord_test (s : State) (off : Nat) : (s.readWord off).1.test = s.test := by
  unfold State.readWord
  repeat' split
  all_goals simp

@[simp] theorem State.countErrors_test (s : State) (off n : Nat) : (s.countErrors off n).test = s.test := by
  unfold State.countErrors
  dsimp only
  repeat' split
  all_goals simp

/-! ### The forms of a scan of REGACC -/

/-- The state after REGACC is loaded and its Capture-DR has returned the data of the access before. -/
def State.regaccCaptured (s : State) : State := { s with test := { s.test with ir := 0x20, captured := s.test.regacc } }

theorem State.regaccCaptured_eq (s : State) :
    (s.loadIr 0x20).capture (s.loadIr 0x20).test.regacc = s.regaccCaptured := rfl

theorem State.regaccCaptured_freeVal (s : State) (n : Nat) : s.regaccCaptured.freeVal n = s.freeVal n := rfl

@[simp] theorem State.loadIr_regaccMay (s : State) (code : Nat) : (s.loadIr code).regaccMay = s.regaccMay := rfl

theorem State.regaccMay_iff (s : State) : s.regaccMay = true ↔ s.svc = 2 ∨ s.bit TKR_STAT_DEBUG = true := by
  simp [State.regaccMay, State.debug]

theorem State.regacc_read {s : State} {off : Nat} (data counted : Nat) (hmay : s.regaccMay = true) (hoff : off % 4 = 0) :
    s.regacc false off data counted =
      { ((s.regaccCaptured.countErrors off counted).readWord off).1 with
        test := { s.regaccCaptured.test with regacc := ((s.regaccCaptured.countErrors off counted).readWord off).2 } } := by
  simp [State.regacc, hmay, hoff, State.regaccCaptured_eq]

theorem State.regacc_write {s : State} {off : Nat} (data counted : Nat) (hmay : s.regaccMay = true) (hoff : off % 4 = 0) :
    s.regacc true off data counted =
      ({ s.regaccCaptured with
         test := { s.regaccCaptured.test with regacc := s.freeVal (2 ^ 32) } } : State).drew.writeWord true off data := by
  simp [State.regacc, hmay, hoff, State.regaccCaptured_eq, State.regaccCaptured_freeVal]

theorem State.regacc_dropped {s : State} (write : Bool) (off data counted : Nat) (hmay : s.regaccMay = false) :
    s.regacc write off data counted = { s with test := { s.test with ir := 0x20, regacc := 0, captured := 0 } } := by
  unfold State.regacc
  exact if_pos hmay

/-- Settles O60: each form of the scan is one equation of `State.regacc`; the data that Capture-DR returned survive the
read that follows because a BAR0 read leaves the TAP alone (`State.readWord_test`). -/
theorem regaccAccessesOneWord : Obligations.RegaccAccessesOneWord := by
  unfold Obligations.RegaccAccessesOneWord
  refine ⟨?access, ?kept, ?dropped⟩
  case access =>
    rintro off data counted s t x hmay hoff rfl
    rw [← s.regaccMay_iff] at hmay
    refine ⟨?read, s.freeVal (2 ^ 32), ?write⟩
    case read =>
      rintro rfl
      simp only [exec, execJtagRegacc, State.regacc_read _ _ hmay hoff, State.readWord_test, State.countErrors_test]
      rfl
    case write =>
      simp only [exec, execJtagRegacc, State.regacc_write _ _ hmay hoff]
      rfl
  case kept =>
    rintro off data counted s t u hmay hoff rfl hnext
    rw [← s.regaccMay_iff] at hmay
    simp only [exec, execJtagRegacc, State.regacc_read _ _ hmay hoff] at hnext
    cases hnext
    exact ⟨rfl, rfl⟩
  case dropped =>
    intro w off data counted s hsvc hdebug
    have hmay : s.regaccMay = false := by
      rw [← Bool.not_eq_true, s.regaccMay_iff]
      simp [hsvc, hdebug]
    simp only [exec, execJtagRegacc, State.regacc_dropped _ _ _ _ hmay]

/-! Each clause is met by a machine whose REGACC holds the data of an access before. -/

/-- A machine in service state `svc`, with debug operation as `debug` says, that holds `n` for the next Capture-DR of REGACC. -/
def regaccHolds (svc debug n : Nat) : State :=
  { (State.reset.setFld GLB_BOOT_SVC svc).setFld TKR_STAT_DEBUG debug with test := { regacc := n } }

/-- TEST service: the scan that reads GLB_DEVID returns the data before and keeps the device identifier. -/
theorem regaccHolds_test_reads_devid :
    ∃ t, exec (.jtagRegacc false (BitVec.ofNat 32 GLB_DEVID) 0 0) (regaccHolds 2 0 7) = .next t ∧
      t.test.regacc = 0x5A4A5120 ∧ t.test.captured = 7 := by
  obtain ⟨haccess, hkept, -⟩ := regaccAccessesOneWord
  obtain ⟨hread, -⟩ := haccess (BitVec.ofNat 32 GLB_DEVID) 0 0 (regaccHolds 2 0 7) _ _ (.inl (by decide)) (by decide) rfl
  obtain ⟨hdata, hcaptured⟩ := hkept _ _ _ _ _ _ (.inl (by decide)) (by decide) rfl (hread rfl)
  exact ⟨_, hread rfl, hdata.trans (by decide), hcaptured.trans (by decide)⟩

theorem regAt_glbLock : regAt GLB_LOCK = some (⟨GLB_LOCK, [], [{}]⟩, 0, 0) := by decide

theorem State.writeWord_glbLock (s : State) (jtag : Bool) : s.writeWord jtag GLB_LOCK 1 = s.raise GLB_LOCK_v := by
  have hdom : domainOf GLB_LOCK = some 0 := by decide
  have hblock : blockOf GLB_LOCK = 0 := by decide
  have hrwt : (wordAt GLB_LOCK).rwt = 0 := by decide
  have hset : bitB 1 0 = true := by decide
  simp [State.writeWord, hdom, regAt_glbLock, State.domOn, State.write32, hrwt, hblock, State.writeGlb, hset]

theorem State.writeWord_glbLock_bit (s : State) (jtag : Bool) (hwf : swf regDflt s.regs = true) :
    (s.writeWord jtag GLB_LOCK 1).bit GLB_LOCK_v = true := by
  have hfld : (s.setFld GLB_LOCK_v 1).fld GLB_LOCK_v = 1 := s.fld_setFld GLB_LOCK_v 1 (by decide) hwf
  simp [State.writeWord_glbLock, State.raise, State.bit, hfld]

/-- Debug operation: the scan that writes GLB_LOCK locks. -/
theorem regaccHolds_debug_locks :
    ∃ t, exec (.jtagRegacc true (BitVec.ofNat 32 GLB_LOCK) 1 0) (regaccHolds 1 1 7) = .next t ∧ t.bit GLB_LOCK_v = true := by
  obtain ⟨haccess, -, -⟩ := regaccAccessesOneWord
  obtain ⟨-, w, hwrite⟩ := haccess (BitVec.ofNat 32 GLB_LOCK) 1 0 (regaccHolds 1 1 7) _ (State.reset, 0)
    (.inr (by decide)) (by decide) rfl
  have hwf : swf regDflt (regaccHolds 1 1 7).regs = true := by decide
  exact ⟨_, hwrite, State.writeWord_glbLock_bit _ true hwf⟩

/-- NORMAL service without debug operation: the write is dropped, and the data before are lost. -/
theorem regaccHolds_normal_drops :
    ∃ t, exec (.jtagRegacc true (BitVec.ofNat 32 GLB_LOCK) 1 0) (regaccHolds 1 0 7) = .next t ∧
      t.bit GLB_LOCK_v = false ∧ t.test.regacc = 0 ∧ t.test.captured = 0 := by
  obtain ⟨-, -, hdropped⟩ := regaccAccessesOneWord
  exact ⟨_, hdropped _ _ _ _ _ (by decide) (by decide), by decide, rfl, rfl⟩

end Sys2Proof.Machine
end

section
/-! Steps and runs: what every command keeps, and that none stops the machine (O1 to O6). -/

open Sys2Proof Sys2Proof.Machine

/-- Settles O1: the front of the queue is what `step` matches on. -/
theorem stepRunsTheFrontCommand : Obligations.StepRunsTheFrontCommand := by
  intro c s q
  rfl

/-- Settles O2: an empty queue makes `step` idle for one cycle (log entry 1). -/
theorem idleLetsOneCyclePass : Obligations.IdleLetsOneCyclePass := by
  intro s hempty
  unfold step
  split
  case h_1 => rfl
  case h_2 c rest hcons => exact absurd (hempty.symm.trans hcons) (List.cons_ne_nil c rest).symm

/-- Settles O3: at reset the register file, the event queues and the error log are all empty. -/
theorem resetMeetsTheInvariant : Obligations.ResetMeetsTheInvariant := by
  refine ⟨rfl, ?noQueue, Nat.zero_le 64⟩
  intro p hp
  exact absurd hp List.not_mem_nil

namespace Sys2Proof.Machine

/-- Each command keeps the invariant and the queue `q` of waiting commands: one arm per row of the opcode table. -/
theorem exec_keeps {q : List Instr} {s t : State} (hs : Good q s) : ∀ c : Instr, exec c s = .next t → Good q t
  | .powerOnReset mode, hnext => keeps_execPowerOnReset mode _ hs _ hnext
  | .brownout mode, hnext => keeps_execBrownout mode _ hs _ hnext
  | .pinWarmReset mode, hnext => keeps_execPinWarmReset mode _ hs _ hnext
  | .hostDeviceReset which, hnext => keeps_execHostDeviceReset which _ hs _ hnext
  | .perstHifDomainReset, hnext => keeps_execPerstHifDomainReset _ hs _ hnext
  | .boot table signed master, hnext => keeps_execBoot table signed master _ hs _ hnext
  | .dramTrainingDone chB bytes, hnext => keeps_execDramTrainingDone chB bytes _ hs _ hnext
  | .memoryInitDone, hnext => keeps_execMemoryInitDone _ hs _ hnext
  | .meterRestore, hnext => keeps_execMeterRestore _ hs _ hnext
  | .ledgerRead, hnext => keeps_execLedgerRead _ hs _ hnext
  | .riderReady, hnext => keeps_execRiderReady _ hs _ hnext
  | .pcieLinkTraining, hnext => keeps_execPcieLinkTraining _ hs _ hnext
  | .thermTrip, hnext => keeps_execThermTrip _ hs _ hnext
  | .clkRefLost, hnext => keeps_execClkRefLost _ hs _ hnext
  | .clkRefReturned, hnext => keeps_execClkRefReturned _ hs _ hnext
  | .pllLockLost k, hnext => keeps_execPllLockLost k _ hs _ hnext
  | .pllRelock k, hnext => keeps_execPllRelock k _ hs _ hnext
  | .domainPowerRequest v, hnext => keeps_execDomainPowerRequest v _ hs _ hnext
  | .domainPowerUpDone d, hnext => keeps_execDomainPowerUpDone d _ hs _ hnext
  | .domainReset d v, hnext => keeps_execDomainReset d v _ hs _ hnext
  | .registerWrite off size v, hnext => keeps_execRegisterWrite off size v _ hs _ hnext
  | .reg64LowWordRead off size, hnext => keeps_execReg64LowWordRead off size _ hs _ hnext
  | .reg64HighWordWrite off v, hnext => keeps_execReg64HighWordWrite off v _ hs _ hnext
  | .clearOnRead off size counted, hnext => keeps_execClearOnRead off size counted _ hs _ hnext
  | .glbLockSet, hnext => keeps_execGlbLockSet _ hs _ hnext
  | .svcRequestNormal v, hnext => keeps_execSvcRequestNormal v _ hs _ hnext
  | .svcEnterTest v, hnext => keeps_execSvcEnterTest v _ hs _ hnext
  | .svcLeaveTest v, hnext => keeps_execSvcLeaveTest v _ hs _ hnext
  | .tbTrackSet p, hnext => keeps_execTbTrackSet p _ hs _ hnext
  | .tbTrackClear p, hnext => keeps_execTbTrackClear p _ hs _ hnext
  | .tbLockSet p, hnext => keeps_execTbLockSet p _ hs _ hnext
  | .tbLockClear p, hnext => keeps_execTbLockClear p _ hs _ hnext
  | .tbHoExit p, hnext => keeps_execTbHoExit p _ hs _ hnext
  | .tbServoChange p hostOwns, hnext => keeps_execTbServoChange p hostOwns _ hs _ hnext
  | .tbIncrCommit p v, hnext => keeps_execTbIncrCommit p v _ hs _ hnext
  | .tbAdj p v, hnext => keeps_execTbAdj p v _ hs _ hnext
  | .tbStepCommit p v, hnext => keeps_execTbStepCommit p v _ hs _ hnext
  | .tbSnapshot v, hnext => keeps_execTbSnapshot v _ hs _ hnext
  | .tbPtpCfgWrite intv v, hnext => keeps_execTbPtpCfgWrite intv v _ hs _ hnext
  | .tbGmIdWrite id, hnext => keeps_execTbGmIdWrite id _ hs _ hnext
  | .announceTimeout, hnext => keeps_execAnnounceTimeout _ hs _ hnext
  | .syncTimeout, hnext => keeps_execSyncTimeout _ hs _ hnext
  | .ppsLossTimeout, hnext => keeps_execPpsLossTimeout _ hs _ hnext
  | .ptpMessageReceive w m, hnext => keeps_execPtpMessageReceive w m _ hs _ hnext
  | .ptpEventTransmit w kind body, hnext => keeps_execPtpEventTransmit w kind body _ hs _ hnext
  | .ppsOutEdge, hnext => keeps_execPpsOutEdge _ hs _ hnext
  | .ppsOutPulseEnd, hnext => keeps_execPpsOutPulseEnd _ hs _ hnext
  | .ppsInEdge falling pulseNs, hnext => keeps_execPpsInEdge falling pulseNs _ hs _ hnext
  | .tickRunStart v, hnext => keeps_execTickRunStart v _ hs _ hnext
  | .tickRunStop v, hnext => keeps_execTickRunStop v _ hs _ hnext
  | .tkDepthWrite v, hnext => keeps_execTkDepthWrite v _ hs _ hnext
  | .firstBoundary, hnext => keeps_execFirstBoundary _ hs _ hnext
  | .tickBoundary errs, hnext => keeps_execTickBoundary errs _ hs _ hnext
  | .stoppingBoundary, hnext => keeps_execStoppingBoundary _ hs _ hnext
  | .composeStart headers, hnext => keeps_execComposeStart headers _ hs _ hnext
  | .segmentCompose seg stallNs aloneNs host dram errs, hnext => keeps_execSegmentCompose seg stallNs aloneNs host dram errs _ hs _ hnext
  | .composeDeadline, hnext => keeps_execComposeDeadline _ hs _ hnext
  | .curbSolve, hnext => keeps_execCurbSolve _ hs _ hnext
  | .telemetryClose, hnext => keeps_execTelemetryClose _ hs _ hnext
  | .freeClose, hnext => keeps_execFreeClose _ hs _ hnext
  | .partEncode path starvedNs l3 level errs, hnext => keeps_execPartEncode path starvedNs l3 level errs _ hs _ hnext
  | .segmentSigned seg, hnext => keeps_execSegmentSigned seg _ hs _ hnext
  | .partReady seg, hnext => keeps_execPartReady seg _ hs _ hnext
  | .checkHoldTimeout seg, hnext => keeps_execCheckHoldTimeout seg _ hs _ hnext
  | .rasterStart team, hnext => keeps_execRasterStart team _ hs _ hnext
  | .rasterLine port, hnext => keeps_execRasterLine port _ hs _ hnext
  | .rasterEnd team, hnext => keeps_execRasterEnd team _ hs _ hnext
  | .looseUpperBound team, hnext => keeps_execLooseUpperBound team _ hs _ hnext
  | .dataFrameTransmit port errs, hnext => keeps_execDataFrameTransmit port errs _ hs _ hnext
  | .managementFrameTransmit port, hnext => keeps_execManagementFrameTransmit port _ hs _ hnext
  | .releaseDeadline, hnext => keeps_execReleaseDeadline _ hs _ hnext
  | .ethLinkChange w up, hnext => keeps_execEthLinkChange w up _ hs _ hnext
  | .sacnDiscoverySend port, hnext => keeps_execSacnDiscoverySend port _ hs _ hnext
  | .dmxPacketStart port, hnext => keeps_execDmxPacketStart port _ hs _ hnext
  | .rdmResponseReceive port reply, hnext => keeps_execRdmResponseReceive port reply _ hs _ hnext
  | .rdmResponseTimeout port, hnext => keeps_execRdmResponseTimeout port _ hs _ hnext
  | .sqDoorbell r ofs size v, hnext => keeps_execSqDoorbell r ofs size v _ hs _ hnext
  | .cqDoorbell r ofs size v, hnext => keeps_execCqDoorbell r ofs size v _ hs _ hnext
  | .eqDoorbell r ofs size v, hnext => keeps_execEqDoorbell r ofs size v _ hs _ hnext
  | .ringEnable r ctrl, hnext => keeps_execRingEnable r ctrl _ hs _ hnext
  | .ringDisable r ctrl, hnext => keeps_execRingDisable r ctrl _ hs _ hnext
  | .descriptorFetch r data, hnext => keeps_execDescriptorFetch r data _ hs _ hnext
  | .descriptorStart, hnext => keeps_execDescriptorStart _ hs _ hnext
  | .fenceWaitRelease, hnext => keeps_execFenceWaitRelease _ hs _ hnext
  | .fenceWaitTimeout r, hnext => keeps_execFenceWaitTimeout r _ hs _ hnext
  | .completionPost c written, hnext => keeps_execCompletionPost c written _ hs _ hnext
  | .msixCoalesceTimeout r, hnext => keeps_execMsixCoalesceTimeout r _ hs _ hnext
  | .fenceBind k v, hnext => keeps_execFenceBind k v _ hs _ hnext
  | .nop r, hnext => keeps_execNop r _ hs _ hnext
  | .fence r, hnext => keeps_execFence r _ hs _ hnext
  | .layerRegister r, hnext => keeps_execLayerRegister r _ hs _ hnext
  | .layerUpdate r, hnext => keeps_execLayerUpdate r _ hs _ hnext
  | .layerRetire r, hnext => keeps_execLayerRetire r _ hs _ hnext
  | .mapLoad r payload, hnext => keeps_execMapLoad r payload _ hs _ hnext
  | .mapPatch r payload, hnext => keeps_execMapPatch r payload _ hs _ hnext
  | .colourLoad r payload, hnext => keeps_execColourLoad r payload _ hs _ hnext
  | .cueStep r payload, hnext => keeps_execCueStep r payload _ hs _ hnext
  | .gaitChange r, hnext => keeps_execGaitChange r _ hs _ hnext
  | .curbLimits r payload, hnext => keeps_execCurbLimits r payload _ hs _ hnext
  | .phasePolicy r payload, hnext => keeps_execPhasePolicy r payload _ hs _ hnext
  | .driveConfig r payload, hnext => keeps_execDriveConfig r payload _ hs _ hnext
  | .nodeCommand r, hnext => keeps_execNodeCommand r _ hs _ hnext
  | .rdmRequest r, hnext => keeps_execRdmRequest r _ hs _ hnext
  | .rdmDiscovery r, hnext => keeps_execRdmDiscovery r _ hs _ hnext
  | .nodeCommandRetryTimeout id, hnext => keeps_execNodeCommandRetryTimeout id _ hs _ hnext
  | .meterConfig r payload, hnext => keeps_execMeterConfig r payload _ hs _ hnext
  | .reinstate r, hnext => keeps_execReinstate r _ hs _ hnext
  | .keyInstall r payload nor, hnext => keeps_execKeyInstall r payload nor _ hs _ hnext
  | .keyInvalidate r payload nor, hnext => keeps_execKeyInvalidate r payload nor _ hs _ hnext
  | .keyArmDebug r payload nor, hnext => keeps_execKeyArmDebug r payload nor _ hs _ hnext
  | .keyRotateAuthority r payload nor otp, hnext => keeps_execKeyRotateAuthority r payload nor otp _ hs _ hnext
  | .attestRequest r, hnext => keeps_execAttestRequest r _ hs _ hnext
  | .imageChunk r payload written, hnext => keeps_execImageChunk r payload written _ hs _ hnext
  | .nodeImageChunk r payload, hnext => keeps_execNodeImageChunk r payload _ hs _ hnext
  | .tandemRoleSwap r, hnext => keeps_execTandemRoleSwap r _ hs _ hnext
  | .tandemRolePeriod r, hnext => keeps_execTandemRolePeriod r _ hs _ hnext
  | .tandemRoleCancel r, hnext => keeps_execTandemRoleCancel r _ hs _ hnext
  | .regStage r, hnext => keeps_execRegStage r _ hs _ hnext
  | .networkCueReceive port dstPort datagram, hnext => keeps_execNetworkCueReceive port dstPort datagram _ hs _ hnext
  | .streamPacketReceive k p, hnext => keeps_execStreamPacketReceive k p _ hs _ hnext
  | .streamLossTimeout k, hnext => keeps_execStreamLossTimeout k _ hs _ hnext
  | .sacnPacketReceive port p, hnext => keeps_execSacnPacketReceive port p _ hs _ hnext
  | .sacnSyncReceive port cid address, hnext => keeps_execSacnSyncReceive port cid address _ hs _ hnext
  | .sacnSourceTimeout u cid, hnext => keeps_execSacnSourceTimeout u cid _ hs _ hnext
  | .mapRegionWrite size v, hnext => keeps_execMapRegionWrite size v _ hs _ hnext
  | .localTempWrite sensor v, hnext => keeps_execLocalTempWrite sensor v _ hs _ hnext
  | .trimTargetSet node c t, hnext => keeps_execTrimTargetSet node c t _ hs _ hnext
  | .curbCorrClear, hnext => keeps_execCurbCorrClear _ hs _ hnext
  | .pwmPeriodStart feed cycles, hnext => keeps_execPwmPeriodStart feed cycles _ hs _ hnext
  | .qualifyWindowEnd ch lowUv highUv adc, hnext => keeps_execQualifyWindowEnd ch lowUv highUv adc _ hs _ hnext
  | .measurementWindowEnd feed, hnext => keeps_execMeasurementWindowEnd feed _ hs _ hnext
  | .phasePlanCommit feed, hnext => keeps_execPhasePlanCommit feed _ hs _ hnext
  | .tlmFrameReceive port frame, hnext => keeps_execTlmFrameReceive port frame _ hs _ hnext
  | .eventQueueRead e, hnext => keeps_execEventQueueRead e _ hs _ hnext
  | .meterSecond feed clocks, hnext => keeps_execMeterSecond feed clocks _ hs _ hnext
  | .meterFeedStart feed, hnext => keeps_execMeterFeedStart feed _ hs _ hnext
  | .meterClockLost feed, hnext => keeps_execMeterClockLost feed _ hs _ hnext
  | .meterClockReturn feed, hnext => keeps_execMeterClockReturn feed _ hs _ hnext
  | .lineCycleEnd feed, hnext => keeps_execLineCycleEnd feed _ hs _ hnext
  | .meterLatch feed ledgerOk, hnext => keeps_execMeterLatch feed ledgerOk _ hs _ hnext
  | .meterMtrPhERead feed p a, hnext => keeps_execMeterMtrPhERead feed p a _ hs _ hnext
  | .meterSave ledgerOk, hnext => keeps_execMeterSave ledgerOk _ hs _ hnext
  | .meterSaveComplete result, hnext => keeps_execMeterSaveComplete result _ hs _ hnext
  | .factoryTrimUpdate raw, hnext => keeps_execFactoryTrimUpdate raw _ hs _ hnext
  | .farCaptureStart ctrl, hnext => keeps_execFarCaptureStart ctrl _ hs _ hnext
  | .farCaptureStop ctrl, hnext => keeps_execFarCaptureStop ctrl _ hs _ hnext
  | .farCaptureEnd, hnext => keeps_execFarCaptureEnd _ hs _ hnext
  | .tandemEnable v, hnext => keeps_execTandemEnable v _ hs _ hnext
  | .tandemDisable v, hnext => keeps_execTandemDisable v _ hs _ hnext
  | .tandemHbSend, hnext => keeps_execTandemHbSend _ hs _ hnext
  | .tandemHbReceived h m offset, hnext => keeps_execTandemHbReceived h m offset _ hs _ hnext
  | .partnerLinkLost, hnext => keeps_execPartnerLinkLost _ hs _ hnext
  | .tandemLaneChange lane up, hnext => keeps_execTandemLaneChange lane up _ hs _ hnext
  | .aliveLineStopped, hnext => keeps_execAliveLineStopped _ hs _ hnext
  | .aliveLineRunning, hnext => keeps_execAliveLineRunning _ hs _ hnext
  | .aliveReadbackFail, hnext => keeps_execAliveReadbackFail _ hs _ hnext
  | .tandemHelloReceived h m, hnext => keeps_execTandemHelloReceived h m _ hs _ hnext
  | .tandemSearchTimeout, hnext => keeps_execTandemSearchTimeout _ hs _ hnext
  | .fragmentTimeout lane, hnext => keeps_execFragmentTimeout lane _ hs _ hnext
  | .jrn h e, hnext => keeps_execJrn h e _ hs _ hnext
  | .jack h index, hnext => keeps_execJack h index _ hs _ hnext
  | .jackTimeout, hnext => keeps_execJackTimeout _ hs _ hnext
  | .jcmt h index bound, hnext => keeps_execJcmt h index bound _ hs _ hnext
  | .latch h r, hnext => keeps_execLatch h r _ hs _ hnext
  | .latchRecordTimeout, hnext => keeps_execLatchRecordTimeout _ hs _ hnext
  | .cset h tick done held, hnext => keeps_execCset h tick done held _ hs _ hnext
  | .csetWaitTimeout, hnext => keeps_execCsetWaitTimeout _ hs _ hnext
  | .sig h tick sigs, hnext => keeps_execSig h tick sigs _ hs _ hnext
  | .shadowLaneDone upset, hnext => keeps_execShadowLaneDone upset _ hs _ hnext
  | .shd h tick seg sig shadow, hnext => keeps_execShd h tick seg sig shadow _ hs _ hnext
  | .fault h cause progress, hnext => keeps_execFault h cause progress _ hs _ hnext
  | .role h swap, hnext => keeps_execRole h swap _ hs _ hnext
  | .state h b written, hnext => keeps_execState h b written _ hs _ hnext
  | .join h bound, hnext => keeps_execJoin h bound _ hs _ hnext
  | .ingest h m, hnext => keeps_execIngest h m _ hs _ hnext
  | .resyncRound bytes left streams, hnext => keeps_execResyncRound bytes left streams _ hs _ hnext
  | .resyncRetry, hnext => keeps_execResyncRetry _ hs _ hnext
  | .scrubStep onChip err, hnext => keeps_execScrubStep onChip err _ hs _ hnext
  | .watchListRead errs, hnext => keeps_execWatchListRead errs _ hs _ hnext
  | .errorRecordClose, hnext => keeps_execErrorRecordClose _ hs _ hnext
  | .handlerWatchdogTimeout, hnext => keeps_execHandlerWatchdogTimeout _ hs _ hnext
  | .rowSpare, hnext => keeps_execRowSpare _ hs _ hnext
  | .riderRestart, hnext => keeps_execRiderRestart _ hs _ hnext
  | .failsafeSequence, hnext => keeps_execFailsafeSequence _ hs _ hnext
  | .sessionReserveWrite ok, hnext => keeps_execSessionReserveWrite ok _ hs _ hnext
  | .keyGraceExpiry slot, hnext => keeps_execKeyGraceExpiry slot _ hs _ hnext
  | .keyGraceNotice slot, hnext => keeps_execKeyGraceNotice slot _ hs _ hnext
  | .remaskRound, hnext => keeps_execRemaskRound _ hs _ hnext
  | .entropyFailure, hnext => keeps_execEntropyFailure _ hs _ hnext
  | .trialConfirm, hnext => keeps_execTrialConfirm _ hs _ hnext
  | .configMigration, hnext => keeps_execConfigMigration _ hs _ hnext
  | .mg0ImageChunk ip port dst dport datagram written, hnext => keeps_execMg0ImageChunk ip port dst dport datagram written _ hs _ hnext
  | .arpRequest target ip mac, hnext => keeps_execArpRequest target ip mac _ hs _ hnext
  | .imgPeerGo v, hnext => keeps_execImgPeerGo v _ hs _ hnext
  | .imgPeerStop v, hnext => keeps_execImgPeerStop v _ hs _ hnext
  | .cueListLoad, hnext => keeps_execCueListLoad _ hs _ hnext
  | .shuCueSubmit, hnext => keeps_execShuCueSubmit _ hs _ hnext
  | .shuGo p v, hnext => keeps_execShuGo p v _ hs _ hnext
  | .shuStop p v, hnext => keeps_execShuStop p v _ hs _ hnext
  | .shuBlackout p v, hnext => keeps_execShuBlackout p v _ hs _ hnext
  | .shuMasterWrite p v, hnext => keeps_execShuMasterWrite p v _ hs _ hnext
  | .shuReinst p high v, hnext => keeps_execShuReinst p high v _ hs _ hnext
  | .shuEvtRead p, hnext => keeps_execShuEvtRead p _ hs _ hnext
  | .jtagTestLogicReset, hnext => keeps_execJtagTestLogicReset _ hs _ hnext
  | .jtagExtest op, hnext => keeps_execJtagExtest op _ hs _ hnext
  | .jtagSamplePreload op, hnext => keeps_execJtagSamplePreload op _ hs _ hnext
  | .jtagIdcode, hnext => keeps_execJtagIdcode _ hs _ hnext
  | .jtagClamp op, hnext => keeps_execJtagClamp op _ hs _ hnext
  | .jtagHighz op, hnext => keeps_execJtagHighz op _ hs _ hnext
  | .jtagExtestPulse op, hnext => keeps_execJtagExtestPulse op _ hs _ hnext
  | .jtagExtestTrain op, hnext => keeps_execJtagExtestTrain op _ hs _ hnext
  | .jtagRegacc write off data counted, hnext => keeps_execJtagRegacc write off data counted _ hs _ hnext
  | .jtagOtpAuth0 go hash check ok, hnext => keeps_execJtagOtpAuth0 go hash check ok _ hs _ hnext
  | .jtagBypass code, hnext => keeps_execJtagBypass code _ hs _ hnext
  | .slewComplete, hnext => keeps_execSlewComplete _ hs _ hnext
  | .timeCaptureRead c, hnext => keeps_execTimeCaptureRead c _ hs _ hnext
  | .outOfStep, hnext => keeps_execOutOfStep _ hs _ hnext
  | .dmxPacketEnd port wrong, hnext => keeps_execDmxPacketEnd port wrong _ hs _ hnext
  | .meteringSample feed high codes plain, hnext => keeps_execMeteringSample feed high codes plain _ hs _ hnext
  | .prbsCheckerLocked lane, hnext => keeps_execPrbsCheckerLocked lane _ hs _ hnext
  | .prbsCheckerLockLost lane errors, hnext => keeps_execPrbsCheckerLockLost lane errors _ hs _ hnext
  | .pcieLoopbackEntry, hnext => keeps_execPcieLoopbackEntry _ hs _ hnext
  | .sessionReserveDone, hnext => keeps_execSessionReserveDone _ hs _ hnext

/-- A command of the opcode table answers a next state; KEY_ARM_DEBUG and DOMAIN_RESET do so in each of their two forms. -/
theorem exec_answers_next (c : Instr) (s : State) : ∃ t, exec c s = .next t := by
  cases c with
  | keyArmDebug r => cases r <;> exact ⟨_, rfl⟩
  | domainReset d v => cases v <;> exact ⟨_, rfl⟩
  | _ => exact ⟨_, rfl⟩

/-- A step of a machine that meets the invariant keeps it: an idle cycle touches the timebase alone, a command is `exec_keeps`. -/
theorem step_keeps_inv {s t : State} (hs : s.Inv) (h : step s = .next t) : t.Inv := by
  unfold step at h
  split at h
  case h_1 =>
    cases h
    exact hs
  case h_2 c rest _ =>
    have hrest : Good rest { s with pending := rest } := ⟨rfl, hs⟩
    exact (exec_keeps hrest c h).2

theorem step_answers_next (s : State) : ∃ t, step s = .next t := by
  unfold step
  split
  case h_1 => exact ⟨_, rfl⟩
  case h_2 c rest _ => exact exec_answers_next c { s with pending := rest }

theorem run_succ_of_step {M : Host.Core} {s t : M.State} (h : M.step s = .next t) (n : Nat) : M.run (n + 1) s = M.run n t := by
  rw [Host.Core.run, h]

theorem run_answers_next (n : Nat) : ∀ s : State, SafeFor s n := by
  induction n with
  | zero => exact fun s => ⟨s, rfl⟩
  | succ n ih =>
    intro s
    obtain ⟨t, ht⟩ := step_answers_next s
    obtain ⟨u, hu⟩ := ih t
    exact ⟨u, (run_succ_of_step (M := core) ht n).trans hu⟩

end Sys2Proof.Machine

/-- Settles O4: the invariant is one half of what `exec_keeps` keeps. -/
theorem everyStepKeepsTheInvariant : Obligations.EveryStepKeepsTheInvariant :=
  fun _ _ hs h => step_keeps_inv hs h

/-- Settles O5: the queue of commands is the other half. -/
theorem commandsLeaveTheQueueAlone : Obligations.CommandsLeaveTheQueueAlone := by
  intro c s t hs h
  have hgood : Good s.pending s := ⟨rfl, hs⟩
  exact (exec_keeps hgood c h).1

/-- Settles O6: no arm of `exec` answers a fault or a refusal, so a run of `n` steps is an induction on `n`. -/
theorem noRunIsStopped : Obligations.NoRunIsStopped :=
  ⟨exec_answers_next, run_answers_next⟩

end

section
/-! Fences (R126 to R128) and the GAP of an event queue (R382): what a signal, a removal and an overwrite leave (O9, O51). -/

namespace Sys2Proof.Machine

/-! ### Signals -/

theorem State.signal_open (s : State) (v : Nat) {f : Nat} (hopen : ¬(f = 0 ∨ 4096 ≤ f ∨ f ∈ s.hif.broken)) :
    s.signal f v = { s with hif := { s.hif with fences := sput zeroNat s.hif.fences f (max (s.fence f) (v % 2 ^ 64)) } } :=
  if_neg hopen

theorem State.signal_closed (s : State) (v : Nat) {f : Nat} (hclosed : f = 0 ∨ 4096 ≤ f ∨ f ∈ s.hif.broken) : s.signal f v = s :=
  if_pos hclosed

theorem State.fence_zero (s : State) : s.fence 0 = s.tickNo := rfl

theorem State.fence_of_ne_zero (s : State) {f : Nat} (hf : f ≠ 0) : s.fence f = sget zeroNat s.hif.fences f := if_neg hf

theorem State.signal_fence_self (s : State) {f v : Nat} (hwf : swf zeroNat s.hif.fences = true) (hv : v < 2 ^ 64)
    (hopen : ¬(f = 0 ∨ 4096 ≤ f ∨ f ∈ s.hif.broken)) : (s.signal f v).fence f = max (s.fence f) v := by
  have hf : f ≠ 0 := fun h => hopen (.inl h)
  rw [s.signal_open v hopen, State.fence_of_ne_zero _ hf, sget_sput_self _ _ _ _ hwf, Nat.mod_eq_of_lt hv, max_comm]

theorem State.signal_fence_ne (s : State) (v : Nat) {f g : Nat} (hne : g ≠ f) : (s.signal f v).fence g = s.fence g := by
  by_cases hclosed : f = 0 ∨ 4096 ≤ f ∨ f ∈ s.hif.broken
  · rw [s.signal_closed v hclosed]
  · rw [s.signal_open v hclosed]
    by_cases hg : g = 0
    · subst hg
      rfl
    · rw [State.fence_of_ne_zero _ hg, s.fence_of_ne_zero hg, sget_sput_ne _ _ _ _ hne]

theorem State.signal_frame (s : State) (f v : Nat) : s.signal f v = { s with hif := { s.hif with fences := (s.signal f v).hif.fences } } := by
  by_cases hclosed : f = 0 ∨ 4096 ≤ f ∨ f ∈ s.hif.broken
  · rw [s.signal_closed v hclosed]
  · rw [s.signal_open v hclosed]

/-- Settles O9: `State.signal` is one store of the larger value into an open fence, and nothing for any other. -/
theorem fencesTakeTheLargerValue : Obligations.FencesTakeTheLargerValue := by
  intro s f v hwf hv
  refine ⟨?larger, fun g hne => s.signal_fence_ne v hne, ?zero, s.signal_closed v, s.signal_frame f v⟩
  case larger =>
    intro hlo hhi hbroken
    refine (s.signal_fence_self hwf hv ?_).trans rfl
    rintro (rfl | h | h)
    · omega
    · omega
    · exact hbroken h
  case zero => rw [State.fence_zero, State.tickNo, State.tickNo, s.signal_frame f v]; rfl

/-- Fence 7 at 5, signalled 9 and then 3, reads 9. -/
theorem signal_nine_then_three :
    ((State.reset.signal 7 9).signal 7 3).fence 7 = 9 := by
  obtain ⟨h9, -⟩ := fencesTakeTheLargerValue State.reset 7 9 rfl (by decide)
  obtain ⟨h3, -⟩ := fencesTakeTheLargerValue (State.reset.signal 7 9) 7 3 (by decide) (by decide)
  rw [h3 (by decide) (by decide) (by decide), h9 (by decide) (by decide) (by decide)]
  decide

/-! ### GAP items -/

theorem State.removeHead_noGap (s : State) (e : Nat) {ev : Event} {rest : List Event} (hitems : (s.queue e).items = ev :: rest)
    (hgap : (s.queue e).gap = none) : s.removeHead e = s.setQueue e { s.queue e with items := rest } := by
  simp only [State.removeHead, hitems, hgap]

theorem State.removeHead_gap (s : State) (e : Nat) {ev : Event} {rest : List Event} {g : Gap}
    (hitems : (s.queue e).items = ev :: rest) (hgap : (s.queue e).gap = some g) :
    s.removeHead e = s.setQueue e { s.queue e with items := rest ++ [g.event e (s.tickNo % 2 ^ 32)], gap := none } := by
  simp only [State.removeHead, hitems, hgap]

/-- An overwritten GAP item becomes the pending GAP where there is none; it counts in no register. -/
theorem State.overwrite_gap_opens (s : State) (e : Nat) {q : EventQueue} (ev : Event) {old : Event} {rest : List Event}
    (hitems : q.items = old :: rest) (hold : old.typ = 0x7F) (hgap : q.gap = none) :
    s.overwrite e q ev = s.setQueue e { q with items := rest ++ [ev], gap := some (gapOfItem old) } := by
  simp only [State.overwrite, hitems, hold, if_true, hgap]

/-- An overwritten GAP item joins the GAP that is pending. -/
theorem State.overwrite_gap_joins (s : State) (e : Nat) {q : EventQueue} (ev : Event) {old : Event} {rest : List Event} {p : Gap}
    (hitems : q.items = old :: rest) (hold : old.typ = 0x7F) (hgap : q.gap = some p) :
    s.overwrite e q ev = s.setQueue e { q with items := rest ++ [ev], gap := some (p.join (gapOfItem old)) } := by
  simp only [State.overwrite, hitems, hold, if_true, hgap]

/-- The instant of two losses joined: the first one's only where it is strictly the earlier. -/
theorem Gap.join_instant (a b : Gap) :
    if a.sec < b.sec ∨ (a.sec = b.sec ∧ a.ns < b.ns) then (b.join a).sec = a.sec ∧ (b.join a).ns = a.ns
    else (b.join a).sec = b.sec ∧ (b.join a).ns = b.ns := by
  split
  case isTrue h => simp only [Gap.join, if_pos h, and_self]
  case isFalse h => simp only [Gap.join, if_neg h, and_self]

/-- Settles O51: `State.removeHead` and `State.overwrite` have one equation for each of the two cases of the pending GAP. -/
theorem gapsEnterWhenASlotIsFreed : Obligations.GapsEnterWhenASlotIsFreed := by
  refine ⟨?remove, ?overwrite⟩
  case remove =>
    intro e s ev rest hitems
    exact ⟨fun g hgap => s.removeHead_gap e hitems hgap, s.removeHead_noGap e hitems⟩
  case overwrite =>
    rintro e s ev old rest a b hitems hlen hsvc hold rfl
    have hfull : (s.queue e).items.length = queueSize := by rw [hitems, hlen]; rfl
    rw [s.offer_full_overwrites e ev hfull (by omega)]
    refine ⟨fun hgap => s.overwrite_gap_opens e ev hitems hold hgap, fun hgap => ?joins⟩
    case joins =>
      refine ⟨_, s.overwrite_gap_joins e ev hitems hold hgap, ?_, ?_, min_comm _ _, Gap.join_instant _ _⟩
      · rw [Nat.add_comm]; rfl
      · rw [Nat.add_comm]; rfl

end Sys2Proof.Machine
end

section
/-! The timebase: the servo owner's fields and steering (R34 to R45), the loss of a source (R38), snapshots, PTP messages and the
1PPS pins (R46 to R56) (O27 to O31). -/

namespace Sys2Proof.Machine

/-! ### What a run of time leaves alone -/

theorem State.runTo_frame (s : State) (t : Nat) : s.runTo t = { s with tb := (s.runTo t).tb } := by
  unfold State.runTo
  split <;> rfl

@[simp] theorem State.runTo_regs (s : State) (t : Nat) : (s.runTo t).regs = s.regs := by
  rw [s.runTo_frame t]

@[simp] theorem State.runTo_reg (s : State) (t off : Nat) : (s.runTo t).reg off = s.reg off := by
  rw [s.runTo_frame t]; rfl

@[simp] theorem State.runTo_fld (s : State) (t : Nat) (x : Fld) : (s.runTo t).fld x = s.fld x := by
  rw [s.runTo_frame t]; rfl

@[simp] theorem State.runTo_bit (s : State) (t : Nat) (x : Fld) : (s.runTo t).bit x = s.bit x := by
  rw [s.runTo_frame t]; rfl

/-! ### One bit of a word -/

theorem bitB_setBits_self {v i x : Nat} : bitB (setBits v i 1 x) i = decide (x % 2 = 1) := by
  rw [bitB_bitsOf, bitsOf_setBits]
  rcases Nat.mod_two_eq_zero_or_one x with h | h <;> simp [h]

theorem bitB_setBits_ne {v i j x : Nat} (hne : j ≠ i) : bitB (setBits v i 1 x) j = bitB v j := by
  rw [bitB_bitsOf, bitB_bitsOf]
  rcases Nat.lt_or_gt_of_ne hne with h | h
  · rw [bitsOf_setBits_below (by omega)]
  · rw [bitsOf_setBits_above (by omega)]

theorem bitsOf_setBits_ne {v i j x : Nat} (hne : j ≠ i) : bitsOf (setBits v i 1 x) j 1 = bitsOf v j 1 := by
  rcases Nat.lt_or_gt_of_ne hne with h | h
  · exact bitsOf_setBits_below (by omega)
  · exact bitsOf_setBits_above (by omega)

theorem State.bitB_reg (s : State) (off i : Nat) : bitB (s.reg off) i = s.bit ⟨off, i, 1⟩ := bitB_bitsOf _ _

theorem State.fld_raise_apart (s : State) (x y : Fld) (ho : x.off = y.off) (hy : y.lo + y.w ≤ 32) (h : swf regDflt s.regs = true)
    (hd : y.lo + y.w ≤ x.lo ∨ x.lo + x.w ≤ y.lo) : (s.raise y).fld x = s.fld x := s.fld_setFld_apart x y 1 ho hy h hd

theorem State.fld_raise_ne (s : State) (x y : Fld) (h : x.off ≠ y.off) : (s.raise y).fld x = s.fld x := s.fld_setFld_ne x y 1 h

theorem State.bit_setFld_ne (s : State) (x y : Fld) (v : Nat) (h : x.off ≠ y.off) : (s.setFld y v).bit x = s.bit x :=
  s.bit_setReg_ne x y.off _ h

theorem State.bit_setFld_apart (s : State) (x y : Fld) (v : Nat) (ho : x.off = y.off) (hy : y.lo + y.w ≤ 32)
    (h : swf regDflt s.regs = true) (hd : y.lo + y.w ≤ x.lo ∨ x.lo + x.w ≤ y.lo) : (s.setFld y v).bit x = s.bit x := by
  unfold State.bit
  rw [s.fld_setFld_apart x y v ho hy h hd]

/-! ### Writes of TB_CTRL -/

/-- TRACK, HO_EXIT and LOCK of a TB_CTRL write by the owner, in the order of log entry 7. -/
def State.ownerBits (s : State) (track lock exit : Bool) : State :=
  let s := if track = s.bit TB_CTRL_TRACK then s else s.writeTrack track
  let s := if exit then s.writeHoExit else s
  if track = false ∨ lock = s.bit TB_CTRL_LOCK then s else s.writeLock lock

/-- A write that leaves STEP_EN as it stands is a write of the other three fields. -/
theorem State.ownerFields_eq_ownerBits {s : State} {v : Nat} (hwf : swf regDflt s.regs = true)
    (hstep : bitsOf v 4 1 = s.fld TB_CTRL_STEP_EN) : s.ownerFields v = s.ownerBits (bitB v 0) (bitB v 1) (bitB v 2) := by
  unfold State.ownerFields
  rw [hstep, s.setFld_fld TB_CTRL_STEP_EN hwf]
  rfl

/-- A write in which each field holds the value that it has, and no HO_EXIT, changes nothing. -/
theorem State.ownerBits_same (s : State) : s.ownerBits (s.bit TB_CTRL_TRACK) (s.bit TB_CTRL_LOCK) false = s := by
  simp [State.ownerBits]

/-- The owner's write that changes one bit below SERVO. -/
theorem State.writeTbCtrl_of_owner {s : State} {p : Party} {i x : Nat} (hwf : swf regDflt s.regs = true) (hown : s.owns p = true)
    (hi : i < 3) :
    s.writeTbCtrl p (setBits (s.reg TB_CTRL) i 1 x) =
      s.ownerBits (bitB (setBits (s.reg TB_CTRL) i 1 x) 0) (bitB (setBits (s.reg TB_CTRL) i 1 x) 1)
        (bitB (setBits (s.reg TB_CTRL) i 1 x) 2) := by
  have hservo : bitsOf (setBits (s.reg TB_CTRL) i 1 x) 3 1 = s.fld TB_CTRL_SERVO := bitsOf_setBits_ne (by omega)
  have hstep : bitsOf (setBits (s.reg TB_CTRL) i 1 x) 4 1 = s.fld TB_CTRL_STEP_EN := bitsOf_setBits_ne (by omega)
  unfold State.writeTbCtrl
  rw [hservo, s.setFld_fld TB_CTRL_SERVO hwf]
  simp only [hown, if_true]
  exact State.ownerFields_eq_ownerBits hwf hstep

theorem State.writeTbCtrl_track {s : State} {p : Party} (v : Nat) (hwf : swf regDflt s.regs = true) (hown : s.owns p = true)
    (hexit : s.bit TB_CTRL_HO_EXIT = false) :
    s.writeTbCtrl p (setBits (s.reg TB_CTRL) 0 1 v) = s.ownerBits (decide (v % 2 = 1)) (s.bit TB_CTRL_LOCK) false := by
  rw [State.writeTbCtrl_of_owner hwf hown (by decide), bitB_setBits_self, bitB_setBits_ne (by decide), bitB_setBits_ne (by decide),
    s.bitB_reg, s.bitB_reg]
  exact congrArg _ hexit

theorem State.writeTbCtrl_lock {s : State} {p : Party} (v : Nat) (hwf : swf regDflt s.regs = true) (hown : s.owns p = true)
    (hexit : s.bit TB_CTRL_HO_EXIT = false) :
    s.writeTbCtrl p (setBits (s.reg TB_CTRL) 1 1 v) = s.ownerBits (s.bit TB_CTRL_TRACK) (decide (v % 2 = 1)) false := by
  rw [State.writeTbCtrl_of_owner hwf hown (by decide), bitB_setBits_self, bitB_setBits_ne (by decide), bitB_setBits_ne (by decide),
    s.bitB_reg, s.bitB_reg]
  exact congrArg _ hexit

theorem State.writeTbCtrl_hoExit {s : State} {p : Party} (hwf : swf regDflt s.regs = true) (hown : s.owns p = true) :
    s.writeTbCtrl p (setBits (s.reg TB_CTRL) 2 1 1) = s.ownerBits (s.bit TB_CTRL_TRACK) (s.bit TB_CTRL_LOCK) true := by
  rw [State.writeTbCtrl_of_owner hwf hown (by decide), bitB_setBits_self, bitB_setBits_ne (by decide), bitB_setBits_ne (by decide),
    s.bitB_reg, s.bitB_reg]
  rfl

/-- A write of SERVO with the other fields as they stand changes SERVO alone, whoever writes it. -/
theorem State.writeTbCtrl_servo {s : State} (p : Party) (host : Bool) (hwf : swf regDflt s.regs = true)
    (hexit : s.bit TB_CTRL_HO_EXIT = false) :
    s.writeTbCtrl p (setBits (s.reg TB_CTRL) 3 1 (b2n host)) = s.setFld TB_CTRL_SERVO (b2n host) := by
  have h3 : bitsOf (setBits (s.reg TB_CTRL) 3 1 (b2n host)) 3 1 = b2n host := by
    rw [bitsOf_setBits]; cases host <;> rfl
  have h4 : bitsOf (setBits (s.reg TB_CTRL) 3 1 (b2n host)) 4 1 = s.fld TB_CTRL_STEP_EN := bitsOf_setBits_ne (by decide)
  have h0 : bitB (setBits (s.reg TB_CTRL) 3 1 (b2n host)) 0 = s.bit TB_CTRL_TRACK := (bitB_setBits_ne (by decide)).trans (s.bitB_reg _ _)
  have h1 : bitB (setBits (s.reg TB_CTRL) 3 1 (b2n host)) 1 = s.bit TB_CTRL_LOCK := (bitB_setBits_ne (by decide)).trans (s.bitB_reg _ _)
  have h2 : bitB (setBits (s.reg TB_CTRL) 3 1 (b2n host)) 2 = false :=
    ((bitB_setBits_ne (by decide)).trans (s.bitB_reg _ _)).trans hexit
  unfold State.writeTbCtrl
  dsimp only
  rw [h3, h4, h0, h1, h2]
  have hwf' := s.setFld_wf TB_CTRL_SERVO (b2n host) hwf
  have hstep' : (s.setFld TB_CTRL_SERVO (b2n host)).fld TB_CTRL_STEP_EN = s.fld TB_CTRL_STEP_EN :=
    s.fld_setFld_apart _ _ _ rfl (by decide) hwf (by decide)
  have htrack' : (s.setFld TB_CTRL_SERVO (b2n host)).bit TB_CTRL_TRACK = s.bit TB_CTRL_TRACK :=
    s.bit_setFld_apart _ _ _ rfl (by decide) hwf (by decide)
  have hlock' : (s.setFld TB_CTRL_SERVO (b2n host)).bit TB_CTRL_LOCK = s.bit TB_CTRL_LOCK :=
    s.bit_setFld_apart _ _ _ rfl (by decide) hwf (by decide)
  split
  case isTrue =>
    rw [State.ownerFields_eq_ownerBits hwf' (h4.trans hstep'.symm), h0, h1, h2, ← htrack', ← hlock', State.ownerBits_same]
  case isFalse => exact if_neg (by simp)

/-! ### The moves of TB_STATUS.STATE -/

theorem State.ownerBits_track_set {s : State} (hwf : swf regDflt s.regs = true) (htrack : s.bit TB_CTRL_TRACK = false)
    (hstate : s.fld TB_STATUS_STATE = tbFree) :
    s.ownerBits true (s.bit TB_CTRL_LOCK) false = (s.raise TB_CTRL_TRACK).setFld TB_STATUS_STATE tbAcquire := by
  have hfree : (s.raise TB_CTRL_TRACK).fld TB_STATUS_STATE = tbFree := (s.fld_raise_ne _ _ (by decide)).trans hstate
  have hlock : ((s.raise TB_CTRL_TRACK).setFld TB_STATUS_STATE tbAcquire).bit TB_CTRL_LOCK = s.bit TB_CTRL_LOCK :=
    (State.bit_setFld_ne _ _ _ _ (by decide)).trans (s.bit_setFld_apart _ _ _ rfl (by decide) hwf (by decide))
  simp [State.ownerBits, State.writeTrack, htrack, hfree, hlock]

theorem State.ownerBits_track_clear {s : State} (htrack : s.bit TB_CTRL_TRACK = true) (lock : Bool) :
    s.ownerBits false lock false = (((s.clear TB_CTRL_TRACK).clear TB_CTRL_LOCK).setFld TB_STATUS_STATE tbFree).dropSlew := by
  simp [State.ownerBits, State.writeTrack, htrack]

theorem State.ownerBits_lock_set {s : State} (htrack : s.bit TB_CTRL_TRACK = true) (hlock : s.bit TB_CTRL_LOCK = false)
    (hstate : s.fld TB_STATUS_STATE = tbAcquire) :
    s.ownerBits (s.bit TB_CTRL_TRACK) true false =
      ((s.raise TB_CTRL_LOCK).setFld TB_STATUS_STATE tbLocked).postTime 0x11 tbAcquire (s.fld TB_PTP_CFG_SOURCE) := by
  have hacquire : (s.raise TB_CTRL_LOCK).fld TB_STATUS_STATE = tbAcquire := (s.fld_raise_ne _ _ (by decide)).trans hstate
  have hsource : (s.raise TB_CTRL_LOCK).fld TB_PTP_CFG_SOURCE = s.fld TB_PTP_CFG_SOURCE := s.fld_raise_ne _ _ (by decide)
  simp [State.ownerBits, State.writeLock, htrack, hlock, hacquire, hsource]

theorem State.ownerBits_lock_clear {s : State} (htrack : s.bit TB_CTRL_TRACK = true) (hlock : s.bit TB_CTRL_LOCK = true)
    (hstate : s.fld TB_STATUS_STATE = tbLocked) :
    s.ownerBits (s.bit TB_CTRL_TRACK) false false = (s.clear TB_CTRL_LOCK).setFld TB_STATUS_STATE tbAcquire := by
  have hlocked : (s.clear TB_CTRL_LOCK).fld TB_STATUS_STATE = tbLocked := (s.fld_setFld_ne _ _ _ (by decide)).trans hstate
  simp [State.ownerBits, State.writeLock, htrack, hlock, hlocked]

theorem State.ownerBits_exit {s : State} (hstate : s.fld TB_STATUS_STATE = tbHoldover) :
    s.ownerBits (s.bit TB_CTRL_TRACK) (s.bit TB_CTRL_LOCK) true = s.setFld TB_STATUS_STATE tbAcquire := by
  have hlock : (s.setFld TB_STATUS_STATE tbAcquire).bit TB_CTRL_LOCK = s.bit TB_CTRL_LOCK := s.bit_setFld_ne _ _ _ (by decide)
  simp [State.ownerBits, State.writeHoExit, hstate, hlock]

/-- Settles O27: the write that changes one bit of TB_CTRL is `State.ownerBits` with that bit, and each move of STATE is one
equation of it. -/
theorem servoOwnerMovesTheTimebaseState : Obligations.ServoOwnerMovesTheTimebaseState := by
  rintro p s ⟨hwf, -, -⟩ hexit
  refine ⟨?trackSet, ?trackClear, ?lockSet, ?lockClear, ?hoExit, ?servo⟩
  case trackSet =>
    intro hown htrack hstate
    exact congrArg _ ((s.writeTbCtrl_track 1 hwf hown hexit).trans (s.ownerBits_track_set hwf htrack hstate))
  case trackClear =>
    intro hown htrack
    exact congrArg _ ((s.writeTbCtrl_track 0 hwf hown hexit).trans (s.ownerBits_track_clear htrack _))
  case lockSet =>
    intro hown htrack hlock hstate
    exact congrArg _ ((s.writeTbCtrl_lock 1 hwf hown hexit).trans (s.ownerBits_lock_set htrack hlock hstate))
  case lockClear =>
    intro hown htrack hlock hstate
    exact congrArg _ ((s.writeTbCtrl_lock 0 hwf hown hexit).trans (s.ownerBits_lock_clear htrack hlock hstate))
  case hoExit =>
    intro hown hstate
    exact congrArg _ ((s.writeTbCtrl_hoExit hwf hown).trans (s.ownerBits_exit hstate))
  case servo => exact fun host => congrArg _ (s.writeTbCtrl_servo p host hwf hexit)

/-! ### Steering the counter -/

theorem State.servoDrop_owner {s : State} {p : Party} (hown : s.owns p = true) (hhold : s.holdover = false) : s.servoDrop p = none := by
  simp [State.servoDrop, hown, hhold]

theorem State.servoDrop_other {s : State} {p : Party} (hown : s.owns p = false) : s.servoDrop p = some (s.raise TB_STATUS_REFUSED) :=
  if_pos hown

theorem State.servoDrop_holdover {s : State} {p : Party} (hown : s.owns p = true) (hhold : s.holdover = true) :
    s.servoDrop p = some (s.raise TB_STATUS_HO_DROP) := by
  simp [State.servoDrop, hown, hhold]

/-- A dropped servo write leaves what `State.servoDrop` gives, whichever of the three registers it is to. -/
theorem State.servoWrites_dropped {s t : State} {p : Party} (hdrop : s.servoDrop p = some t) (v : Word) (w : DWord) :
    exec (.tbIncrCommit p w) s = .next t ∧ exec (.tbAdj p v) s = .next t ∧ exec (.tbStepCommit p w) s = .next t := by
  refine ⟨?incr, ?adj, ?step⟩
  case incr => simp only [exec, execTbIncrCommit, State.writeIncr, hdrop]
  case adj => simp only [exec, execTbAdj, State.writeAdj, hdrop]
  case step => simp only [exec, execTbStepCommit, State.writeStep, hdrop]

theorem State.writeIncr_in_limits {s : State} {p : Party} {v : Nat} (hdrop : s.servoDrop p = none) (hlo : incrMin ≤ v)
    (hhi : v ≤ incrMax) : s.writeIncr p v = { s.setReg64 TB_INCR v with tb := { s.tb with commit := some (1, v) } } := by
  have hraw : v % 2 ^ 40 = v := Nat.mod_eq_of_lt (hhi.trans_lt (by decide))
  have hclamp : clampN incrMin incrMax v = v := by simp [clampN, Nat.not_lt.mpr hlo, Nat.not_lt.mpr hhi]
  simp only [State.writeIncr, hdrop, hraw, hclamp, if_true, State.setReg64_tb]

theorem State.writeStep_accepted {s : State} {p : Party} {v : Nat} (hdrop : s.servoDrop p = none) (hen : s.bit TB_CTRL_STEP_EN = true)
    (hnow : 0 ≤ (s.tb.now : Int) + sext 64 v * (unitNs : Int)) :
    s.writeStep p v = { s with tb := { s.tb with step := some (sext 64 v), stepIn := 1 } } := by
  simp only [State.writeStep, hdrop, hen, Bool.true_eq_false, false_or, if_neg (Int.not_lt.mpr hnow)]

theorem State.slewEnd_idle {s : State} (hpend : s.tb.pend = 0) : s.slewEnd = s := if_pos hpend

/-- With neither a commit nor a step due, the slew's end is one run of whole cycles. -/
theorem State.slewEnd_undisturbed {s : State} (hpend : s.tb.pend ≠ 0) (hcommit : s.tb.commit = none) (hstep : s.tb.step = none) :
    s.slewEnd = { s with tb := s.tb.cycles (s.fld TB_SLEW_v) (s.tb.slewCycles (s.fld TB_SLEW_v)) s.holdover } := by
  simp [State.slewEnd, hpend, hcommit, hstep]

/-- Settles O28: `State.servoDrop` says which writes are dropped, and each accepted write is one equation. -/
theorem servoWritesSteerTheCounter : Obligations.ServoWritesSteerTheCounter := by
  refine ⟨?accepted, ?refused, ?dropped, ?idle, ?slew⟩
  case accepted =>
    intro p s hown hhold
    have hdrop := State.servoDrop_owner hown hhold
    refine ⟨?incr, ?adj, ?step⟩
    case incr => exact fun v hlo hhi => congrArg _ (State.writeIncr_in_limits hdrop hlo hhi)
    case adj =>
      intro v
      simp only [exec, execTbAdj, State.writeAdj, hdrop]
      rfl
    case step => exact fun v hen hnow => congrArg _ (State.writeStep_accepted hdrop hen hnow)
  case refused => exact fun p s v w hown => State.servoWrites_dropped (State.servoDrop_other hown) v w
  case dropped => exact fun p s v w hown hhold => State.servoWrites_dropped (State.servoDrop_holdover hown hhold) v w
  case idle => exact fun s hpend => congrArg _ (State.slewEnd_idle hpend)
  case slew => exact fun s hpend hcommit hstep => congrArg _ (State.slewEnd_undisturbed hpend hcommit hstep)

/-! ### Source loss -/

theorem State.enterHoldover_idle {s : State} (cause : Nat) (htrack : s.tracking = false) : s.enterHoldover cause = s := by
  simp [State.enterHoldover, htrack]

theorem State.sourceLoss_free {s : State} (src : Nat) (flag : Fld) (cause : Nat) (hstate : s.fld TB_STATUS_STATE = tbFree) :
    s.sourceLoss src flag cause = s := by
  simp [State.sourceLoss, hstate]

theorem State.tracking_not_free {s : State} (htrack : s.tracking = true) : s.fld TB_STATUS_STATE ≠ tbFree := by
  intro hfree
  simp [State.tracking, hfree, tbFree, tbAcquire, tbLocked] at htrack

/-- A flag of TB_STATUS above STATE does not move STATE. -/
theorem State.sourceLoss_holdover {s : State} {flag : Fld} (cause : Nat) (hoff : flag.off = TB_STATUS) (hlo : 3 ≤ flag.lo)
    (hhi : flag.lo + flag.w ≤ 32) (hwf : swf regDflt s.regs = true) (hstate : s.fld TB_STATUS_STATE = tbHoldover) :
    s.sourceLoss (s.fld TB_PTP_CFG_SOURCE) flag cause = s.raise flag := by
  have hkept : (s.raise flag).fld TB_STATUS_STATE = tbHoldover :=
    (s.fld_raise_apart TB_STATUS_STATE flag hoff.symm hhi hwf (.inr hlo)).trans hstate
  have hnot : (s.raise flag).tracking = false := by simp [State.tracking, hkept, tbHoldover, tbAcquire, tbLocked]
  simp [State.sourceLoss, hstate, tbHoldover, tbFree, State.enterHoldover_idle cause hnot]

theorem State.sourceLoss_tracking {s : State} {flag : Fld} (cause : Nat) (hoff : flag.off = TB_STATUS) (hlo : 3 ≤ flag.lo)
    (hhi : flag.lo + flag.w ≤ 32) (hwf : swf regDflt s.regs = true) (htrack : s.tracking = true) :
    s.sourceLoss (s.fld TB_PTP_CFG_SOURCE) flag cause =
      ({ (((s.raise flag).setFld TB_STATUS_STATE tbHoldover).clear TB_CTRL_LOCK).dropSlew with
         tb := { s.tb with pend := 0, hoFor := 0 } } : State).postTime 0x12 cause (s.fld TB_STATUS_STATE) := by
  have hkept : (s.raise flag).fld TB_STATUS_STATE = s.fld TB_STATUS_STATE := s.fld_raise_apart TB_STATUS_STATE flag hoff.symm hhi hwf (.inr hlo)
  have hstill : (s.raise flag).tracking = true := by rw [State.tracking, hkept]; exact htrack
  simp only [State.sourceLoss, State.enterHoldover, hstill, hkept, State.tracking_not_free htrack, ne_eq, not_false_eq_true,
    and_self, if_true]
  rfl

/-- Settles O30: the three timeouts are `State.sourceLoss` with a flag of TB_STATUS above STATE. -/
theorem sourceLossEntersHoldover : Obligations.SourceLossEntersHoldover := by
  rintro src flag cause c s hc ⟨hwf, -, -⟩ hsrc
  have hexec : exec c s = .next (s.sourceLoss src flag cause) := by
    rcases hc with h | h | h <;> cases h <;> rfl
  have hflag : flag.off = TB_STATUS ∧ 3 ≤ flag.lo ∧ flag.lo + flag.w ≤ 32 := by
    rcases hc with h | h | h <;> cases h <;> decide
  obtain ⟨hoff, hlo, hhi⟩ := hflag
  rw [hexec, ← hsrc]
  refine ⟨?tracking, ?holdover, ?free⟩
  case tracking => exact fun htrack => congrArg _ (State.sourceLoss_tracking cause hoff hlo hhi hwf htrack)
  case holdover => exact fun hstate => congrArg _ (State.sourceLoss_holdover cause hoff hlo hhi hwf hstate)
  case free => exact fun hstate => congrArg _ (State.sourceLoss_free _ flag cause hstate)

/-! ### Snapshots and the 1PPS pins -/

theorem State.onRead_on {s : State} {off d : Nat} (t : State) (v : Nat) (hd : domainOf off = some d) (hon : s.domOn d = true) :
    s.onRead off t v = t.emit (.readData off v) := by
  simp only [State.onRead, hd, hon, if_true]

theorem State.ppsEdge_ignored {s : State} {falling : Bool} {ns : Nat}
    (h : s.bit TB_PPS_CTRL_IN_EN = false ∨ falling ≠ s.bit TB_PPS_CTRL_IN_EDGE ∨ ns < 100) : s.ppsEdge falling ns = s := if_pos h

/-- The PPS input capture registers loaded with the present time (R53). -/
def State.ppsCaptured (s : State) : State :=
  ((s.setReg TB_PPS_IN_NS (nsOf s.tb.now)).setReg TB_PPS_IN_SEC_LO (secOf s.tb.now % 4294967296)).setReg TB_PPS_IN_SEC_HI
    (secOf s.tb.now / 4294967296 % 65536)

theorem State.ppsCaptured_fld {s : State} {x : Fld} (hns : x.off ≠ TB_PPS_IN_NS) (hlo : x.off ≠ TB_PPS_IN_SEC_LO)
    (hhi : x.off ≠ TB_PPS_IN_SEC_HI) : s.ppsCaptured.fld x = s.fld x := by
  simp [State.ppsCaptured, hns, hlo, hhi]

theorem State.ppsCaptured_tracking (s : State) : s.ppsCaptured.tracking = s.tracking := by
  unfold State.tracking
  rw [State.ppsCaptured_fld (by decide) (by decide) (by decide)]

theorem State.ppsEdge_captured {s : State} {falling : Bool} {ns : Nat} (hen : s.bit TB_PPS_CTRL_IN_EN = true)
    (hedge : falling = s.bit TB_PPS_CTRL_IN_EDGE) (hns : 100 ≤ ns) :
    s.ppsEdge falling ns = if s.fld TB_PTP_CFG_SOURCE = 2 ∧ s.tracking = true ∧ unitUs < fromSecond s.tb.now then
      s.ppsCaptured.raise TB_STATUS_PPS_JUMP else s.ppsCaptured := by
  have hgo : ¬(s.bit TB_PPS_CTRL_IN_EN = false ∨ falling ≠ s.bit TB_PPS_CTRL_IN_EDGE ∨ ns < 100) := by
    simp [hen, hedge, hns]
  have hsource : s.ppsCaptured.fld TB_PTP_CFG_SOURCE = s.fld TB_PTP_CFG_SOURCE :=
    State.ppsCaptured_fld (by decide) (by decide) (by decide)
  rw [← hsource, ← s.ppsCaptured_tracking]
  exact if_neg hgo

/-- Settles O29: each register load is the model's own definition, and time runs without touching the register file
(`State.runTo_frame`). -/
theorem snapshotsAndPpsPulses : Obligations.SnapshotsAndPpsPulses := by
  refine ⟨?snapshot, fun id s => rfl, ?source, ?capture, ?rise, ?off, ?fall, ?edge, ?ignored⟩
  case snapshot => exact fun v s htrigger => congrArg _ (if_pos htrigger)
  case source =>
    intro v s htrack
    simp only [exec, execTbPtpCfgWrite, State.writePtp, State.enterHoldover_idle 4 htrack]
    exact ⟨rfl, rfl⟩
  case capture => exact fun c d s hd hon => congrArg _ (State.onRead_on _ _ hd hon)
  case rise =>
    intro s hen
    simp only [exec, execPpsOutEdge, State.ppsRise, hen, if_true, State.ppsWidth, State.runTo_fld]
    rfl
  case off =>
    intro s hen
    simp [exec, execPpsOutEdge, State.ppsRise, hen]
  case fall => exact fun s hhigh => congrArg _ (if_pos hhigh)
  case edge =>
    rintro falling ns s t hen hedge hns rfl
    have hcap := State.ppsEdge_captured hen hedge hns
    refine ⟨?quiet, ?jump⟩
    case quiet =>
      intro hquiet
      have hnot : ¬(s.fld TB_PTP_CFG_SOURCE = 2 ∧ s.tracking = true ∧ unitUs < fromSecond s.tb.now) := by
        rintro ⟨hsrc, htrack, hfar⟩
        rcases hquiet with h | h | h
        · exact h hsrc
        · simp [htrack] at h
        · omega
      exact congrArg _ (hcap.trans (if_neg hnot))
    case jump => exact fun hsrc htrack hfar => congrArg _ (hcap.trans (if_pos ⟨hsrc, htrack, hfar⟩))
  case ignored => exact fun falling ns s h => congrArg _ (State.ppsEdge_ignored h)

/-! ### PTP messages -/

theorem State.ptpReceive_off {s : State} {w : Nat} (m : PtpMessage) (hoff : s.ptpOn w = false) : s.ptpReceive w m = s := if_pos hoff

theorem State.ptpTransmit_off {s : State} {w : Nat} (k : PtpTransmit) (b : List Byte) (hoff : s.ptpOn w = false) :
    s.ptpTransmit w k b = s := if_pos hoff

/-- A queued timestamp leaves the register file, but for the count of those dropped, alone. -/
theorem State.queueStamp_fld (s : State) (w t : Nat) (x : Fld) (hx : x.off ≠ ETH_TS_DROP w) : (s.queueStamp w t).fld x = s.fld x := by
  unfold State.queueStamp
  split
  · rfl
  · exact s.fld_setReg_ne x _ _ hx

theorem ptpCfg_off_ne_tsDrop (w : Nat) : TB_PTP_CFG ≠ ETH_TS_DROP w := by
  unfold TB_PTP_CFG ETH_TS_DROP
  omega

theorem State.queueStamp_slavePort (s : State) (w t : Nat) : (s.queueStamp w t).slavePort = s.slavePort := by
  unfold State.slavePort
  rw [s.queueStamp_fld w t TB_PTP_CFG_SLAVE_PORT (ptpCfg_off_ne_tsDrop w)]

/-- Settles O31: with PTP on, `State.ptpReceive` and `State.ptpTransmit` have one equation for each kind of message. -/
theorem ptpMessagesAreStampedAndUsed : Obligations.PtpMessagesAreStampedAndUsed := by
  refine ⟨?off, ?on⟩
  case off => exact fun w m k b s hoff => ⟨congrArg _ (State.ptpReceive_off m hoff), congrArg _ (State.ptpTransmit_off k b hoff)⟩
  case on =>
    intro w s hon
    refine ⟨?event, ?general, ?sync, ?announce, ?exchange, ?oneStep, ?other⟩
    case event => simp [exec, execPtpMessageReceive, State.ptpReceive, hon]
    case general => simp [exec, execPtpMessageReceive, State.ptpReceive, hon]
    case sync =>
      intro gm log hslave
      simp [exec, execPtpMessageReceive, State.ptpReceive, hon, State.queueStamp_slavePort, hslave]
    case announce =>
      intro gm log hslave hgm
      simp [exec, execPtpMessageReceive, State.ptpReceive, State.announce, hon, hslave, hgm]
    case exchange =>
      intro sec ns o d hslave hhost
      simp only [exec, execPtpMessageReceive, State.ptpReceive, State.timeSample, hon, hslave, hhost, Bool.true_eq_false, if_true,
        if_false]
      rfl
    case oneStep =>
      intro b hone
      simp [exec, execPtpEventTransmit, State.ptpTransmit, hon, hone]
    case other =>
      intro b
      simp [exec, execPtpEventTransmit, State.ptpTransmit, hon]

end Sys2Proof.Machine
end

section
/-! BAR0 writes (R8 to R14), the commands of the global registers (R491, R640) and the TAP (R586 to R589) (O32, O33, O35, O59). -/

namespace Sys2Proof.Machine

/-! ### The checks of a 4-byte write -/

theorem State.writeBar_word {s : State} {off : Nat} (v : Nat) (halign : off % 4 = 0) :
    s.writeBar off 4 v = s.writeWord false off (v % 2 ^ 32) :=
  if_pos ⟨rfl, halign⟩

theorem State.writeBar_dword {s : State} {off : Nat} (v : Nat) (halign : off % 8 = 0) :
    s.writeBar off 8 v = (s.writeWord false off (v % 2 ^ 32)).writeWord false (off + 4) (v / 2 ^ 32 % 2 ^ 32) := by
  simp [State.writeBar, halign]

theorem State.writeBar_misaligned {s : State} {off size : Nat} (v : Nat) (h4 : ¬(size = 4 ∧ off % 4 = 0))
    (h8 : ¬(size = 8 ∧ off % 8 = 0)) : s.writeBar off size v = s.raise GLB_STATUS_SIZE_ERR := by
  simp [State.writeBar, h4, h8]

theorem State.writeWord_off {s : State} {off d : Nat} (jtag : Bool) (v : Nat) (hd : domainOf off = some d) (hoff : s.domOn d = false) :
    s.writeWord jtag off v = s.raise GLB_PWR_STAT_OFF_ACC := by
  simp [State.writeWord, hd, hoff]

theorem State.writeWord_noReg {s : State} {off d : Nat} (jtag : Bool) (v : Nat) (hd : domainOf off = some d) (hon : s.domOn d = true)
    (hreg : regAt off = none) : s.writeWord jtag off v = s := by
  simp [State.writeWord, hd, hon, hreg]

theorem State.writeWord_locked {s : State} {off d i k : Nat} {x : RegDesc} (jtag : Bool) (v : Nat) (hd : domainOf off = some d)
    (hon : s.domOn d = true) (hreg : regAt off = some (x, i, k)) (hrwl : (x.words.getD k {}).rwl ≠ 0)
    (hlock : s.bit GLB_LOCK_v = true) : s.writeWord jtag off v = s.raise GLB_STATUS_LOCK_VIOL := by
  simp only [State.writeWord, hd, hon, hreg, hrwl, hlock, Bool.true_eq_false, if_false, ne_eq, not_false_eq_true, and_self, if_true]

/-- A write that the lock lets through goes by the number of words of its register. -/
theorem State.writeWord_unlocked {s : State} {off d i k : Nat} {x : RegDesc} (jtag : Bool) (v : Nat) (hd : domainOf off = some d)
    (hon : s.domOn d = true) (hreg : regAt off = some (x, i, k)) (hfree : (x.words.getD k {}).rwl = 0 ∨ s.bit GLB_LOCK_v = false) :
    s.writeWord jtag off v =
      if x.words.length = 2 then (if k = 0 then s.holdLow off (some v) else s.writeHigh jtag x.base i off v)
      else s.write32 jtag x.base i off v := by
  have hpass : ¬((x.words.getD k {}).rwl ≠ 0 ∧ s.bit GLB_LOCK_v = true) := by
    rintro ⟨hrwl, hlock⟩
    rcases hfree with h | h
    · exact hrwl h
    · simp [h] at hlock
  simp only [State.writeWord, hd, hon, hreg, Bool.true_eq_false, if_false, if_neg hpass]

theorem mod_eight_words {off : Nat} (h : off % 8 = 0) : off % 4 = 0 ∧ (off + 4) % 4 = 0 := by omega

/-- Settles O32: each check of R9 to R13 is one equation of `State.writeWord`. -/
theorem busWritesAreChecked : Obligations.BusWritesAreChecked := by
  refine ⟨?size, ?domain, ?absent, ?locked, ?held, ?both⟩
  case size => exact fun off size v s h4 h8 => congrArg _ (State.writeBar_misaligned _ h4 h8)
  case domain =>
    intro off d v w s halign hd hoff
    exact ⟨congrArg _ ((State.writeBar_word _ halign).trans (State.writeWord_off _ _ hd hoff)),
      congrArg _ ((State.writeBar_word _ halign).trans (State.writeWord_off _ _ hd hoff))⟩
  case absent =>
    exact fun off d v s halign hd hon hreg => congrArg _ ((State.writeBar_word _ halign).trans (State.writeWord_noReg _ _ hd hon hreg))
  case locked =>
    intro off d i k x v w s halign hd hon hreg hrwl hlock
    exact ⟨congrArg _ ((State.writeBar_word _ halign).trans (State.writeWord_locked _ _ hd hon hreg hrwl hlock)),
      congrArg _ ((State.writeBar_word _ halign).trans (State.writeWord_locked _ _ hd hon hreg hrwl hlock))⟩
  case held =>
    intro off d i x v s halign hd hon hreg hlen hfree
    refine congrArg _ ((State.writeBar_word _ halign).trans ((State.writeWord_unlocked _ _ hd hon hreg hfree).trans ?_))
    rw [if_pos hlen, if_pos rfl]
    rfl
  case both =>
    intro off v s h8
    obtain ⟨hlow, hhigh⟩ := mod_eight_words h8
    have hlowWord : (BitVec.ofNat 64 (v.toNat % 4294967296)).toNat % 2 ^ 32 = v.toNat % 2 ^ 32 := by
      rw [BitVec.toNat_ofNat]; omega
    have hhighWord : (BitVec.ofNat 64 (v.toNat / 4294967296)).toNat % 2 ^ 32 = v.toNat / 2 ^ 32 % 2 ^ 32 := by
      rw [BitVec.toNat_ofNat]; omega
    simp only [exec, execRegisterWrite, State.writeBar_dword _ h8, State.writeBar_word _ hlow, State.writeBar_word _ hhigh,
      hlowWord, hhighWord]

/-! ### The effect of a write -/

/-- A block whose registers have no rules of their own. -/
theorem State.write32_plain {s : State} {base i off v : Nat} (jtag : Bool)
    (hblock : blockOf off = 6 ∨ blockOf off = 9 ∨ blockOf off = 10 ∨ blockOf off = 11) (hrwt : (wordAt off).rwt = 0) :
    s.write32 jtag base i off v = s.putPlain off v := by
  rcases hblock with h | h | h | h <;> simp [State.write32, hrwt, h]

theorem State.write32_rwt {s : State} {base i off v : Nat} (jtag : Bool) (hbase : base ≠ CRB_CTRL) (hrwt : (wordAt off).rwt ≠ 0) :
    s.write32 jtag base i off v = s.writeRwt base off v := by
  simp [State.write32, hrwt, hbase]

/-- A 64-bit register without rules of its own takes both words. -/
theorem State.write64_plain {s : State} {base i off v : Nat} (jtag : Bool) (hblock : blockOf off ≠ 17)
    (hbase : base = FE_LYR_DRAM_BASE ∨ base = FE_LYR_DRAM_SIZE ∨ base = FAR_CAP_REF ∨ base = DMX_UID) :
    s.write64 jtag base i off v = (s.putPlain off (v % 2 ^ 32)).putPlain (off + 4) (v / 2 ^ 32 % 2 ^ 32) := by
  have hnone : base ≠ TB_INCR ∧ base ≠ TB_STEP ∧ base ≠ FE_MAP_DRAM_BASE ∧ base ≠ FE_MAP_DRAM_SIZE ∧ base ≠ HIF_SQ_BASE 0 ∧
      base ≠ HIF_CQ_BASE 0 ∧ base ≠ HIF_EQ_BASE 0 ∧ base ≠ TM_TEAM_RST ∧ base ≠ TM_TRC_DMAC 0 := by
    rcases hbase with rfl | rfl | rfl | rfl <;> decide
  obtain ⟨hincr, hstep, hmapBase, hmapSize, hsq, hcq, heq, hteam, hdmac⟩ := hnone
  simp only [State.write64, hincr, hstep, hmapBase, hmapSize, hsq, hcq, heq, hteam, hdmac, hblock, or_self, if_false]

/-- Settles O33: the lock lets the write through (`State.writeWord_unlocked`), and each form of register is one equation of
`State.write32` or `State.write64`. -/
theorem busWritesLoadAndStage : Obligations.BusWritesLoadAndStage := by
  refine ⟨?word, ?high⟩
  case word =>
    intro off d i x v s halign hd hon hreg hlen hfree hblock hbase
    have hwrite : exec (.registerWrite off 4 v) s = .next (s.write32 false x.base i off (v.toNat % 2 ^ 32)) := by
      refine congrArg _ ((State.writeBar_word _ halign).trans ((State.writeWord_unlocked _ _ hd hon hreg hfree).trans ?_))
      exact if_neg (by omega)
    rw [hwrite]
    refine ⟨fun hrwt => congrArg _ (State.write32_plain _ hblock hrwt), fun hrwt hrun => ?staged, fun hrwt hrun => ?now⟩
    case staged => exact congrArg _ ((State.write32_rwt _ hbase hrwt).trans (if_pos hrun))
    case now => exact congrArg _ ((State.write32_rwt _ hbase hrwt).trans (if_neg (by simp [hrun])))
  case high =>
    intro off d i x v s halign hfour hd hon hreg hlen hfree hbase hblock
    have hv : v.toNat % 2 ^ 32 = v.toNat := Nat.mod_eq_of_lt v.isLt
    have hback : off - 4 + 4 = off := Nat.sub_add_cancel hfour
    refine congrArg _ ((State.writeBar_word _ halign).trans ((State.writeWord_unlocked _ _ hd hon hreg hfree).trans ?_))
    rw [if_pos hlen, if_neg (by decide), hv]
    exact (State.write64_plain _ hblock hbase).trans (by rw [hback]; rfl)

/-! ### GLB_LOCK, the request for NORMAL and the map region -/

theorem State.onBlock_on {s : State} {off d : Nat} (t : State) (hd : domainOf off = some d) (hon : s.domOn d = true) : s.onBlock off t = t := by
  simp only [State.onBlock, hd, hon, if_true]

/-- A request for NORMAL that one of the conditions of R491 fails. -/
theorem State.requestNormal_refused {s : State} (hsvc : s.svc ≠ 1)
    (h : s.svc ≠ 0 ∨ s.bit GLB_LOCK_v = false ∨ s.run = false ∨ s.bit MEM_STATUS_INIT_DONE = false ∨ s.bit HIF_STATUS_READY = false ∨
      s.mem.restored = false ∨ s.mem.ledger = false) : s.requestNormal = s.raise MEM_STATUS_SVC_REFUSED := by
  refine (if_neg hsvc).trans (if_neg ?_)
  rintro ⟨h0, h1, h2, h3, h4, h5, h6⟩
  simp [h0, h1, h2, h3, h4, h5, h6] at h

theorem State.writeMapRegion_running {s : State} {off v : Nat} (hv : v < 2 ^ 64) (hnew : s.reg64 off ≠ v / 2 ^ 21 * 2 ^ 21)
    (hrun : (s.setReg64 off (v / 2 ^ 21 * 2 ^ 21)).run = true) :
    s.writeMapRegion off v = { s.setReg64 off (v / 2 ^ 21 * 2 ^ 21) with fe := { s.fe with discard := true } } := by
  simp only [State.writeMapRegion, Nat.mod_eq_of_lt hv, if_neg hnew, hrun, if_true, State.setReg64_fe]

/-- A 64-bit register apart from a field's word leaves the field as it is. -/
theorem State.bit_setReg64_ne (s : State) (x : Fld) (off v : Nat) (hlow : x.off ≠ off) (hhigh : x.off ≠ off + 4) :
    (s.setReg64 off v).bit x = s.bit x := by
  unfold State.setReg64
  rw [State.bit_setReg_ne _ _ _ _ hhigh, State.bit_setReg_ne _ _ _ _ hlow]

/-- Settles O35: each condition of R491 and R640 selects one branch of the model's definitions. -/
theorem globalRegisterCommands : Obligations.GlobalRegisterCommands := by
  refine ⟨fun s => rfl, ?normal, ?region, fun s => rfl⟩
  case normal =>
    intro v s hon hset
    have hexec : exec (.svcRequestNormal v) s = .next s.requestNormal := by
      simp only [exec, execSvcRequestNormal, hset, if_true]
      exact congrArg _ (State.onBlock_on (d := 3) _ (by decide) hon)
    rw [hexec]
    refine ⟨?enters, fun hsvc h => congrArg _ (State.requestNormal_refused hsvc h), fun hsvc => congrArg _ (if_pos hsvc)⟩
    case enters =>
      intro hsvc hlock hrun hinit hready hrestored hledger
      refine congrArg _ ((if_neg ?_).trans (if_pos ⟨hsvc, hlock, hrun, hinit, hready, hrestored, hledger⟩))
      rw [hsvc]
      decide
  case region =>
    rintro size v off s hoff hon
    have hexec : exec (.mapRegionWrite size v) s =
        .next (if s.bit GLB_LOCK_v then s.raise GLB_STATUS_LOCK_VIOL else s.writeMapRegion off v.toNat) := by
      rw [hoff]
      refine congrArg _ (State.onBlock_on (d := 7) _ ?_ hon)
      cases size <;> decide
    rw [hexec]
    refine ⟨fun hlock => congrArg _ (if_pos hlock), fun hlock hnew hrun => ?loads⟩
    case loads =>
      have hkept : (s.setReg64 off (v.toNat / 2 ^ 21 * 2 ^ 21)).run = true := by
        refine (State.bit_setReg64_ne _ _ _ _ ?_ ?_).trans hrun <;> (rw [hoff]; cases size <;> decide)
      exact congrArg _ ((if_neg (by simp [hlock])).trans (State.writeMapRegion_running v.isLt hnew hkept))

/-! ### The TAP -/

theorem State.drive_test {s : State} {code : Nat} {op : BoundaryOp} {t : State → State} (hsvc : s.svc = 2) :
    s.drive code op t = t (s.loadIr code) := if_pos hsvc

theorem State.drive_blocked {s : State} {code : Nat} {op : BoundaryOp} {t : State → State} (hsvc : s.svc ≠ 2) :
    s.drive code op t = ((s.loadIr code).scan op).raise LBK_STATUS_JTAG_BLK := if_neg hsvc

/-- OTP_AUTH0 with go where a condition of R589 fails: result 2, and nothing is programmed. -/
theorem State.otpAuth_refused {s : State} {h c : Nat} (ok : Bool)
    (hno : s.svc ≠ 2 ∨ sget (fun _ => none) s.tkr.positions 0 ≠ none ∨ c ≠ crc32 (beBytes 48 h)) :
    s.otpAuth true h c ok = { s with test := { s.test with ir := 0x21, captured := s.test.otp, otp := 2 } } := by
  have hfail : ¬(s.svc = 2 ∧ sget (fun _ => none) s.tkr.positions 0 = none ∧ c = crc32 (beBytes 48 h)) := by tauto
  unfold State.otpAuth
  dsimp only
  rw [if_neg (by decide)]
  exact if_neg hfail

/-- OTP_AUTH0 with go where they hold: position 0 is programmed. -/
theorem State.otpAuth_programs {s : State} {h c : Nat} (ok : Bool) (hsvc : s.svc = 2)
    (hfree : sget (fun _ => none) s.tkr.positions 0 = none) (hcrc : c = crc32 (beBytes 48 h)) :
    s.otpAuth true h c ok =
      { (((s.loadIr 0x21).capture s.test.otp).setPosition 0 (beBytes 48 h) ok) with
        test := { (((s.loadIr 0x21).capture s.test.otp).setPosition 0 (beBytes 48 h) ok).test with otp := if ok then 1 else 3 } } := by
  have hgo : s.svc = 2 ∧ sget (fun _ => none) s.tkr.positions 0 = none ∧ c = crc32 (beBytes 48 h) := ⟨hsvc, hfree, hcrc⟩
  unfold State.otpAuth
  dsimp only
  rw [if_neg (by decide)]
  exact if_pos hgo

theorem State.checkerLock_locks {s : State} {l : Nat} (hsvc : s.svc = 2) (hpat : lanePattern (s.fld (LBK_LANE_CTRL_CHK_PAT l)) ≠ 0) :
    s.checkerLock l = s.setReg (LBK_LANE_STAT l) 1 := if_pos ⟨hsvc, hpat⟩

theorem State.checkerLose_counts {s : State} {l : Nat} (n : Nat) (hsvc : s.svc = 2) (hstat : s.reg (LBK_LANE_STAT l) = 1) :
    s.checkerLose l n = (s.bumpReg (LBK_LANE_ERR l) n).setReg (LBK_LANE_STAT l) 0 := if_pos ⟨hsvc, hstat⟩

theorem State.checkers_idle {s : State} (l n : Nat) (hsvc : s.svc ≠ 2) : s.checkerLock l = s ∧ s.checkerLose l n = s :=
  ⟨if_neg fun h => hsvc h.1, if_neg fun h => hsvc h.1⟩

/-- Settles O59: a driving instruction has one equation in TEST and one outside (`State.drive_test`, `State.drive_blocked`); the
others load and scan as their definitions say. -/
theorem boundaryScanAndPatternCheckers : Obligations.BoundaryScanAndPatternCheckers := by
  refine ⟨fun s => ⟨rfl, rfl⟩, fun n s => ⟨rfl, rfl⟩, fun c s hc => congrArg _ (if_neg hc), ?test, ?blocked, ?otp, ?lock, ?lose, ?idle⟩
  case test =>
    intro n op s hsvc
    refine ⟨?_, ?_, ?_, ?_, ?_, ?_, ?_, ?_⟩ <;> exact congrArg _ (State.drive_test hsvc)
  case blocked =>
    intro n s hsvc
    refine ⟨?_, ?_, ?_, ?_, ?_, ?_⟩ <;> exact congrArg _ (State.drive_blocked hsvc)
  case otp =>
    rintro h c ok s t rfl
    refine ⟨rfl, fun hno => congrArg _ (State.otpAuth_refused ok hno), ?programmed⟩
    case programmed =>
      rintro u hsvc hfree hcrc rfl
      exact congrArg _ (State.otpAuth_programs ok hsvc hfree hcrc)
  case lock => exact fun l s hsvc hpat => congrArg _ (State.checkerLock_locks hsvc hpat)
  case lose =>
    intro l n s hsvc hstat
    exact congrArg _ (State.checkerLose_counts n.toNat hsvc hstat)
  case idle =>
    intro l n s hsvc
    obtain ⟨hlock, hlose⟩ := State.checkers_idle l.val n.toNat hsvc
    exact ⟨congrArg _ hlock, congrArg _ hlose⟩

end Sys2Proof.Machine
end

section
/-! Resets, domains, start and clocks (R555 to R572, R634), service states and the fail-safe sequencer (R484, R491, R493)
(O10 to O14). -/

namespace Sys2Proof.Machine

/-! ### Power-on and the warm resets -/

theorem strapMode_of_le {m : Nat} (hm : m ≤ 2) : strapMode m = m := if_neg (by omega)

theorem strapSvc_of_le {m : Nat} (hm : m ≤ 2) : strapSvc m = 0 := by
  unfold strapSvc
  rw [strapMode_of_le hm]
  split
  · omega
  · omega
  · rfl

/-- A strap of the modes that start, where the service was START already. -/
theorem State.strap_start {s : State} {m : Nat} (hm : m ≤ 2) :
    s.strap m 0 = ((s.setFld GLB_BOOT_MODE m).setFld GLB_BOOT_STRAP_BAD 0).setFld GLB_BOOT_SVC 0 := by
  have hbad : b2n (decide (4 < m)) = 0 := by simp [b2n, show ¬ 4 < m by omega]
  simp only [State.strap, strapMode_of_le hm, strapSvc_of_le hm, hbad, if_true]

theorem State.powerOn_start {s : State} {m : Nat} (brown : Bool) (hm : m ≤ 2) :
    s.powerOn m brown =
      (((s.coldStart.setFld GLB_BOOT_MODE m).setFld GLB_BOOT_STRAP_BAD 0).setFld GLB_BOOT_SVC 0).setReg GLB_RST_CAUSE (256 * b2n brown) := by
  have hmode : ¬strapMode m = 4 := by rw [strapMode_of_le hm]; omega
  unfold State.powerOn
  rw [State.strap_start hm]
  exact if_neg hmode

/-- Settles O10: both resets are `State.powerOn`, which straps what `State.coldStart` leaves. -/
theorem powerOnResetStartsAfresh : Obligations.PowerOnResetStartsAfresh := by
  rintro m s u hm rfl
  exact ⟨congrArg _ (State.powerOn_start false hm), congrArg _ (State.powerOn_start true hm)⟩

/-- What a warm reset keeps of `s`, and what it leaves as after power-on (R562). -/
structure WarmKept (s t : State) : Prop where
  now : t.tb.now = s.tb.now
  eff : t.tb.eff = s.tb.eff
  commit : t.tb.commit = s.tb.commit
  nor : t.nor = s.nor
  factory : t.far.factory = s.far.factory
  log : t.mem.log = s.mem.log
  heard : t.tdm.heard = s.tdm.heard
  bootc : t.tkr.bootc = s.tkr.bootc
  fe : t.fe = {}
  hif : t.hif = {}
  staged : t.staged = []
  tick : t.tick = {}
  tm : t.tm = {}
  drv : t.drv = {}
  php : t.php = {}
  mtr : t.mtr = {}
  crb : t.crb = {}

theorem State.warmBase_kept (s : State) : WarmKept s s.warmBase := by
  constructor <;> rfl

/-- A state that agrees with `t` in the fields that a warm reset names. -/
theorem WarmKept.of_same {s t u : State} (h : WarmKept s t) (htb : u.tb = t.tb) (hnor : u.nor = t.nor) (hfar : u.far = t.far)
    (hlog : u.mem.log = t.mem.log) (htdm : u.tdm = t.tdm) (htkr : u.tkr = t.tkr) (hfe : u.fe = t.fe) (hhif : u.hif = t.hif)
    (hstaged : u.staged = t.staged) (htick : u.tick = t.tick) (htm : u.tm = t.tm) (hdrv : u.drv = t.drv) (hphp : u.php = t.php)
    (hmtr : u.mtr = t.mtr) (hcrb : u.crb = t.crb) : WarmKept s u := by
  obtain ⟨h1, h2, h3, h4, h5, h6, h7, h8, h9, h10, h11, h12, h13, h14, h15, h16, h17⟩ := h
  constructor <;> simp only [*]

theorem WarmKept.setFld {s t : State} (h : WarmKept s t) (x : Fld) (v : Nat) : WarmKept s (t.setFld x v) := by
  apply h.of_same <;> rfl

theorem WarmKept.postTime {s t : State} (h : WarmKept s t) (typ a b : Nat) : WarmKept s (t.postTime typ a b) := by
  apply h.of_same <;> simp

theorem WarmKept.setSvc {s t : State} (h : WarmKept s t) (new cause : Nat) : WarmKept s (t.setSvc new cause) := by
  apply h.of_same <;> simp

theorem WarmKept.ite {s t u : State} {c : Prop} [Decidable c] (ht : WarmKept s t) (hu : WarmKept s u) : WarmKept s (if c then t else u) := by
  split
  · exact ht
  · exact hu

theorem State.warmStart_kept (s : State) : WarmKept s s.warmStart := by
  unfold State.warmStart
  exact .ite ((s.warmBase_kept.setFld _ _).postTime _ _ _) s.warmBase_kept

theorem WarmKept.strap {s t : State} (h : WarmKept s t) (m old : Nat) : WarmKept s (t.strap m old) := by
  unfold State.strap
  have hboot := ((h.setFld GLB_BOOT_MODE (strapMode m)).setFld GLB_BOOT_STRAP_BAD (b2n (decide (4 < m)))).setFld GLB_BOOT_SVC old
  exact .ite hboot (hboot.setSvc _ _)

theorem State.pinWarm_kept (s : State) (m : Nat) : WarmKept s (s.pinWarm m) := by
  unfold State.pinWarm
  have hcause := (s.warmStart_kept.strap m s.svc).setFld GLB_RST_CAUSE_LAST 1
  exact .ite (hcause.setFld _ _) hcause

theorem State.hostDevice_kept {s : State} {w : HostReset} (hw : ¬(w = .perst ∧ s.mode ≠ 0)) : WarmKept s (s.hostDevice w) := by
  unfold State.hostDevice
  rw [if_neg hw]
  have hcause := ((s.warmStart_kept.strap s.mode s.svc).setFld GLB_BOOT_STRAP_BAD (b2n (s.bit GLB_BOOT_STRAP_BAD))).setFld GLB_RST_CAUSE_LAST w.cause
  have hlink : ∀ link : Bool, WarmKept s { (((s.warmStart.strap s.mode s.svc).setFld GLB_BOOT_STRAP_BAD (b2n (s.bit GLB_BOOT_STRAP_BAD))).setFld
      GLB_RST_CAUSE_LAST w.cause) with pwr := { (((s.warmStart.strap s.mode s.svc).setFld GLB_BOOT_STRAP_BAD
        (b2n (s.bit GLB_BOOT_STRAP_BAD))).setFld GLB_RST_CAUSE_LAST w.cause).pwr with pcie := link } } := by
    intro link
    apply hcause.of_same <;> rfl
  exact .ite ((hlink _).setFld _ _) (hlink _)

/-- Settles O11: what `State.warmBase` keeps, no later step of a warm reset touches (`WarmKept`). -/
theorem warmResetsKeepWhatTheyMust : Obligations.WarmResetsKeepWhatTheyMust := by
  intro s c hc
  have hkept : ∃ t, exec c s = .next t ∧ WarmKept s t := by
    rcases hc with ⟨m, rfl⟩ | rfl | rfl | ⟨rfl, hmode⟩
    · exact ⟨_, rfl, s.pinWarm_kept m.val⟩
    · exact ⟨_, rfl, State.hostDevice_kept (by simp)⟩
    · exact ⟨_, rfl, State.hostDevice_kept (by simp)⟩
    · exact ⟨_, rfl, State.hostDevice_kept (by simp [hmode])⟩
  obtain ⟨t, hnext, h⟩ := hkept
  exact ⟨t, hnext, h.now, h.eff, h.commit, h.nor, h.factory, h.log, h.heard, h.bootc, h.fe, h.hif, h.staged, h.tick, h.tm, h.drv, h.php,
    h.mtr, h.crb⟩

/-! ### Power domains -/

theorem State.requestDomain_same {s : State} {d : Nat} {on : Bool} (h : bitB (s.reg GLB_PWR_REQ) d = on) : s.requestDomain d on = s :=
  if_pos h

theorem State.requestDomain_refused {s : State} {d : Nat} {on : Bool} (h : bitB (s.reg GLB_PWR_REQ) d ≠ on)
    (hno : s.svc = 4 ∨ (on = false ∧ s.mayOff d = false)) : s.requestDomain d on = s.raise GLB_PWR_STAT_REFUSED :=
  (if_neg h).trans (if_pos hno)

theorem State.requestDomain_rises {s : State} {d : Nat} (h : bitB (s.reg GLB_PWR_REQ) d = false) (hsvc : s.svc ≠ 4) :
    s.requestDomain d true =
      { s.setReg GLB_PWR_REQ (setBits (s.reg GLB_PWR_REQ) d 1 1) with pwr := { s.pwr with rising := s.pwr.rising ++ [d] } } := by
  simp [State.requestDomain, h, hsvc, b2n]

theorem State.requestDomain_falls {s : State} {d : Nat} (h : bitB (s.reg GLB_PWR_REQ) d = true) (hsvc : s.svc ≠ 4)
    (hmay : s.mayOff d = true) : s.requestDomain d false = (s.setReg GLB_PWR_REQ (setBits (s.reg GLB_PWR_REQ) d 1 0)).powerOff d := by
  simp [State.requestDomain, h, hsvc, hmay, b2n]

theorem State.domainReset_on {s : State} {d : Nat} (hd : d ≠ 0) (hon : s.domOn d = true) : s.domainReset d = s.resetDomain d :=
  if_neg (by simp [hd, hon])

theorem State.writeDomRst_media {s : State} {v : Nat} (h10 : bitB v 10 = true) (h11 : bitB v 11 = false) (h13 : bitB v 13 = false)
    (hsvc : s.svc ≠ 4) (hon : s.domOn 10 = true) : s.writeDomRst v = s.resetDomain 10 := by
  simp [State.writeDomRst, h10, h11, h13, State.hostReset, hsvc, State.mayOff, State.domainReset_on, hon]

/-- Settles O12: a request has one equation for each outcome of R556, and a reset of a domain that is on is `State.resetDomain`. -/
theorem domainsSwitchAndReset : Obligations.DomainsSwitchAndReset := by
  refine ⟨fun v s => rfl, ?request, ?arrives, ?saddle, ?host, ?perst, fun s hmode => congrArg _ (if_neg hmode)⟩
  case request =>
    intro d on s
    refine ⟨State.requestDomain_same, ?rises, ?falls, State.requestDomain_refused⟩
    case rises =>
      rintro h rfl hsvc
      exact State.requestDomain_rises h hsvc
    case falls =>
      rintro h rfl hsvc hmay
      exact State.requestDomain_falls h hsvc hmay
  case arrives => exact fun d s hrising => congrArg _ (if_pos hrising)
  case saddle => exact fun d s hd hon => congrArg _ (State.domainReset_on hd hon)
  case host => exact fun d v s h10 h11 h13 hsvc hon => congrArg _ (State.writeDomRst_media h10 h11 h13 hsvc hon)
  case perst => exact fun s hmode hon => congrArg _ ((if_pos hmode).trans (State.domainReset_on (by decide) hon))

/-! ### Start -/

theorem State.trained_eq {s : State} {n : Nat} (chB : Bool) (href : s.pwr.refLost = none) (hbase : s.reg64 GLB_DEVREG_BASE = 0)
    (hbytes : 2 ^ 33 ≤ n) :
    s.trained chB n =
      if chB then (s.clocksUp.switchOn [0, 1, 3, 4, 5, 6]).setReg64 GLB_DEVREG_BASE (n - devRegion)
      else (((s.clocksUp.switchOn [0, 1, 3, 4, 5, 6]).setReg64 GLB_DEVREG_BASE (n - devRegion)).setOn 5 false).setReg GLB_PWR_REQ
        (setBits (((s.clocksUp.switchOn [0, 1, 3, 4, 5, 6]).setReg64 GLB_DEVREG_BASE (n - devRegion)).reg GLB_PWR_REQ) 5 1 0) := by
  have hgo : ¬(s.pwr.refLost.isSome ∨ s.reg64 GLB_DEVREG_BASE ≠ 0 ∨ n < 2 ^ 33) := by
    rintro (h | h | h)
    · simp [href] at h
    · exact h hbase
    · omega
  exact if_neg hgo

theorem State.setOn_pwrReq (s : State) (d : Nat) (v : Bool) : (s.setOn d v).reg GLB_PWR_REQ = s.reg GLB_PWR_REQ :=
  State.reg_setReg_ne _ _ _ _ (by decide)

/-- What BOOT leaves before it chooses a slot and loads the bridle table. -/
def State.bootBase (s : State) : State :=
  (((s.clocksUp.bootDomains).loadFactory).startKeys).setFld IMG_STATUS_FLOOR s.img.floor

theorem State.bootUp_eq {s : State} (table : Option (List Byte)) (signed : Bool) (href : s.pwr.refLost = none) (hoff : s.domOn 12 = false)
    (hbase : 2 < s.mode ∨ s.reg64 GLB_DEVREG_BASE ≠ 0) :
    s.bootUp table signed =
      if s.bootBase.svc = 3 then s.bootBase.recoveryMasks
      else if s.bootBase.svc = 2 then s.bootBase.loadBridle none signed
      else if s.bootBase.chooseSlot.img.slot = none then (s.bootBase.chooseSlot.setSvc 3 1).recoveryMasks
      else s.bootBase.chooseSlot.loadBridle table signed := by
  have hgo : ¬(s.pwr.refLost.isSome ∨ s.domOn 12 ∨ (s.mode ≤ 2 ∧ s.reg64 GLB_DEVREG_BASE = 0)) := by
    rintro (h | h | ⟨h, h'⟩)
    · simp [href] at h
    · simp [hoff] at h
    · rcases hbase with hmode | hne
      · omega
      · exact hne h'
  unfold State.bootUp State.bootBase
  rw [if_neg hgo]

/-- Settles O13: training and boot pass their conditions by `State.trained_eq` and `State.bootUp_eq`; READY and the link have one
condition each. -/
theorem startTrainsBootsAndReadies : Obligations.StartTrainsBootsAndReadies := by
  refine ⟨?training, ?boot, ?ready, ?link, ?loopback, fun s => rfl⟩
  case training =>
    rintro n s u href hbase hbytes rfl
    refine ⟨congrArg _ (State.trained_eq true href hbase hbytes), congrArg _ ((State.trained_eq false href hbase hbytes).trans ?_)⟩
    rw [State.setOn_pwrReq]
    rfl
  case boot =>
    intro table signed m s r u hr href hoff hbase hu
    have hbootBase : u = r.bootBase := hu
    subst hbootBase
    have hboot : exec (.boot table signed m) s = .next (r.bootUp (table.map fun v => leBytes 32 v.toNat) signed) := by
      rw [hr]; rfl
    have heq := State.bootUp_eq (s := r) (table.map fun v => leBytes 32 v.toNat) signed (by rw [hr]; exact href) (by rw [hr]; exact hoff)
      (by rw [hr]; exact hbase)
    rw [hboot, heq]
    refine ⟨fun h3 => congrArg _ (if_pos h3), fun h2 => ?test, fun h3 h2 hslot => ?slot, fun h3 h2 hslot => ?noSlot⟩
    case test =>
      refine congrArg _ ((if_neg ?_).trans (if_pos h2))
      rw [h2]
      decide
    case slot => exact congrArg _ ((if_neg h3).trans ((if_neg h2).trans (if_neg hslot)))
    case noSlot => exact congrArg _ ((if_neg h3).trans ((if_neg h2).trans (if_pos hslot)))
  case ready =>
    intro s hinit hrestored hledger hreserve hslot hsvc
    refine congrArg _ (if_pos ?_)
    simp [hinit, hrestored, hledger, hreserve, hslot, hsvc]
  case link => exact fun s hmode hon hpll => congrArg _ (if_pos ⟨hmode, hon, hpll⟩)
  case loopback => exact fun s hlink => congrArg _ (if_pos hlink)

/-! ### Clocks, service states and restarts -/

theorem State.loseRef_present {s : State} (href : s.pwr.refLost = none) :
    s.loseRef = (((({ s with pwr := { s.pwr with refLost := some s.tb.now } } : State).raise GLB_CLK_STAT_REF_LOST).raise
      GLB_CLK_STAT_HOLD).clear GLB_CLK_STAT_REF_OK).postClock 0 none :=
  if_neg (by simp [href])

theorem State.regainRef_lost {s : State} {t : Nat} (href : s.pwr.refLost = some t) :
    s.regainRef = ((({ s with pwr := { s.pwr with refLost := none } } : State).clear GLB_CLK_STAT_HOLD).raise GLB_CLK_STAT_REF_OK).postClock 0
      (some t) := by
  simp only [State.regainRef, href]

theorem State.regainPll_lost {s : State} {k t : Nat} (hpll : sget noLoss s.pwr.pllLost k = some t) :
    s.regainPll k = (({ s with pwr := { s.pwr with pllLost := sput noLoss s.pwr.pllLost k none } } : State).setReg GLB_CLK_STAT
      (setBits (s.reg GLB_CLK_STAT) k 1 1)).postClock k (some t) := by
  simp only [State.regainPll, hpll]
  rfl

/-- The rider's reset domain is reset, and the restart counts. -/
def State.riderRestarted (s : State) : State := (((s.domainReset 2).clear HIF_STATUS_READY).bumpReg MEM_RIDER_RST 1).trialFails

theorem State.restartRider_due {s : State} (hdue : s.mem.riderDue = true) :
    s.restartRider =
      if 4 ≤ (s.riderRestarted.recentRestarts ++ [s.riderRestarted.tb.now]).length then
        ({ s.riderRestarted with mem := { s.riderRestarted.mem with
          riderDue := false, restarts := s.riderRestarted.recentRestarts ++ [s.riderRestarted.tb.now] } } : State).deviceFault 0xFF 11 0 0
      else { s.riderRestarted with mem := { s.riderRestarted.mem with
          riderDue := false, restarts := s.riderRestarted.recentRestarts ++ [s.riderRestarted.tb.now] } } :=
  if_neg (by simp [hdue])

/-- Settles O14: each command has one condition, which the statement meets; what follows is the model's own sequence. -/
theorem clocksServiceStatesAndRestarts : Obligations.ClocksServiceStatesAndRestarts := by
  refine ⟨?refLost, ?refBack, ?pllLost, ?pllBack, ?test, ?leave, ?rider, ?failsafe⟩
  case refLost => exact fun s href => congrArg _ (State.loseRef_present href)
  case refBack => exact fun t s href => congrArg _ (State.regainRef_lost href)
  case pllLost => exact fun k s hpll => congrArg _ (if_neg (by simp [hpll]))
  case pllBack => exact fun k t s hpll => congrArg _ (State.regainPll_lost hpll)
  case test => exact fun v s hbit hsvc hrun => congrArg _ (if_pos ⟨hbit, hsvc, hrun⟩)
  case leave => exact fun v s hbit hsvc => congrArg _ (if_pos ⟨hbit, hsvc⟩)
  case rider =>
    rintro s u ts hdue rfl rfl
    have heq := State.restartRider_due hdue
    exact ⟨fun hfew => congrArg _ (heq.trans (if_neg (Nat.not_le.mpr hfew))), fun hmany => congrArg _ (heq.trans (if_pos hmany))⟩
  case failsafe =>
    rintro s u v r hfault rfl rfl
    simp only [exec, execFailsafeSequence, State.failSafe, hfault, Nat.reducePow]

end Sys2Proof.Machine
end

section
/-! Ticks: RUN and DEPTH (R62 to R65), the three boundaries (R70, R88), the compose window (R68, R75, R210), the solve (R249) and the
closes (R378, R380) (O36 to O39). -/

namespace Sys2Proof.Machine

/-! ### RUN and DEPTH -/

/-- A TK_CTRL write that leaves DEPTH goes by its RUN bit. -/
theorem State.writeTkCtrl_run {s : State} {v : Nat} (hdepth : s.writeDepth v = s) :
    s.writeTkCtrl v = if bitB v 0 = s.run then s else if bitB v 0 then s.startRun else s.stopRun := by
  simp only [State.writeTkCtrl, hdepth]

theorem State.writeTkCtrl_start {s : State} {v : Nat} (hdepth : s.writeDepth (setBits v 0 1 1) = s) (hrun : s.run = false) :
    s.writeTkCtrl (setBits v 0 1 1) = s.startRun := by
  have hset : bitB (setBits v 0 1 1) 0 = true := bitB_setBits_self
  simp [State.writeTkCtrl_run hdepth, hset, hrun]

theorem State.writeTkCtrl_stop {s : State} {v : Nat} (hdepth : s.writeDepth (setBits v 0 1 0) = s) (hrun : s.run = true) :
    s.writeTkCtrl (setBits v 0 1 0) = s.stopRun := by
  have hclear : bitB (setBits v 0 1 0) 0 = false := bitB_setBits_self
  simp [State.writeTkCtrl_run hdepth, hclear, hrun]

theorem State.startRun_legal {s : State} (hperiod : s.runPeriod = s.periodRegs) (hok : s.runRefused s.runPeriod = false)
    (hreserve : s.tkr.reserve ≠ 0) : s.startRun = (s.raise TK_CTRL_RUN).nextSession.startAfter (s.tb.now + 100 * unitUs) := by
  rw [hperiod] at hok
  simp [State.startRun, hperiod, hok, hreserve]

theorem State.startRun_refused {s : State} (hperiod : s.runPeriod = s.periodRegs) (hno : s.runRefused s.runPeriod = true) :
    s.startRun = s.raise TK_STATUS_CLAMP := by
  rw [hperiod] at hno
  simp [State.startRun, hperiod, hno]

theorem State.stopRun_running {s : State} (hrunning : s.tick.running = true) :
    s.stopRun = { s.clear TK_CTRL_RUN with tick := { s.tick with startAfter := none, stopping := true } } := if_pos hrunning

theorem State.stopRun_waiting {s : State} (hidle : s.tick.running = false) :
    s.stopRun = ({ s.clear TK_CTRL_RUN with tick := { s.tick with startAfter := none } } : State).dropChange.applyAll := by
  simp [State.stopRun, hidle]

/-- A lower depth within the range loads while RUN is 0. -/
theorem State.writeDepth_lowers {s : State} {v : Nat} (hrun : s.run = false) (hlo : 2 ≤ bitsOf v 4 3)
    (hhi : bitsOf v 4 3 ≤ s.fld GLB_CAP4_PIPE_MAX) (hlt : bitsOf v 4 3 < s.depth) :
    s.writeDepth v = s.setFld TK_CTRL_DEPTH (bitsOf v 4 3) := by
  have hclamp : clampN 2 (s.fld GLB_CAP4_PIPE_MAX) (bitsOf v 4 3) = bitsOf v 4 3 := by
    simp [clampN, Nat.not_lt.mpr hlo, Nat.not_lt.mpr hhi]
  simp only [State.writeDepth, hclamp, if_true, if_neg (Nat.ne_of_lt hlt), hrun, Bool.false_eq_true, if_false, if_neg (Nat.lt_asymm hlt)]

theorem State.writeTkCtrl_depth {s : State} {v : Nat} (hwf : swf regDflt s.regs = true) (hrun : s.run = false) (hlo : 2 ≤ bitsOf v 4 3)
    (hhi : bitsOf v 4 3 ≤ s.fld GLB_CAP4_PIPE_MAX) (hlt : bitsOf v 4 3 < s.depth) :
    s.writeTkCtrl (setBits v 0 1 (b2n s.run)) = s.setFld TK_CTRL_DEPTH (bitsOf v 4 3) := by
  have hfield : bitsOf (setBits v 0 1 (b2n s.run)) 4 3 = bitsOf v 4 3 := bitsOf_setBits_above (by decide)
  have hclear : bitB (setBits v 0 1 (b2n s.run)) 0 = false := by rw [hrun]; exact bitB_setBits_self
  have hload : s.writeDepth (setBits v 0 1 (b2n s.run)) = s.setFld TK_CTRL_DEPTH (bitsOf v 4 3) := by
    have h := State.writeDepth_lowers (v := setBits v 0 1 (b2n s.run)) hrun (by rwa [hfield]) (by rwa [hfield]) (by rwa [hfield])
    rwa [hfield] at h
  have hkept : (s.setFld TK_CTRL_DEPTH (bitsOf v 4 3)).run = false :=
    (s.bit_setFld_apart TK_CTRL_RUN TK_CTRL_DEPTH _ rfl (by decide) hwf (by decide)).trans hrun
  simp [State.writeTkCtrl, hload, hclear, hkept]

/-- Settles O36: a write of TK_CTRL is a write of DEPTH and then of RUN, and each has one equation for each outcome. -/
theorem ticksStartAndStop : Obligations.TicksStartAndStop := by
  refine ⟨?start, ?refused, ?stop, ?depth⟩
  case start =>
    intro v s hdepth hrun hperiod hok hreserve
    exact congrArg _ ((State.writeTkCtrl_start hdepth hrun).trans (State.startRun_legal hperiod hok hreserve))
  case refused =>
    intro v s hdepth hrun hperiod hno
    exact congrArg _ ((State.writeTkCtrl_start hdepth hrun).trans (State.startRun_refused hperiod hno))
  case stop =>
    intro v s hdepth hrun
    have hstop := State.writeTkCtrl_stop hdepth hrun
    exact ⟨fun hrunning => congrArg _ (hstop.trans (State.stopRun_running hrunning)),
      fun hidle => congrArg _ (hstop.trans (State.stopRun_waiting hidle))⟩
  case depth =>
    rintro v s ⟨hwf, -, -⟩ hrun hlo hhi hlt
    exact congrArg _ (State.writeTkCtrl_depth hwf hrun hlo hhi hlt)

/-! ### Boundaries -/

/-- Settles O37: past its condition each boundary is the model's own sequence; a run of time leaves the tick unit alone. -/
theorem boundariesActInOrder : Obligations.BoundariesActInOrder := by
  refine ⟨?opening, ?next, ?stopping⟩
  case opening =>
    rintro s r t u k hidle hpending hdown rfl rfl rfl hrole rfl htick
    have hgo : ¬(s.tick.running = true ∨ s.tick.startAfter.isNone = true) := by
      rintro (h | h)
      · simp [hidle] at h
      · simp [Option.isNone_iff_eq_none.mp h] at hpending
    simp only [exec, execFirstBoundary, State.beginRun, if_neg hgo, htick, Nat.reducePow, if_pos hrole]
  case next =>
    rintro errs s r t u v hrunning hgoing rfl rfl rfl rfl
    have hgo : ¬(s.tick.running = false ∨ s.tick.stopping = true) := by simp [hrunning, hgoing]
    simp only [exec, execTickBoundary, State.boundary, if_neg hgo, Nat.reducePow]
  case stopping =>
    rintro s r t u v w hrunning hstopping rfl rfl rfl rfl rfl
    have hgo : ¬(s.tick.running = false ∨ s.tick.stopping = false) := by simp [hrunning, hstopping]
    refine ⟨fun hnone => ?ends, fun a hsome => ?restarts⟩
    case ends => simp only [exec, execStoppingBoundary, State.endRun, if_neg hgo, hnone]
    case restarts => simp only [exec, execStoppingBoundary, State.endRun, if_neg hgo, hsome]

/-! ### The compose window -/

/-- Settles O38: the frame in compose and the state of the window select the branch. -/
theorem composeRunsItsWindow : Obligations.ComposeRunsItsWindow := by
  refine ⟨?start, ?segment, ?deadline⟩
  case start =>
    rintro hs s r u f g hframe hrunning hnot hopen rfl rfl rfl
    have hgo : ¬(s.tick.running = false ∨ s.tick.composing = true ∨ s.tick.composed = true) := by simp [hrunning, hnot, hopen]
    refine ⟨fun hsome => ?opens, fun hnone => ?empty⟩
    case opens => simp only [exec, execComposeStart, State.startCompose, hframe, if_neg hgo, if_neg hsome]
    case empty => simp only [exec, execComposeStart, State.startCompose, hframe, if_neg hgo, if_pos hnone]
  case segment =>
    intro seg stall alone host dram errs s f hframe hcomposing hready hmay hclean
    have hgo : ¬(s.tick.composing = false ∨ f.laneReady seg.val = false ∨ s.mayCompose = false) := by simp [hcomposing, hready, hmay]
    simp only [exec, execSegmentCompose, State.composeStep, hframe, if_neg hgo, hclean, Bool.false_eq_true, if_false]
  case deadline =>
    rintro s r f g hframe hcomposing rfl rfl
    simp only [exec, execComposeDeadline, State.composeEnd, hframe, hcomposing, Bool.true_eq_false, if_false]

/-! ### The solve and the closes -/

/-- Settles O39: each command meets its condition, and what follows is the model's own sequence. -/
theorem theGovernorSolvesAndTelemetryCloses : Obligations.TheGovernorSolvesAndTelemetryCloses := by
  refine ⟨?solve, ?close, ?free⟩
  case solve =>
    rintro s u f g hframe hmay rfl hsettled
    simp only [exec, execCurbSolve, State.curbSolve, hframe, hmay, Bool.true_eq_false, if_false, hsettled]
    rfl
  case close =>
    rintro s r hrunning hopen rfl
    have hgo : ¬(s.tick.running = false ∨ s.tick.closed = true) := by simp [hrunning, hopen]
    exact congrArg _ (if_neg hgo)
  case free =>
    rintro s r u hrun hidle rfl rfl
    have hgo : ¬(s.run = true ∨ s.tick.running = true) := by simp [hrun, hidle]
    refine ⟨fun hround => ?plain, fun hepoch => ?epoch⟩
    case plain => simp only [exec, execFreeClose, State.freeClose, if_neg hgo, if_neg hround]
    case epoch => simp only [exec, execFreeClose, State.freeClose, if_neg hgo, if_pos hepoch]

end Sys2Proof.Machine
end

section
/-! Host rings (R93 to R107, R112, R123), the start and the waits of descriptors (R99, R100, R129 to R131) and the binding of fences
(R138) (O15, O17 to O20). -/

namespace Sys2Proof.Machine

/-! ### Doorbells -/

theorem State.ringSq_fits {s : State} {i v : Nat} (hon : s.sqOn i = true) (hahead : idxDiff v (s.reg (HIF_SQ_TAIL i)) < 2147483648)
    (hsize : idxDiff v (s.reg (HIF_SQ_HEAD i)) ≤ s.sqSize i) : s.ringSq i v = s.setReg (HIF_SQ_TAIL i) v := by
  simp only [State.ringSq, Nat.reducePow, hon, Bool.true_eq_false, if_false, if_neg (Nat.not_le.mpr hahead), if_neg (Nat.not_lt.mpr hsize)]

theorem State.ringCq_fits {s : State} {c v : Nat} (hon : s.cqOn c = true) (hahead : idxDiff v (s.reg (HIF_CQ_HEAD c)) < 2147483648)
    (hwritten : idxDiff v (s.reg (HIF_CQ_HEAD c)) ≤ idxDiff (s.reg (HIF_CQ_TAIL c)) (s.reg (HIF_CQ_HEAD c))) :
    s.ringCq c v = s.setReg (HIF_CQ_HEAD c) v := by
  simp only [State.ringCq, Nat.reducePow, hon, Bool.true_eq_false, if_false, if_neg (Nat.not_le.mpr hahead), if_neg (Nat.not_lt.mpr hwritten)]

theorem State.ringEq_fits {s : State} {e v : Nat} (hon : s.eqOn e = true) (hahead : idxDiff v (s.reg (HIF_EQ_HEAD e)) < 2147483648)
    (hwritten : idxDiff v (s.reg (HIF_EQ_HEAD e)) ≤ idxDiff (s.reg (HIF_EQ_TAIL e)) (s.reg (HIF_EQ_HEAD e))) :
    s.ringEq e v = s.setReg (HIF_EQ_HEAD e) v := by
  simp only [State.ringEq, Nat.reducePow, hon, Bool.true_eq_false, if_false, if_neg (Nat.not_le.mpr hahead), if_neg (Nat.not_lt.mpr hwritten)]

theorem doorbellOk_aligned : doorbellOk 0 4 = true := by decide

/-- Settles O15: an aligned write to offset 0 is a doorbell, and each kind of ring has one equation for an index that fits. -/
theorem doorbellsMoveTheIndices : Obligations.DoorbellsMoveTheIndices := by
  refine ⟨?sq, ?cq, ?eq⟩
  case sq =>
    intro r v s hon hahead hsize
    simp only [exec, execSqDoorbell, doorbellOk_aligned, if_true, State.ringSq_fits hon hahead hsize]
  case cq =>
    intro r v s hon hahead hwritten
    simp only [exec, execCqDoorbell, doorbellOk_aligned, if_true, State.ringCq_fits hon hahead hwritten]
  case eq =>
    intro r v s hon hahead hwritten
    simp only [exec, execEqDoorbell, doorbellOk_aligned, if_true, State.ringEq_fits hon hahead hwritten]

/-! ### Ring control -/

theorem bitB_enSet (v : Nat) : bitB (setBits v 0 1 1) 0 = true := bitB_setBits_self

theorem bitB_enCleared (v : Nat) : bitB (setBits v 0 1 0) 0 = false := bitB_setBits_self

theorem State.writeSqCtrl_enables {s : State} {i v : Nat} (hwas : s.bit (HIF_SQ_CTRL_EN i) = false) (hen : bitB v 0 = true) :
    s.writeSqCtrl i v =
      (((s.setReg (HIF_SQ_CTRL i) (bitsOf v 0 3 + bitsOf v 8 5 * 256 + bitsOf v 16 3 * 65536)).setReg (HIF_SQ_HEAD i) 0).setReg
        (HIF_SQ_TAIL i) 0).clear (HIF_SQ_STAT_CAUSE i) := by
  simp only [State.writeSqCtrl, hwas, hen, Bool.false_eq_true, if_false, if_true]

theorem State.writeSqCtrl_disables {s : State} {i v : Nat} (hwas : s.bit (HIF_SQ_CTRL_EN i) = true) (hen : bitB v 0 = false) :
    s.writeSqCtrl i v =
      (s.setReg (HIF_SQ_CTRL i) (bitsOf v 0 3 + s.fld (HIF_SQ_CTRL_CQ i) * 256 + bitsOf v 16 3 * 65536)).discardSq i := by
  simp only [State.writeSqCtrl, hwas, hen, Bool.false_eq_true, Bool.true_eq_false, if_false, if_true]

theorem State.writeCqCtrl_enables {s : State} {c v : Nat} (hwas : s.bit (HIF_CQ_CTRL_EN c) = false) (hen : bitB v 0 = true) :
    s.writeCqCtrl c v =
      (((s.setReg (HIF_CQ_CTRL c) (bitsOf v 0 1 + bitsOf v 8 6 * 256 + bitsOf v 16 16 * 65536)).setReg (HIF_CQ_HEAD c) 0).setReg
        (HIF_CQ_TAIL c) 0).clear (HIF_CQ_STAT_CAUSE c) := by
  simp only [State.writeCqCtrl, hwas, hen, and_self, if_true]

theorem State.writeCqCtrl_disables {s : State} {c v : Nat} (hen : bitB v 0 = false) :
    s.writeCqCtrl c v = s.setReg (HIF_CQ_CTRL c) (bitsOf v 0 1 + bitsOf v 8 6 * 256 + bitsOf v 16 16 * 65536) := by
  simp only [State.writeCqCtrl, hen, Bool.false_eq_true, and_false, if_false]

theorem State.writeEqCtrl_enables {s : State} {e v : Nat} (hwas : s.bit (HIF_EQ_CTRL_EN e) = false) (hen : bitB v 0 = true) :
    s.writeEqCtrl e v =
      (((s.setReg (HIF_EQ_CTRL e) (bitsOf v 0 1 + bitsOf v 8 6 * 256 + bitsOf v 16 16 * 65536)).setReg (HIF_EQ_HEAD e) 0).setReg
        (HIF_EQ_TAIL e) 0).clear (HIF_EQ_STAT_CAUSE e) := by
  simp only [State.writeEqCtrl, hwas, hen, and_self, if_true]

theorem State.writeEqCtrl_disables {s : State} {e v : Nat} (hen : bitB v 0 = false) :
    s.writeEqCtrl e v = s.setReg (HIF_EQ_CTRL e) (bitsOf v 0 1 + bitsOf v 8 6 * 256 + bitsOf v 16 16 * 65536) := by
  simp only [State.writeEqCtrl, hen, Bool.false_eq_true, and_false, if_false]

/-- An access to the host interface while its domain is on. -/
theorem State.onBlock_hif {s : State} (t : State) (hon : s.domOn 3 = true) : s.onBlock HIF_STATUS t = t :=
  State.onBlock_on (d := 3) t (by decide) hon

/-- Settles O17: RING_ENABLE and RING_DISABLE are CTRL writes with EN set and cleared, and each kind of ring has one equation for
each. -/
theorem ringControlStartsAndStopsRings : Obligations.RingControlStartsAndStopsRings := by
  refine ⟨?sqOn, ?cqOn, ?eqOn, ?sqOff, ?cqOff, ?eqOff⟩
  case sqOn =>
    exact fun i v s hon hwas _ => congrArg _ ((State.onBlock_hif _ hon).trans (State.writeSqCtrl_enables hwas (bitB_enSet _)))
  case cqOn =>
    exact fun c v s hon hwas _ => congrArg _ ((State.onBlock_hif _ hon).trans (State.writeCqCtrl_enables hwas (bitB_enSet _)))
  case eqOn =>
    exact fun e v s hon hwas _ => congrArg _ ((State.onBlock_hif _ hon).trans (State.writeEqCtrl_enables hwas (bitB_enSet _)))
  case sqOff =>
    exact fun i v s hon hwas => congrArg _ ((State.onBlock_hif _ hon).trans (State.writeSqCtrl_disables hwas (bitB_enCleared _)))
  case cqOff => exact fun c v s hon => congrArg _ ((State.onBlock_hif _ hon).trans (State.writeCqCtrl_disables (bitB_enCleared _)))
  case eqOff => exact fun e v s hon => congrArg _ ((State.onBlock_hif _ hon).trans (State.writeEqCtrl_disables (bitB_enCleared _)))

/-! ### Fetching and starting -/

theorem State.fetch_reads {s : State} {i : Nat} (b : List Byte) (hready : s.bit HIF_STATUS_READY = true) (hrecovery : s.svc ≠ 3)
    (hfailsafe : s.svc ≠ 4) (hon : s.sqOn i = true) (hmore : s.reg (HIF_SQ_HEAD i) ≠ s.reg (HIF_SQ_TAIL i))
    (hcq : (s.cq (s.fld (HIF_SQ_CTRL_CQ i))).stalled = false) :
    s.fetch i (some b) =
      (s.setSq i { s.sq i with store := (s.sq i).store ++ [b] }).setReg (HIF_SQ_HEAD i) ((s.reg (HIF_SQ_HEAD i) + 1) % 4294967296) := by
  have hgo : ¬(s.bit HIF_STATUS_READY = false ∨ s.svc = 3 ∨ s.svc = 4 ∨ s.sqOn i = false ∨ s.reg (HIF_SQ_HEAD i) = s.reg (HIF_SQ_TAIL i) ∨
      (s.cq (s.fld (HIF_SQ_CTRL_CQ i))).stalled = true) := by
    simp [hready, hrecovery, hfailsafe, hon, hmore, hcq]
  simp only [State.fetch, if_neg hgo, Nat.reducePow]

/-- The ring picked takes its oldest descriptor, whose head checks see the state as it was. -/
theorem State.startNext_head {s : State} {i : Nat} {b : List Byte} {rest : List (List Byte)} (hpick : s.pickRing s.sqReady = some i)
    (hstore : (s.sq i).store = b :: rest) (hcheck : s.headCheck b = none) :
    s.startNext =
      if dWait b = true ∧ s.waitDone b = false then
        (s.setSq i { s.sq i with store := rest }).setSq i
          { store := rest, waiting := some { bytes := b, since := s.tb.now, tmo := s.reg (HIF_SQ_FTMO i) } }
      else (s.setSq i { s.sq i with store := rest }).startExec i b := by
  have hcheck' : (s.setSq i { s.sq i with store := rest }).headCheck b = none := hcheck
  simp only [State.startNext, hpick, State.startHead, hstore, hcheck']
  rfl

/-- Settles O18: a fetch meets none of the conditions that hold it, and `State.startNext_head` says where the head goes. -/
theorem descriptorsAreFetchedAndStarted : Obligations.DescriptorsAreFetchedAndStarted := by
  refine ⟨?fetch, ?starts, ?waits⟩
  case fetch =>
    intro r d s hready hrecovery hfailsafe hon hmore hcq
    exact congrArg _ (State.fetch_reads (descBytes d) hready hrecovery hfailsafe hon hmore hcq)
  case starts =>
    intro i b rest s hpick hstore hcheck hfree
    refine congrArg _ ((State.startNext_head hpick hstore hcheck).trans (if_neg ?_))
    rintro ⟨hwait, hdone⟩
    simp [hwait, hdone] at hfree
  case waits =>
    intro i b rest s hpick hstore hcheck hwait hdone
    exact congrArg _ ((State.startNext_head hpick hstore hcheck).trans (if_pos ⟨hwait, hdone⟩))

/-! ### Waits -/

theorem State.releaseOne_idle {s : State} (hnone : s.pickRing s.waitSatisfied = none) : s.releaseOne = s := by
  simp only [State.releaseOne, hnone]

theorem State.releaseMany_idle {s : State} (hnone : s.pickRing s.waitSatisfied = none) (n : Nat) : s.releaseMany n = s := by
  induction n with
  | zero => rfl
  | succ n ih => rw [State.releaseMany, State.releaseOne_idle hnone, ih]

theorem State.releaseOne_starts {s : State} {i : Nat} {w : Waiting} (hpick : s.pickRing s.waitSatisfied = some i)
    (hwait : (s.sq i).waiting = some w) : s.releaseOne = (s.setSq i { s.sq i with waiting := none }).startExec i w.bytes := by
  simp only [State.releaseOne, hpick, hwait]

theorem State.releaseWaits_idle {s : State} (hidle : s.tick.running = false) : s.releaseWaits = s.releaseMany 32 := by
  simp [State.releaseWaits, hidle]

theorem State.runTo_past {s : State} {t : Nat} (h : t ≤ s.tb.now) : s.runTo t = s := if_pos h

/-- The state once the wait of ring `i` has ended unsatisfied and counts. -/
def State.waitCounted (s : State) (i : Nat) : State :=
  (s.setSq i { s.sq i with waiting := none }).bump HIF_FENCE_STAT_TIMEOUTS 1

theorem State.endWait_times_out {s : State} {i : Nat} {w : Waiting} (hwait : (s.sq i).waiting = some w)
    (hcheck : (s.waitCounted i).firstCheck { sq := i, bytes := w.bytes } (opChecks (s.waitCounted i) w.bytes) = none) :
    s.endWait i = (s.waitCounted i).failDesc { sq := i, bytes := w.bytes } stFenceTimeout ((s.waitCounted i).fenceShown (dFenceId w.bytes)) := by
  unfold State.waitCounted at hcheck
  simp only [State.endWait, hwait, hcheck]
  rfl

theorem State.waitTimeout_ends {s : State} {i : Nat} {w : Waiting} (hwait : (s.sq i).waiting = some w)
    (hbroken : dFenceId w.bytes ∉ s.hif.broken) (htimes : s.waitTimes w = true) (hdone : s.waitDone w.bytes = false)
    (hpast : w.since + w.tmo * unitMs ≤ s.tb.now) : s.waitTimeout i = s.endWait i := by
  simp [State.waitTimeout, hwait, hbroken, htimes, hdone, State.runTo_past hpast]

/-- Settles O19: after the one release the rest of the 32 find nothing (`State.releaseMany_idle`), and a timeout that time has passed
ends its wait where it stands. -/
theorem waitsEndSatisfiedOrTimedOut : Obligations.WaitsEndSatisfiedOrTimedOut := by
  refine ⟨?released, ?timedOut⟩
  case released =>
    intro i w s hidle hpick hwait hnone
    refine congrArg _ ((State.releaseWaits_idle hidle).trans ?_)
    rw [State.releaseMany, State.releaseOne_starts hpick hwait, State.releaseMany_idle hnone]
  case timedOut =>
    rintro r w s t hwait hbroken htimes hdone hpast rfl hcheck
    exact congrArg _ ((State.waitTimeout_ends hwait hbroken htimes hdone hpast).trans (State.endWait_times_out hwait hcheck))

/-! ### Completions, coalescing and binding -/

theorem State.postCompletion_due {s : State} {c : Nat} {e : Completion} {rest : List Completion} (ok : Bool) (hon : s.cqOn c = true)
    (hspace : s.cqSpace c = true) (hheld : (s.cq c).held = e :: rest) :
    s.postCompletion c ok = if ok then s.writeCompletion c else s.stopCq c 2 (s.reg (HIF_CQ_TAIL c)) :=
  if_neg (by simp [hon, hspace, hheld])

/-- The oldest entry of completion ring `c`, which signals no fence, is written and reported. -/
theorem State.writeCompletion_noSignal {s : State} {c : Nat} {e : Completion} {rest : List Completion} (hheld : (s.cq c).held = e :: rest)
    (hsignal : e.signal = none) :
    s.writeCompletion c =
      (((s.emit (.hostWrite (s.reg64 (HIF_CQ_BASE c) + s.reg (HIF_CQ_TAIL c) % 2 ^ s.cqLg c * 16)
        (e.bytes (s.reg (HIF_SQ_HEAD e.sq)) (phaseBit (s.reg (HIF_CQ_TAIL c)) (s.cqLg c))))).setReg (HIF_CQ_TAIL c)
          ((s.reg (HIF_CQ_TAIL c) + 1) % 4294967296)).setCq c
        ({ s.cq c with held := rest, stalled := (s.cq c).stalled && decide (heldMax ≤ rest.length) }.wrote s.tb.now)).cqReport c := by
  simp only [State.writeCompletion, hheld, hsignal, Nat.reducePow]
  rfl

/-- Another source than `k` has the fence bound. -/
theorem State.boundElsewhere_iff (s : State) (k : Fin 22) (f : Nat) :
    ((List.range 22).any fun j => decide (j ≠ k.val) && s.boundAt j f) = true ↔ ∃ j : Fin 22, j ≠ k ∧ s.boundAt j.val f = true := by
  simp only [List.any_eq_true, List.mem_range, Bool.and_eq_true, decide_eq_true_eq]
  constructor
  · rintro ⟨j, hj, hne, hbound⟩
    exact ⟨⟨j, hj⟩, fun h => hne (congrArg Fin.val h), hbound⟩
  · rintro ⟨j, hne, hbound⟩
    exact ⟨j.val, j.isLt, fun h => hne (Fin.ext h), hbound⟩

theorem State.writeFbind_loads {s : State} {k : Fin 22} {v : Nat}
    (h : bitB v 31 = false ∨ (bitsOf v 0 12 ≠ 0 ∧ ∀ j : Fin 22, j ≠ k → s.boundAt j.val (bitsOf v 0 12) = false)) :
    s.writeFbind k.val v = s.setReg (HIF_FBIND k.val) (bitsOf v 31 1 * 2147483648 + bitsOf v 0 12) := by
  simp only [State.writeFbind, Nat.reducePow]
  refine if_neg ?_
  rw [State.boundElsewhere_iff]
  rintro ⟨hset, hbad⟩
  rcases h with hclear | ⟨hfence, hfree⟩
  · simp [hset] at hclear
  · rcases hbad with hzero | ⟨j, hne, hbound⟩
    · exact hfence hzero
    · simp [hfree j hne] at hbound

theorem State.writeFbind_drops {s : State} {k : Fin 22} {v : Nat} (hset : bitB v 31 = true)
    (h : bitsOf v 0 12 = 0 ∨ ∃ j : Fin 22, j ≠ k ∧ s.boundAt j.val (bitsOf v 0 12) = true) :
    s.writeFbind k.val v = s.raise HIF_FENCE_STAT_BIND_DROP := by
  refine if_pos ⟨hset, ?_⟩
  rw [State.boundElsewhere_iff]
  exact h

/-- Settles O20: a due entry is written or stops its ring, a timer reports what is unreported, and a binding loads unless another
source has the fence (`State.boundElsewhere_iff`). -/
theorem completionsCoalescingAndBinding : Obligations.CompletionsCoalescingAndBinding := by
  refine ⟨?post, ?fail, ?cqTimer, ?eqTimer, ?binds, ?drops⟩
  case post =>
    intro c e rest s hon hspace hheld hsignal
    exact congrArg _ ((State.postCompletion_due true hon hspace hheld).trans (State.writeCompletion_noSignal hheld hsignal))
  case fail => exact fun c e rest s hon hspace hheld => congrArg _ (State.postCompletion_due false hon hspace hheld)
  case cqTimer =>
    intro c s hnew
    simp only [exec, execMsixCoalesceTimeout, State.coalesce, if_neg hnew, State.runTo_fld]
  case eqTimer =>
    intro e s hnew
    simp only [exec, execMsixCoalesceTimeout, State.coalesce, if_neg hnew, State.runTo_fld]
  case binds => exact fun k v s hon h => congrArg _ ((State.onBlock_hif _ hon).trans (State.writeFbind_loads h))
  case drops => exact fun k v s hon hset h => congrArg _ ((State.onBlock_hif _ hon).trans (State.writeFbind_drops hset h))

end Sys2Proof.Machine
end


section
/-! The descriptors that pass their checks and act now (R116): what each effect comes to, an equation for each case, and
O21 to O26 from `runOp_acts` and those equations. -/

namespace Sys2Proof.Machine

/-! ### The shared flow -/

/-- The state in which a descriptor that acts now leaves the unit is its effect's. -/
theorem runOp_next {s u t : State} {r op : Nat} {payload : Option (List Byte)} {checks : State → List Byte → OpChecks}
    {reserve effect : State → Running → List Byte → State} {d : Running} {data : List Byte}
    (h : s.Acts r op payload checks reserve d data u) (ht : effect u d data = t) :
    (.next (s.runOp r op payload checks reserve effect) : Res) = .next t :=
  congrArg _ ((runOp_acts effect h).trans ht)

/-! ### Fences and layers -/

theorem fenceEffect_signals {s : State} {d : Running} {data : List Byte} (h : leAt d.bytes 16 4 ≠ 0xFFFFFFFF) :
    s.fenceEffect d data = (s.signal (leAt d.bytes 16 4) (leAt d.bytes 24 8)).finish d stOk 0 := by
  simp only [State.fenceEffect, if_neg h]

theorem fenceEffect_without {s : State} {d : Running} {data : List Byte} (h : leAt d.bytes 16 4 = 0xFFFFFFFF) :
    s.fenceEffect d data = s.finish d stOk 0 := by
  simp only [State.fenceEffect, if_pos h]

theorem registerEffect_accepted {s : State} {d : Running} {data : List Byte} {l : Layer}
    (h : sget noLayer s.fe.registering (leAt d.bytes 16 2) = some l) :
    s.registerEffect d data = ((s.setLayer (leAt d.bytes 16 2) (some l)).setRegistering (leAt d.bytes 16 2) none).done d := by
  simp only [State.registerEffect, h]

theorem updateEffect_adds {s : State} {d : Running} {data : List Byte} {l : Layer} (h : s.layer (leAt d.bytes 16 2) = some l) :
    s.updateEffect d data = (s.setLayer (leAt d.bytes 16 2) (some { l with bufs := l.bufs ++ [{ gen := leAt d.bytes 20 4, addr := leAt d.bytes 32 8, rel := relOf d.bytes, late := s.run && s.pastCutoff }] })).finish d stOk 0 := by
  simp only [State.updateEffect, h, dHostAddr]

theorem retireEffect_stopped {s : State} {d : Running} {data : List Byte} {l : Layer} (h : s.layer (leAt d.bytes 16 2) = some l) (hr : s.run = false) :
    s.retireEffect d data = (((((l.bufs.foldl (fun t h => t.signalRel h.rel) s).setLayer (leAt d.bytes 16 2) none).signalRel (relOf d.bytes)).discardCues
      (leAt d.bytes 16 2) 0 fun _ => true).done d) := by
  simp only [State.retireEffect, State.retireNow, hr, h, Bool.false_eq_true, if_false]

/-- Settles O21: each effect is the one its equation states. -/
theorem plainAndLayerDescriptorsAct : Obligations.PlainAndLayerDescriptorsAct := by
  unfold Obligations.PlainAndLayerDescriptorsAct
  refine ⟨?nop, ?signals, ?without, ?register, ?update, ?retire⟩
  case nop => exact fun r s u d data h => runOp_next h rfl
  case signals => exact fun r s u d data h hf => runOp_next h (fenceEffect_signals hf)
  case without => exact fun r s u d data h hf => runOp_next h (fenceEffect_without hf)
  case register => exact fun r s u d data l h hl => runOp_next h (registerEffect_accepted hl)
  case update => exact fun r s u d data l h hl => runOp_next h (updateEffect_adds hl)
  case retire => exact fun r s u d data l h hl hr => runOp_next h (retireEffect_stopped hl hr)

/-! ### The map, the colour tables and the cue store -/

theorem mapEffect_applies {s : State} {d : Running} {data : List Byte} {c : MapChange} {cs : List MapChange} (h : s.fe.changes = c :: cs) :
    s.mapEffect d data = ({ s with fe := { s.fe with blocks := c.apply s.fe.blocks, changes := cs } } : State).done d := by
  simp only [State.mapEffect, h]

theorem cueEffect_holds {s : State} {d : Running} {data : List Byte} (h : s.cueLate (leAt d.bytes 40 8) (s.boundFor d) = false) :
    s.cueEffect d data = (s.holdCue (leAt d.bytes 16 2) (leAt d.bytes 40 8) (cueRecs (leAt d.bytes 20 4) data)).finish d stOk (leAt d.bytes 40 8) := by
  simp only [State.cueEffect, h, Bool.false_eq_true, if_false]

/-- Settles O22: each effect is the one its equation states. -/
theorem mapColourAndCueDescriptorsAct : Obligations.MapColourAndCueDescriptorsAct := by
  unfold Obligations.MapColourAndCueDescriptorsAct
  refine ⟨?load, ?patch, ?colour, ?cue⟩
  case load => exact fun r p s u d data c cs h hc => runOp_next h (mapEffect_applies hc)
  case patch => exact fun r p s u d data c cs h hc => runOp_next h (mapEffect_applies hc)
  case colour => exact fun r p s u d data h => runOp_next h rfl
  case cue => exact fun r p s u d data h hl => runOp_next h (cueEffect_holds hl)

/-! ### The gait, the limits and the policies -/

theorem gaitEffect_pends {s : State} {d : Running} {data : List Byte} {e : Nat} (hr : s.run = true) (hb : gTickBad d.bytes (s.boundFor d) = false)
    (hc : s.tick.change = none) (he : e = (if gTick d.bytes = 0 then s.boundFor d + 2 else gTick d.bytes)) :
    s.gaitEffect d data = (({ s with tick := { s.tick with change := some { mask := gMask d.bytes, gait := gGait d.bytes, periodNs := leAt d.bytes 20 4, periodFrac := leAt d.bytes 24 4, raster := leAt d.bytes 40 8, effTick := e, fixTick := s.boundFor d } } } : State).setReg64 TK_CHG_TICK e).finish d stOk e := by
  simp only [State.gaitEffect, hr, hb, hc, ← he, Bool.true_eq_false, Bool.false_eq_true, if_false, Option.isSome_none]

theorem curbEffect_phases {s : State} {d : Running} {data : List Byte} (h : byteAt d.bytes 16 = 0) :
    s.curbEffect d data = ((List.range 4).foldl (fun t q => if bitB (byteAt d.bytes 18) q then
      t.setLimit 0 (4 * byteAt d.bytes 17 + q) (leAt d.bytes 20 4) else t) s).done d := by
  simp only [State.curbEffect, h]

theorem curbEffect_breaker {s : State} {d : Running} {data : List Byte} (h : byteAt d.bytes 16 = 1) :
    s.curbEffect d data = (s.setLimit 1 (byteAt d.bytes 17) (leAt d.bytes 20 4)).done d := by
  simp only [State.curbEffect, h]

theorem curbEffect_site {s : State} {d : Running} {data : List Byte} (h : byteAt d.bytes 16 = 2) :
    s.curbEffect d data = (s.setLimit 2 0 (leAt d.bytes 20 4)).done d := by
  simp only [State.curbEffect, h]

theorem phaseEffect_now {s : State} {d : Running} {data : List Byte} (h : s.tick.running = false) :
    s.phaseEffect d data = (s.putPolicy { boundary := s.tickNo, feed := byteAt d.bytes 16, mode := byteAt d.bytes 17, target := leAt d.bytes 20 4, recs := if byteAt d.bytes 17 = 1 then data.take (leAt d.bytes 24 4) else [] }).done d := by
  simp only [State.phaseEffect, h, Bool.not_false, Bool.or_true, if_true, dByteLen]

/-- Settles O23: each effect is the one its equation states. -/
theorem gaitCurbAndPhaseDescriptorsAct : Obligations.GaitCurbAndPhaseDescriptorsAct := by
  unfold Obligations.GaitCurbAndPhaseDescriptorsAct
  refine ⟨?gait, ?curb, ?phase⟩
  case gait => exact fun r s u d data e h hr hb hc he => runOp_next h (gaitEffect_pends hr hb hc he)
  case curb =>
    exact fun r p s u d data h => ⟨fun hk => runOp_next h (curbEffect_phases hk), fun hk => runOp_next h (curbEffect_breaker hk),
      fun hk => runOp_next h (curbEffect_site hk)⟩
  case phase => exact fun r p s u d data h hr => runOp_next h (phaseEffect_now hr)

/-! ### Channels, feeds and retirements -/

theorem driveEffect_channels {s : State} {d : Running} {data : List Byte} (h : byteAt d.bytes 16 = 0) :
    s.driveEffect d data = ((List.range (leAt d.bytes 28 4)).foldl (fun t k =>
      t.configChan (leAt d.bytes 20 4 + k) (driveRec data (leAt d.bytes 24 4) k)) s).done d := by
  simp only [State.driveEffect, h, if_true, dByteLen]

theorem driveEffect_nodes {s : State} {d : Running} {data : List Byte} (h : byteAt d.bytes 16 ≠ 0) :
    s.driveEffect d data = ((List.range (leAt d.bytes 28 4)).foldl (fun t k =>
      t.configNode (leAt d.bytes 20 4 + k) (driveRec data (leAt d.bytes 24 4) k)) s).done d := by
  simp only [State.driveEffect, if_neg h, dByteLen]

theorem meterEffect_held {s : State} {d : Running} {data : List Byte} (h : byteAt d.bytes 17 ≠ 0) :
    s.meterEffect d data = s.holdConfig (byteAt d.bytes 16) (byteAt d.bytes 17) (some { d with staged := dTickBound d.bytes }) data :=
  if_pos (.inl h)

theorem meterEffect_idleFeed {s : State} {d : Running} {data : List Byte} (hk : byteAt d.bytes 17 = 0) (hb : dTickBound d.bytes = false)
    (hf : s.meterRuns (byteAt d.bytes 16) = false) : s.meterEffect d data = (s.putKind0 (byteAt d.bytes 16) data).done d := by
  have hn : ¬ (byteAt d.bytes 17 ≠ 0 ∨ dTickBound d.bytes = true) := by simp [hk, hb]
  simp only [State.meterEffect, if_neg hn, hf, if_true]

theorem reinstateEffect_local {s : State} {d : Running} {data : List Byte} (h : byteAt d.bytes 16 = 0) :
    s.reinstateEffect d data = ((List.range (leAt d.bytes 28 4)).foldl (fun t k => t.reinstateLocal (leAt d.bytes 20 4 + k)) s).done d := by
  simp only [State.reinstateEffect, h]

theorem reinstateEffect_nodes {s : State} {d : Running} {data : List Byte} (h : byteAt d.bytes 16 = 1) :
    s.reinstateEffect d data = ((List.range (leAt d.bytes 28 4)).foldl (fun t k =>
      t.reinstateNode (leAt d.bytes 20 4 + k) (byteAt d.bytes 17)) s).done d := by
  simp only [State.reinstateEffect, h]

/-- Settles O24: each effect is the one its equation states. -/
theorem driveMeterAndReinstateDescriptorsAct : Obligations.DriveMeterAndReinstateDescriptorsAct := by
  unfold Obligations.DriveMeterAndReinstateDescriptorsAct
  refine ⟨?drive, ?meter, ?reinstate⟩
  case drive => exact fun r p s u d data h => ⟨fun hk => runOp_next h (driveEffect_channels hk), fun hk => runOp_next h (driveEffect_nodes hk)⟩
  case meter => exact fun r p s u d data h => ⟨fun hk => runOp_next h (meterEffect_held hk), fun hk hb hf => runOp_next h (meterEffect_idleFeed hk hb hf)⟩
  case reinstate => exact fun r s u d data h => ⟨fun hk => runOp_next h (reinstateEffect_local hk), fun hk => runOp_next h (reinstateEffect_nodes hk)⟩

/-! ### Nodes -/

/-- A node command that no other descriptor check stops acts as its effect says. -/
theorem runNode_acts {s u : State} {r : Nat} {p : Nat → Bool} {d : Running}
    (hd : (s.hif.running.find? fun x => decide (x.sq = r) && decide (dOpcode x.bytes = 0x58) && p (dCmd x.bytes)) = some d)
    (hu : u = s.dropRunning d) (hc : u.firstCheck d (nodeChecks u d.bytes) = none) (hj : u.journalled (opRow (dOpcode d.bytes)) d.bytes = false)
    (hs : u.willStage d.bytes = false) : s.runNode r p = u.nodeEffect d [] := by
  subst hu
  have hp : (nodeChecks (s.dropRunning d) d.bytes).payload [] = none := rfl
  simp only [State.runNode, hd, State.execute, hc, noPayload, hp, noReserve, State.letIn, hj, hs, Bool.false_eq_true, if_false]

/-- On a unit outside a pair a node command that has nodes to wait for joins the open commands, and is sent. -/
theorem openCmd_sends {t : State} {d : Running} {c : NodeCmd} (hw : c.waiting ≠ []) (hr : t.role = tdmDown) :
    t.openCmd d c = ({ t with tm := { t.tm with cmdId := c.id, cmds := t.tm.cmds ++ [c] } } : State).sendCmd c := by
  have hrole : ({ t with tm := { t.tm with cmdId := c.id, cmds := t.tm.cmds ++ [c] } } : State).role = tdmDown := hr
  have hl : tdmDown ≠ tdmLeader := by decide
  have hs : tdmDown ≠ tdmSolo := by decide
  simp only [State.openCmd, if_neg hw, State.journalItem, hrole, if_neg hl, if_neg hs]

theorem nodeEffect_rdm {s : State} {d : Running} {data : List Byte} (hc : ¬ dCmd d.bytes < 0xF000) (hj : d.journal = false) :
    s.nodeEffect d data = ((((s.finish d stDeferred 0).setDmx (byteAt d.bytes 32) { (s.finish d stDeferred 0).dmxPort (byteAt d.bytes 32) with
      queue := ((s.finish d stDeferred 0).dmxPort (byteAt d.bytes 32)).queue ++ [d] }).rdmLoad (byteAt d.bytes 32)).rdmPlace (byteAt d.bytes 32)) := by
  simp only [State.nodeEffect, if_neg hc, State.beginRdm, hj, Bool.false_eq_true, if_false]

/-! ### Keys -/

/-- A key update of the command's OP runs as any other descriptor. -/
theorem runKey_next {s u t : State} {r : Nat} {m : List Byte} {p : Nat → Bool} {nor otp : Bool} {d : Running}
    (h : s.Acts r 0x70 (some m) kuChecks noReserve d m u) (hp : p (kuOp m) = true) (ht : keyEffect nor otp u d m = t) :
    (.next (s.runKey r (some m) p nor otp) : Res) = .next t :=
  (congrArg _ (if_pos hp)).trans (runOp_next h ht)

theorem keyEffect_install {s : State} {d : Running} {m seed : List Byte} {otp : Bool} (h : kuOp m = 0) (hs : s.kuSeed m = some seed) :
    keyEffect true otp s d m = (s.installSeed m (beAt seed 0 32)).finish d stOk 0 := by
  simp only [keyEffect, State.applyKey, h, Bool.true_eq_false, if_false, State.install, hs, Option.elim_some]

theorem keyEffect_invalidate {s : State} {d : Running} {m : List Byte} {otp : Bool} (h : kuOp m = 1) :
    keyEffect true otp s d m = (s.invalidate m).finish d stOk 0 := by
  simp only [keyEffect, State.applyKey, h, Bool.true_eq_false, if_false]

theorem keyEffect_armDebug {s : State} {d : Running} {m : List Byte} {otp : Bool} (h : kuOp m = 2) :
    keyEffect true otp s d m = (s.armDebug m).finish d stOk 0 := by
  simp only [keyEffect, State.applyKey, h, Bool.true_eq_false, if_false]

theorem keyEffect_rotate {s : State} {d : Running} {m : List Byte} {p : Nat} (h : kuOp m = 3) (hp : s.nextPosition = some p) :
    keyEffect true true s d m = (((s.setPosition p (sha384 (kuBytes m 88 96)) true).storeCounter (kuCounter m)).committed 3 0 0 (kuCounter m)).finish d stOk 0 := by
  simp only [keyEffect, State.applyKey, h, Bool.true_eq_false, if_false, if_true, State.rotate, hp]

/-- Settles O25: each effect is the one its equation states. -/
theorem nodeAndKeyDescriptorsAct : Obligations.NodeAndKeyDescriptorsAct := by
  unfold Obligations.NodeAndKeyDescriptorsAct
  refine ⟨?command, ?request, ?discovery, ?chunk, ?install, ?invalidate, ?arm, ?rotate⟩
  case command =>
    rintro r s u t d c hd hu hf hj hs rfl hw rfl hr
    have hc : dCmd d.bytes < 0xF000 := by
      have := List.find?_some hd
      simp only [Bool.and_eq_true, decide_eq_true_eq] at this
      exact this.2
    have he : u.nodeEffect d [] = (u.finish d stDeferred 0).openCmd d (u.newCmd d) := if_pos hc
    exact congrArg _ ((runNode_acts hd hu hf hj hs).trans (he.trans (openCmd_sends hw hr)))
  case request =>
    rintro r s u t d hd hu hf hj hs hn hc rfl
    exact congrArg _ ((runNode_acts hd hu hf hj hs).trans (nodeEffect_rdm (by omega) hn))
  case discovery =>
    rintro r s u t d hd hu hf hj hs hn rfl
    have hc : dCmd d.bytes = 0xF001 := by
      have := List.find?_some hd
      simp only [Bool.and_eq_true, decide_eq_true_eq] at this
      exact this.2
    exact congrArg _ ((runNode_acts hd hu hf hj hs).trans (nodeEffect_rdm (by omega) hn))
  case chunk =>
    rintro r p s u t d data c h rfl hw rfl hr
    exact runOp_next h (openCmd_sends hw hr)
  case install => exact fun r s u d m seed h ho hs => runKey_next h (by simp [ho]) (keyEffect_install ho hs)
  case invalidate => exact fun r s u d m h ho => runKey_next h (by simp [ho]) (keyEffect_invalidate ho)
  case arm => exact fun r s u d m h ho => runKey_next h (by simp [ho]) (keyEffect_armDebug ho)
  case rotate => exact fun r s u d m p h ho hp => runKey_next h (by simp [ho]) (keyEffect_rotate ho hp)

/-! ### Images, the roles of a pair and staged registers -/

/-- A TANDEM_ROLE of the command's action runs as any other descriptor. -/
theorem runRole_next {s u t : State} {r : Nat} {p : Nat → Bool} {d : Running} {data : List Byte}
    (h : s.Acts r 0x80 noPayload roleChecks noReserve d data u) (hp : p (roleAction d.bytes) = true) (ht : u.roleEffect d data = t) :
    (.next (s.runRole r p) : Res) = .next t := by
  have hd : s.takeRunning r 0x80 = some d := h.1
  have hrun : s.runRole r p = s.runOp r 0x80 noPayload roleChecks noReserve State.roleEffect := by
    simp only [State.runRole, hd, hp, if_true]
  exact (congrArg _ hrun).trans (runOp_next h ht)

theorem roleEffect_period {s : State} {d : Running} {data : List Byte} (h : roleAction d.bytes = 1) :
    s.roleEffect d data = (s.setReg TDM_SWAP_PER (leAt d.bytes 24 4)).finish d stOk 0 := by
  simp only [State.roleEffect, h, rolePeriod]

theorem roleEffect_swap {s : State} {d : Running} {data : List Byte} (h : roleAction d.bytes = 0) (hj : d.journal = false) (hs : s.tdm.swap = none) :
    s.roleEffect d data = (({ (s.finish d stDeferred 0).setSwapTick (some (leAt d.bytes 32 8)) with
      tdm := { ((s.finish d stDeferred 0).setSwapTick (some (leAt d.bytes 32 8))).tdm with swap := some (d, leAt d.bytes 32 8) } } : State).raise
        TDM_STATUS_SWAP_PEND).sendRole (some (leAt d.bytes 32 8)) := by
  simp only [State.roleEffect, h, hj, hs, Option.isSome_none, Bool.false_eq_true, if_false, roleTick]

theorem roleEffect_cancel {s : State} {d : Running} {data : List Byte} (h : roleAction d.bytes = 2) (hs : s.tdm.swap = none) :
    s.roleEffect d data = (s.setSwapTick none).finish d stOk 0 := by
  simp only [State.roleEffect, h, State.cancelSwap, hs, Option.isSome_none, Bool.false_eq_true, if_false]

theorem chunkEffect_written (s : State) (d : Running) (data : List Byte) :
    chunkEffect true s d data = (s.setImage (byteAt d.bytes 16) ((s.image (byteAt d.bytes 16)).stage (dChunk d.bytes) (dTotal d.bytes) (data.take (leAt d.bytes 24 4)) true)).finish d stOk
      ((s.image (byteAt d.bytes 16)).stage (dChunk d.bytes) (dTotal d.bytes) (data.take (leAt d.bytes 24 4)) true).missing := rfl

/-- Settles O26: each effect is the one its equation states. -/
theorem imageRoleAndStageDescriptorsAct : Obligations.ImageRoleAndStageDescriptorsAct := by
  unfold Obligations.ImageRoleAndStageDescriptorsAct
  refine ⟨?attest, ?image, ?period, ?swap, ?cancel, ?stage⟩
  case attest =>
    rintro r s u d data m h rfl
    exact runOp_next h rfl
  case image =>
    rintro r p s u d data x h rfl
    exact ⟨runOp_next h (chunkEffect_written u d data), runOp_next h rfl⟩
  case period => exact fun r s u d data h ha => runRole_next h (by simp [ha]) (roleEffect_period ha)
  case swap => exact fun r s u d data h ha hj hs => runRole_next h (by simp [ha]) (roleEffect_swap ha hj hs)
  case cancel => exact fun r s u d data h ha hs => runRole_next h (by simp [ha]) (roleEffect_cancel ha hs)
  case stage => exact fun r s u d data h => runOp_next h rfl

end Sys2Proof.Machine
end


section
/-! The release of a frame (10_teams_and_scanout.md): parts, signatures, rasters, Loose teams and the frames that leave. O40, O41
and O42. -/

namespace Sys2Proof.Machine

/-! ### Parts and signatures -/

/-- Segment `g` of a frame that is out is signed when its parts are all encoded and it is not signed yet. -/
theorem State.signSegment_due {s u : State} {f : Frame} {g : Nat} (hf : s.frameOut = some f) (hr : s.role ≠ tdmDown) (he : s.tm.ended = false)
    (hg : g < f.count) (henc : s.segEncoded f g = true) (hs : (s.tm.signed.any fun x => decide (x.1 = g)) = false)
    (hu : u = { s with tm := { s.tm with signed := s.tm.signed ++ [(g, s.tb.now)] } }) :
    (u.inPair = false → s.signSegment g = u.clearSegment g) ∧
    (∀ v w, u.inPair = true → v = u.segSignature f g →
      w = (({ u with tdm := { u.tdm with own := u.tdm.own ++ [(f.tick, g, v, u.tb.now)] } } : State).sendTdm (.sig f.tick [(g, v)])).signUnchecked f g →
      w.theirSig f.tick g = none → s.signSegment g = w) := by
  subst hu
  have hgo : ¬ (s.role = tdmDown ∨ s.tm.ended = true ∨ f.count ≤ g ∨ s.segEncoded f g = false ∨ (s.tm.signed.any fun x => decide (x.1 = g)) = true) := by
    simp only [hr, he, henc, hs, Nat.not_le.mpr hg, Bool.false_eq_true, Bool.true_eq_false, or_false, not_false_iff]
  constructor
  · intro hp
    simp only [State.signSegment, hf, if_neg hgo, hp, if_true]
  · rintro v w hp rfl rfl hsig
    simp only [State.signSegment, hf, if_neg hgo, hp, Bool.true_eq_false, if_false, hsig]

/-- The hold of a segment that the unit signed, with no signature of its partner: the segment is cleared, counted on the leader. -/
theorem State.holdEnds_unanswered {s r : State} {f : Frame} {g : Nat} {v : Nat × Nat} (hf : s.frameOut = some f) (hown : s.ownSig f.tick g = some v)
    (hp : s.inPair = true) (hm : s.mirrorOnly = false) (hg : g ∉ s.tm.cleared) (hsig : s.theirSig f.tick g = none) (he : s.tm.ended = false)
    (hr : r = s.runTo (v.2 + s.fld TDM_HOLD_v * unitUs)) :
    s.holdEnds g = (if r.role = tdmLeader then r.bumpReg TDM_UNCHK 1 else r).clearSegment g := by
  subst hr
  have hgo : ¬ (s.inPair = false ∨ s.mirrorOnly = true ∨ g ∈ s.tm.cleared ∨ (s.theirSig f.tick g).isSome = true ∨ s.tm.ended = true) := by
    simp [hp, hm, hg, hsig, he]
  simp only [State.holdEnds, hf, hown, if_neg hgo]

/-- Settles O40: each clause is the branch of its command that its hypotheses select. -/
theorem partsAreEncodedAndSigned : Obligations.PartsAreEncodedAndSigned := by
  unfold Obligations.PartsAreEncodedAndSigned
  refine ⟨?encode, ?sign, ?ready, ?hold⟩
  case encode =>
    intro p starved l3 lv errs s f hf hrun he hsolved
    have hgo : ¬ (s.tick.running = false ∨ s.tm.ended = true ∨ f.solved = false) := by simp [hrun, he, hsolved]
    constructor
    · intro hp
      simp only [exec, execPartEncode, State.encodeNext, hf, if_neg hgo, hp, if_true]
    · intro g hp hon hnext
      simp only [exec, execPartEncode, State.encodeNext, hf, if_neg hgo, if_neg hp, hon, Bool.true_eq_false, if_false, hnext]
  case sign =>
    intro g s u f hf hr he hg henc hs hu
    obtain ⟨halone, hpair⟩ := State.signSegment_due hf hr he hg henc hs hu
    exact ⟨fun hp => congrArg _ (halone hp), fun v w hp hv hw hsig => congrArg _ (hpair v w hp hv hw hsig)⟩
  case ready =>
    rintro g s u f hf he hc hr rfl
    have hgo : ¬ (s.tm.ended = true ∨ g.val ∉ s.tm.cleared ∨ g.val ∈ s.tm.ready) := by simp [he, hc, hr]
    simp only [exec, execPartReady, State.partReady, hf, if_neg hgo]
  case hold =>
    intro g s r f v hf hown hp hm hg hsig he hr
    have hend := State.holdEnds_unanswered hf hown hp hm hg hsig he hr
    exact ⟨fun hl => congrArg _ (hend.trans (by rw [if_pos hl])), fun hl => congrArg _ (hend.trans (by rw [if_neg hl]))⟩

/-! ### Rasters, Loose teams and the deadline -/

/-- A Loose team with no ready segment at its upper bound starts there, and counts when it has segments. -/
theorem State.stretchLimit_starts {s r : State} {f : Frame} {t : Nat} (hf : s.frameOut = some f) (hrun : s.tick.running = true) (hl : s.loose t = true)
    (hs : (s.team t).started = false) (he : s.tm.ended = false) (hp : s.teamPorts t ≠ []) (hr : s.teamReady f t = false) (hto : r = s.runTo (s.looseHigh t)) :
    s.stretchLimit t = (if r.teamSegs f t = [] then r else r.bump (TK_TEAM_STAT_STRETCH_LIM t) 1).looseBegin t := by
  subst hto
  have hgo : ¬ (s.tick.running = false ∨ s.loose t = false ∨ (s.team t).started = true ∨ s.tm.ended = true ∨ s.teamPorts t = []) := by
    simp [hrun, hl, hs, he, hp]
  simp only [State.stretchLimit, hf, if_neg hgo, hr, Bool.false_eq_true, if_false]

/-- Settles O41: each clause is the branch of its command that its hypotheses select. -/
theorem rastersAndReleaseEnd : Obligations.RastersAndReleaseEnd := by
  unfold Obligations.RastersAndReleaseEnd
  refine ⟨?start, ?line, ?finish, ?upper, ?deadline⟩
  case start =>
    rintro t s r u f p hf hp hrun hl hs he rfl rfl
    have hgo : ¬ (s.tick.running = false ∨ s.loose t.val = true ∨ (s.team t.val).started = true ∨ s.tm.ended = true) := by simp [hrun, hl, hs, he]
    simp only [exec, execRasterStart, State.rasterBegin, hf, hp, if_neg hgo]
  case line =>
    rintro p s r f hf hon hl hs hd he hn rfl
    have hgo : ¬ (s.portOn p.val = false ∨ s.loose (s.portTeam p.val) = true ∨ (s.team (s.portTeam p.val)).started = false ∨ (s.port p.val).rasterDone = true ∨ s.tm.ended = true
        ∨ s.vTotal (s.rasterOf (s.portTeam p.val)) ≤ (s.port p.val).line) := by simp [hon, hl, hs, hd, he, hn]
    simp only [exec, execRasterLine, State.nextLine, hf, if_neg hgo]
  case finish =>
    rintro t s r f p hf hp hl hs hd he rfl
    have hgo : ¬ (s.loose t.val = true ∨ (s.team t.val).started = false ∨ (s.port p).rasterDone = true ∨ s.tm.ended = true) := by simp [hl, hs, hd, he]
    simp only [exec, execRasterEnd, State.rasterFinish, hf, hp, if_neg hgo]
  case upper =>
    intro t s r f hf hrun hl hs he hp hr hto
    have hstart := State.stretchLimit_starts hf hrun hl hs he hp hr hto
    exact ⟨fun hn => congrArg _ (hstart.trans (by rw [if_pos hn])), fun hn => congrArg _ (hstart.trans (by rw [if_neg hn]))⟩
  case deadline =>
    rintro s r u f hf hrun he rfl rfl
    have hgo : ¬ (s.tick.running = false ∨ s.tm.ended = true) := by simp [hrun, he]
    simp only [exec, execReleaseDeadline, State.releaseEnd, hf, if_neg hgo]

/-! ### Frames, links and commands -/

/-- A management frame whose key is gone only leaves its queue. -/
theorem State.transmitMgmt_keyless {s : State} {p q : Nat} {m : MgmtFrame} (hn : s.nextMgmt p = some (q, m)) (hk : s.mgmtKey p m = none) :
    s.transmitMgmt p = s.setPort p { s.port p with queues := sput noFrames (s.port p).queues q (sget noFrames (s.port p).queues q).tail } := by
  simp only [State.transmitMgmt, hn, hk]

/-- A management frame that may be sent now leaves its queue and is placed with its header and tag. -/
theorem State.transmitMgmt_places {s : State} {p q kid start : Nat} {key b : List Byte} {m : MgmtFrame} (hn : s.nextMgmt p = some (q, m))
    (hk : s.mgmtKey p m = some (kid, key)) (hs : s.sends p = true) (ha : s.isSacn p = false) (hst : start = max s.tb.now (s.port p).free)
    (hmay : s.mgmtMay p (s.headOctets p + 48 + m.body.length + 16 + 4) start = true)
    (hb : b = s.message p m.typ m.level false m.first m.count kid ((s.port p).frameNo % 65536) key m.body) :
    s.transmitMgmt p = (s.setPort p { s.port p with queues := sput noFrames (s.port p).queues q (sget noFrames (s.port p).queues q).tail }).placeTrace p
      (mgmtKind m.typ) (s.headOctets p + 48 + m.body.length + 16 + 4) start (s.encap p b.length ++ b) := by
  subst hst hb
  have hgo : ¬ (s.sends p = false ∨ s.isSacn p = true) := by simp [hs, ha]
  simp only [State.transmitMgmt, hn, hk, if_neg hgo, hmay, if_true]

/-- Settles O42: each clause is the branch of its command that its hypotheses select. -/
theorem framesLeaveTheirPorts : Obligations.FramesLeaveTheirPorts := by
  unfold Obligations.FramesLeaveTheirPorts
  refine ⟨?data, ?mgmt, ?down, ?up, ?discovery, ?retry⟩
  case data =>
    intro p errs s f u hf hon hrun he hl hd hu
    have hgo : ¬ (s.portOn p.val = false ∨ s.tick.running = false ∨ s.tm.ended = true) := by simp [hon, hrun, he]
    simp only [exec, execDataFrameTransmit, State.transmitData, hf, if_neg hgo, hl, Bool.false_eq_true, if_false, hd, if_true, hu]
  case mgmt =>
    rintro p s t q m hn rfl
    exact ⟨fun hk => congrArg _ (State.transmitMgmt_keyless hn hk),
      fun kid key start b hk hs ha hst hmay hb => congrArg _ (State.transmitMgmt_places hn hk hs ha hst hmay hb)⟩
  case down => exact fun w s => rfl
  case up =>
    intro w s hm
    simp only [exec, execEthLinkChange, hm, Bool.and_self, State.setLink, if_true]
  case discovery =>
    rintro p s b hon ha hs rfl henc
    simp only [exec, execSacnDiscoverySend, State.sendDiscovery, hon, ha, hs, Bool.and_self, if_true, if_neg henc]
  case retry =>
    intro id s c hc hdue
    have hgo : ¬ s.tickNo < c.sentTick + max 1 (s.fld TM_TRC_CMD_TMO) := Nat.not_lt.mpr hdue
    constructor
    · intro hleft
      simp only [exec, execNodeCommandRetryTimeout, State.cmdTimeout, hc, if_neg hgo, if_pos hleft]
    · intro hspent
      simp only [exec, execNodeCommandRetryTimeout, State.cmdTimeout, hc, if_neg hgo, if_neg (Nat.not_lt.mpr hspent)]

end Sys2Proof.Machine
end


section
/-! DMX and RDM (11_trace_protocol_and_legacy_outputs.md), the drive's periods and windows (12_drive_engine.md) and the phase
planner's windows and plans (13_phase_planner.md). O43 and O45. -/

namespace Sys2Proof.Machine

/-! ### DMX packets -/

theorem State.dmxStart_due {s u : State} {n : Nat} (hm : s.dmxMay n = true) (hb : (s.dmxPort n).busy = false) (hl : (s.dmxPort n).onLine = false)
    (he : (s.dmxPort n).ends ≤ s.tick.begin) (hu : u = (s.setFld (DMX_STAT_OVER n) (b2n (s.dmxSlots n).2)).raise (DMX_STAT_ACTIVE n)) :
    s.dmxStart n = (u.setDmx n { s.dmxPort n with busy := true, ends := u.tick.begin + u.dmxLength n (s.dmxSlots n).1.length, placed := false }).emit
      (.dmx n 0 (s.dmxSlots n).1) := by
  subst hu
  have hgo : ¬ (s.dmxMay n = false ∨ (s.dmxPort n).busy = true ∨ (s.dmxPort n).onLine = true ∨ s.tick.begin < (s.dmxPort n).ends) := by
    simp [hm, hb, hl, he]
  simp only [State.dmxStart, if_neg hgo]

/-- The end of a packet on a busy port: in a loop-back the errors count and the next test packet goes; else ACTIVE clears where the
port may send no more. -/
theorem State.packetEnd_busy {s : State} {n wrong : Nat} (hb : (s.dmxPort n).busy = true) :
    s.packetEnd n wrong = if (s.dmxEnd n).dmxLoop n ≠ 0 then ((s.dmxEnd n).bumpReg (LBK_DMX_ERR n) wrong).testPacket n
      else if (s.dmxEnd n).dmxMay n then s.dmxEnd n else (s.dmxEnd n).clear (DMX_STAT_ACTIVE n) := by
  simp only [State.packetEnd, hb, Bool.true_eq_false, if_false]

/-! ### RDM answers and silences -/

section
variable {s t : State} {n : Nat} {x : DmxPort} {j : RdmJob} {js : List RdmJob} {d : Running} {ds : List Running}
  (hx : x = s.dmxPort n) (hl : x.onLine = true) (hj : x.jobs = j :: js) (hq : x.queue = d :: ds) (hin : s.tb.now ≤ x.sentAt + 2800 * unitUs)
  (ht : t = s.setDmx n { x with ends := max x.ends s.tb.now })
include hx hl hj hq hin ht

/-- An answer within 2.8 ms to a request that waits ends it and is posted. -/
theorem State.rdmReceive_request {a b c : Nat} {e : List Byte} {typ : Fin 4} {data : List Byte} (hr : j = .request a b c e) :
    s.rdmReceive n (.response typ data) = (t.postRdm n d typ.val data).rdmNext n [] := by
  subst hx ht hr
  simp only [State.rdmReceive, hl, hj, hq, if_neg (Nat.not_lt.mpr hin)]

/-- An answer within 2.8 ms to a branch narrows the search. -/
theorem State.rdmReceive_branch {lo hi : Nat} {u : Option (BitVec 48)} (hr : j = .branch lo hi) :
    s.rdmReceive n (.branch u) = t.rdmBranch n lo hi (u.map fun v => v.toNat) := by
  subst hx ht hr
  simp only [State.rdmReceive, hl, hj, hq, if_neg (Nat.not_lt.mpr hin)]

/-- An answer within 2.8 ms to a mute goes on to the next job. -/
theorem State.rdmReceive_mute {a : Nat} {typ : Fin 4} {data : List Byte} (hr : j = .mute a) :
    s.rdmReceive n (.response typ data) = t.rdmNext n [] := by
  subst hx ht hr
  simp only [State.rdmReceive, hl, hj, hq, if_neg (Nat.not_lt.mpr hin)]
end

section
variable {s r : State} {n : Nat} {x : DmxPort} {j : RdmJob} {js : List RdmJob}
  (hx : x = s.dmxPort n) (hl : x.onLine = true) (hj : x.jobs = j :: js) (hr : r = s.runTo (x.sentAt + 2800 * unitUs))
include hx hl hj hr

/-- A silence with repeats left is repeated. -/
theorem State.rdmTimeout_repeats {k : Nat} (hk : x.left = some (k + 1)) :
    s.rdmTimeout n = r.setDmx n { x with onLine := false, left := some k, ends := r.tb.now } := by
  subst hx hr
  simp only [State.rdmTimeout, hl, hj, hk]

/-- A silence without repeats left spends the transaction. -/
theorem State.rdmTimeout_spent (hk : x.left = none ∨ x.left = some 0) :
    s.rdmTimeout n = (r.setDmx n { x with ends := r.tb.now }).rdmSpent n j := by
  subst hx hr
  rcases hk with hk | hk <;> simp only [State.rdmTimeout, hl, hj, hk]
end

/-- Settles O43: each clause is the branch of its command that its hypotheses select. -/
theorem dmxPacketsAndRdmAnswers : Obligations.DmxPacketsAndRdmAnswers := by
  unfold Obligations.DmxPacketsAndRdmAnswers
  refine ⟨?start, ?finish, ?answer, ?silence⟩
  case start => exact fun n s u hm hb hl he hu => congrArg _ (State.dmxStart_due hm hb hl he hu)
  case finish =>
    intro n wrong s hb
    have hend := State.packetEnd_busy (wrong := wrong.val) hb
    exact ⟨fun hloop => congrArg _ (hend.trans (if_pos hloop)),
      fun hloop hm => congrArg _ (hend.trans ((if_neg (not_not.mpr hloop)).trans (if_pos hm))),
      fun hloop hm => congrArg _ (hend.trans ((if_neg (not_not.mpr hloop)).trans (if_neg (by rw [hm]; exact Bool.false_ne_true))))⟩
  case answer =>
    intro n s t x j js d ds hx hl hj hq hin ht
    exact ⟨fun a b c e typ data hr => congrArg _ (State.rdmReceive_request hx hl hj hq hin ht hr),
      fun lo hi u hr => congrArg _ (State.rdmReceive_branch hx hl hj hq hin ht hr),
      fun a typ data hr => congrArg _ (State.rdmReceive_mute hx hl hj hq hin ht hr)⟩
  case silence =>
    intro n s r x j js hx hl hj hr
    exact ⟨fun k hk => congrArg _ (State.rdmTimeout_repeats hx hl hj hr hk), fun hk => congrArg _ (State.rdmTimeout_spent hx hl hj hr hk)⟩

/-! ### Drive and phase windows -/

/-- A qualify window that ends with its gate on, outside the sense loop-backs, closes and qualifies its channel. -/
theorem State.qualify_ends {s r : State} {ch lo hi code e : Nat} (hw : (s.chan ch).window = some e)
    (hr : r = (s.runTo e).setChan ch { (s.runTo e).chan ch with window := none }) (hg : r.gateOn ch = true) (ht : r.drvTest ch = false) :
    s.qualify ch lo hi code = (r.adcConvert code).noteResult ch (r.senseResult ch lo hi) := by
  subst hr
  simp only [State.qualify, hw, hg, ht, Bool.true_eq_false, Bool.false_eq_true, if_false]

section
variable {s r u : State} {f w k p t : Nat} {x : PhaseFeed}
  (hw : w = s.phWin) (hp : p = (s.pwm f).span) (hk : (s.phaseFeed f).window = some k) (ht : t = (k + w) * p) (hr : r = s.runTo t)
  (hx : x = { s.phaseFeed f with samples := (s.phaseFeed f).samples.filter fun y => decide (k * p ≤ y.1 ∧ y.1 < t) })
  (hu : u = r.setPhaseFeed f x)
include hw hp hk ht hr hx hu

/-- The end of a measurement window: it is valid when it is whole, unspoiled and of a feed that runs without a flag, and counts void
otherwise; the next window opens. -/
theorem State.windowEnd_opens :
    s.windowEnd f = (if (x.void || decide (k % w ≠ 0) || !u.tick.running || !u.meterRuns f || (u.feed f).flag) = true then u.bumpReg PHP_VOID 1 else u.validWindow f).openWindow f
      (max (k + w) ((if (x.void || decide (k % w ≠ 0) || !u.tick.running || !u.meterRuns f || (u.feed f).flag) = true then u.bumpReg PHP_VOID 1 else u.validWindow f).tb.now / p / w * w)) := by
  subst hw hp ht hr hx hu
  simp only [State.windowEnd, hk, Option.isNone_some, Bool.false_or]

theorem State.windowEnd_valid
    (h : x.void = false ∧ k % w = 0 ∧ u.tick.running = true ∧ u.meterRuns f = true ∧ (u.feed f).flag = false) :
    s.windowEnd f = (u.validWindow f).openWindow f (max (k + w) ((u.validWindow f).tb.now / p / w * w)) := by
  have hgood : ¬ (x.void || decide (k % w ≠ 0) || !u.tick.running || !u.meterRuns f || (u.feed f).flag) = true := by
    obtain ⟨hvoid, hwhole, hrun, hmeter, hflag⟩ := h
    simp [hvoid, hwhole, hrun, hmeter, hflag]
  rw [State.windowEnd_opens hw hp hk ht hr hx hu, if_neg hgood]

theorem State.windowEnd_void
    (h : x.void = true ∨ k % w ≠ 0 ∨ u.tick.running = false ∨ u.meterRuns f = false ∨ (u.feed f).flag = true) :
    s.windowEnd f = (u.bumpReg PHP_VOID 1).openWindow f (max (k + w) ((u.bumpReg PHP_VOID 1).tb.now / p / w * w)) := by
  have hbad : (x.void || decide (k % w ≠ 0) || !u.tick.running || !u.meterRuns f || (u.feed f).flag) = true := by
    simpa only [Bool.or_eq_true, decide_eq_true_eq, Bool.not_eq_true', or_assoc] using h
  rw [State.windowEnd_opens hw hp hk ht hr hx hu, if_pos hbad]
end

/-- A due plan of a feed in the free mode that is not held back waits for its boundary and is journalled. -/
theorem State.commitPlan_waits {s t : State} {f b : Nat} {p : PhasePlan} (hd : (s.phaseFeed f).due = true) (hm : s.fld (PHP_FEED_STAT_MODE f) = 0)
    (hf : s.follows = false) (hrun : s.tick.running = true) (hj : s.journals = false) (hb : b = s.stageTick)
    (hfree : (s.phaseFeed f).free = true ∨ (s.phaseFeed f).planned = none) (hp : p = s.makePlan f b)
    (ht : t = (s.clear (PHP_FEED_STAT_HELD f)).setPhaseFeed f { s.phaseFeed f with due := false, free := false }) :
    s.commitPlan f = ({ t with php := { t.php with waiting := t.php.waiting ++ [p] } } : State).journalItem 3 { sq := 0, bytes := [] } p.bytes := by
  subst hb hp ht
  have hgo : ¬ ((s.phaseFeed f).due = false ∨ s.fld (PHP_FEED_STAT_MODE f) ≠ 0 ∨ s.follows = true ∨ s.tick.running = false) := by simp [hd, hm, hf, hrun]
  rcases hfree with hfree | hfree <;>
    simp only [State.commitPlan, if_neg hgo, hj, hfree, Bool.not_true, Bool.false_and, Bool.and_false, Bool.false_eq_true, if_false]

/-- Settles O45: each clause is the branch of its command that its hypotheses select. -/
theorem driveAndPhaseWindowsPass : Obligations.DriveAndPhaseWindowsPass := by
  unfold Obligations.DriveAndPhaseWindowsPass
  refine ⟨?pwm, ?qualify, ?window, ?plan⟩
  case pwm =>
    rintro f c s r k n rfl rfl rfl
    rfl
  case qualify => exact fun ch lo hi adc s r e hw hr hg ht => congrArg _ (State.qualify_ends hw hr hg ht)
  case window =>
    intro f s r u w k p t x hw hp hk ht hr hx hu
    constructor
    · rintro X rfl h
      exact congrArg _ (State.windowEnd_valid hw hp hk ht hr hx hu h)
    · rintro X rfl h
      exact congrArg _ (State.windowEnd_void hw hp hk ht hr hx hu h)
  case plan => exact fun f s t b p hd hm hf hrun hj hb hfree hp ht => congrArg _ (State.commitPlan_waits hd hm hf hrun hj hb hfree hp ht)

end Sys2Proof.Machine
end


section
/-! Metering feeds (15_metering.md), the ledger, the trims and the captures (16_farrier_calibration.md), and the concentrator's
frames and queue reads (14_telemetry_and_herd_filter.md). O46, O48 and O49. -/

namespace Sys2Proof.Machine

/-! ### Metering feeds -/

/-- The return of a lost clock: it clears and posts that, and a feed that is enabled or that the pattern drives starts at the next
second. -/
theorem State.clockReturn_lost {s t : State} {f : Nat} (hl : s.bit (MTR_FEED_STAT_CLK_LOST f) = true)
    (ht : t = (s.clear (MTR_FEED_STAT_CLK_LOST f)).clockEvent f 0) :
    s.clockReturn f = if t.bit (MTR_FEED_CFG_EN f) = true ∨ t.pattern f = true then t.setFeed f { t.feed f with startAt := some t.nextSecond } else t := by
  subst ht
  simp only [State.clockReturn, hl, Bool.true_eq_false, if_false]

/-- Settles O46: each clause is the branch of its command that its hypotheses select. -/
theorem meteringFeedsStartStopAndKeepTime : Obligations.MeteringFeedsStartStopAndKeepTime := by
  unfold Obligations.MeteringFeedsStartStopAndKeepTime
  refine ⟨?start, ?second, ?lost, ?back, ?sample, ?idle⟩
  case start =>
    rintro f s r t x hs hon hrun rfl rfl
    have hgo : ¬ (s.domOn 12 = false ∨ s.meterRuns f.val = true) := by simp [hon, hrun]
    simp only [exec, execMeterFeedStart, State.startFeed, hs, if_neg hgo]
  case second =>
    rintro f c s r t d adj hrun rfl rfl rfl rfl
    simp only [exec, execMeterSecond, State.meterSecond, hrun, Bool.true_eq_false, if_false]
  case lost =>
    intro f s k hrun hk
    simp only [exec, execMeterClockLost, State.clockLost, hrun, Bool.true_eq_false, if_false, hk]
  case back =>
    intro f s t hl ht
    have hback := State.clockReturn_lost hl ht
    exact ⟨fun h => congrArg _ (hback.trans (if_pos h)), fun he hp => congrArg _ (hback.trans (if_neg (by simp [he, hp])))⟩
  case sample =>
    rintro f cs ps s r k hrun hk rfl
    simp only [exec, execMeteringSample, State.sample, hrun, Bool.true_eq_false, Bool.false_eq_true, if_false, State.meterSample, hk]
  case idle =>
    intro f cs ps hi s hrun
    exact ⟨congrArg _ (if_pos hrun), congrArg _ (if_pos hrun)⟩

/-! ### The ledger, trims and captures -/

section
variable {s t : State} (hs : s.svc = 0) (hf : ((List.range 16).any fun f => s.bit (MTR_FEED_STAT_RUN f)) = false)
  (ht : t = { s with mem := { s.mem with ledger := true } })
include hs hf ht

/-- A ledger whose configuration is bad has no entries: the sets load from none and its first place is used. -/
theorem State.readLedger_bad {u : State} (hb : t.ledgerBad = true)
    (hu : u = (List.range 16).foldl (fun a i => a.loadSet [] (4 + i)) (if t.ledSects ≠ 0 then t.raise FAR_STAT_LEDGER_BAD else t))
    (hr : (t.raise FAR_STAT_LEDGER_BAD).ledgerBad = true) :
    s.readLedger = { u with far := { u.far with sector := 0, index := 0, seq := 0 } } := by
  subst ht hu
  have hgo : ¬ (s.svc ≠ 0 ∨ ((List.range 16).any fun f => s.bit (MTR_FEED_STAT_RUN f)) = true) := by simp only [hs, hf, ne_eq, not_true_eq_false, Bool.false_eq_true, or_self, not_false_iff]
  by_cases hn : ({ s with mem := { s.mem with ledger := true } } : State).ledSects ≠ 0
  · simp only [State.readLedger, if_neg hgo, hb, and_true, if_pos hn, hr, if_true, List.foldl_nil]
  · simp only [State.readLedger, if_neg hgo, hb, and_true, if_neg hn, if_true, List.foldl_nil]

/-- A sound ledger gives the feed sets and the place after its newest entry. -/
theorem State.readLedger_sound {u : State} {j i : Nat} {e : List Byte} (hb : t.ledgerBad = false) (he : t.ledgerEntries.foldl newerEntry none = some (j, i, e))
    (hu : u = (List.range 16).foldl (fun a i => a.loadSet t.ledgerEntries (4 + i)) t) :
    s.readLedger = { u with far := { u.far with sector := j, index := i + 1, seq := leAt e 8 8 } } := by
  subst ht hu
  have hgo : ¬ (s.svc ≠ 0 ∨ ((List.range 16).any fun f => s.bit (MTR_FEED_STAT_RUN f)) = true) := by simp only [hs, hf, ne_eq, not_true_eq_false, Bool.false_eq_true, or_self, not_false_iff]
  simp only [State.readLedger, if_neg hgo, hb, Bool.false_eq_true, and_false, if_false, he]
end

/-- A capture start while one runs only sets CAP_WR. -/
theorem State.capStart_running {s : State} {v : Nat} (h : (s.capFields v).far.capture.isSome = true) :
    s.capStart v = (s.capFields v).raise FAR_STAT_CAP_WR := by
  simp only [State.capStart, h, if_true]

/-- A capture start with none running: the capture of the feed runs, and on a feed that does not run it ends at once. -/
theorem State.capStart_idle {s t u : State} {v : Nat} {c : Capture} (ht : t = s.capFields v) (h : t.far.capture = none)
    (hc : c = { feed := t.fld FAR_CAP_CTRL_FEED, cycles := t.fld FAR_CAP_CTRL_CYC })
    (hu : u = ({ t with far := { t.far with capture := some c } } : State).capStat c 1) :
    s.capStart v = if u.bit (MTR_FEED_STAT_RUN c.feed) then u else (u.abortCapture c.feed 2).capEnd := by
  subst ht hc hu
  simp only [State.capStart, h, Option.isSome_none, Bool.false_eq_true, if_false]

/-- Settles O48: each clause is the branch of its command that its hypotheses select. -/
theorem ledgerTrimsAndCaptures : Obligations.LedgerTrimsAndCaptures := by
  unfold Obligations.LedgerTrimsAndCaptures
  refine ⟨?ledger, ?trims, ?begin, ?stop, ?finish⟩
  case ledger =>
    intro s t u hs hf ht
    exact ⟨fun hb hu hr => congrArg _ (State.readLedger_bad hs hf ht hb hu hr), fun j i e hb he hu => congrArg _ (State.readLedger_sound hs hf ht hb he hu)⟩
  case trims =>
    rintro raw s r t rfl rfl
    exact ⟨fun hr => congrArg _ (if_pos hr), fun hr => congrArg _ (if_neg (by rw [hr]; exact Bool.false_ne_true))⟩
  case begin =>
    intro v s t hon ht
    have hblock : s.onBlock FAR_CAP_CTRL (s.capStart v.toNat) = s.capStart v.toNat := State.onBlock_on (d := 12) _ (by decide) hon
    constructor
    · intro hc
      subst ht
      exact congrArg _ (hblock.trans (State.capStart_running hc))
    · intro c u hn hc hu
      have hstart := hblock.trans (State.capStart_idle ht hn hc hu)
      exact ⟨fun hb => congrArg _ (hstart.trans (if_pos hb)), fun hb => congrArg _ (hstart.trans (if_neg (by rw [hb]; exact Bool.false_ne_true)))⟩
  case stop =>
    intro v s hon
    have hblock : s.onBlock FAR_CAP_CTRL (s.capStop v.toNat) = s.capStop v.toNat := State.onBlock_on (d := 12) _ (by decide) hon
    refine ⟨fun hc => congrArg _ (hblock.trans ?_), fun c hc => congrArg _ (hblock.trans ?_)⟩
    · simp only [State.capStop, hc]
    · simp only [State.capStop, hc]
  case finish =>
    rintro s t u c st at' hc he rfl rfl
    simp only [exec, execFarCaptureEnd, State.capEnd, hc, he, Nat.reducePow]

/-! ### The concentrator -/

/-- A telemetry frame that authenticates, of a node whose last number is known: a repeated or old number counts as a duplicate. -/
theorem State.tlmReceive_known {s : State} {p q d : Nat} {b : List Byte} (ht : byteAt b 2 % 16 = 5) (ha : s.tlmAuth b = true)
    (hq : (s.node (leAt b 8 4 % 262144)).seq = some q) (hd : d = (leAt b 48 4 + 4294967296 - q) % 4294967296) :
    s.tlmReceive p b = if d = 0 ∨ 4294966272 ≤ d then s.bump TLM_RX_STAT_DUP 1 else s.tlmAccept p (leAt b 8 4 % 262144) (byteAt b 2 / 16) (leAt b 48 4) b := by
  subst hd
  simp only [State.tlmReceive, ht, ne_eq, not_true_eq_false, ha, Bool.true_eq_false, if_false, Nat.reducePow, hq, Nat.reduceSub]

theorem domainOf_eventQueueRead : ∀ e : Fin 8, domainOf (TLM_EQ_RD e.val 0) = some 3 := by decide

/-- Settles O49: each clause is the branch of its command that its hypotheses select. -/
theorem telemetryFramesAndQueueReads : Obligations.TelemetryFramesAndQueueReads := by
  unfold Obligations.TelemetryFramesAndQueueReads
  constructor
  · intro p b s hon
    have hrx : exec (.tlmFrameReceive p b) s = .next (s.tlmReceive p.val b) := congrArg _ (if_pos hon)
    refine ⟨fun ht => hrx.trans (congrArg _ (if_pos ht)), fun ht ha => hrx.trans (congrArg _ ?_), fun ht ha hn => hrx.trans (congrArg _ ?_), ?_⟩
    · simp only [State.tlmReceive, ht, ne_eq, not_true_eq_false, ha, if_false, if_true]
    · simp only [State.tlmReceive, ht, ne_eq, not_true_eq_false, ha, Bool.true_eq_false, if_false, Nat.reducePow, hn]
    · intro q d ht ha hq hd
      have hknown := State.tlmReceive_known (p := p.val) ht ha hq hd
      exact ⟨fun h => hrx.trans (congrArg _ (hknown.trans (if_pos h))),
        fun h0 h1 => hrx.trans (congrArg _ (hknown.trans (if_neg (by omega))))⟩
  · intro e s t i hon hi
    have hrd : exec (.eventQueueRead e) s = .next ((s.readQueue e.val).emit (.readData (TLM_EQ_RD e.val 0) (leAt ((s.readQueue e.val).queue e.val).latched 0 4))) :=
      congrArg _ (State.onRead_on _ _ (domainOf_eventQueueRead e) hon)
    refine ⟨?on, ?empty, ?head⟩
    case on =>
      rintro hen rfl
      have hq : s.readQueue e.val = (s.raise TLM_STATUS_RD_EN).setQueue e.val { (s.raise TLM_STATUS_RD_EN).queue e.val with latched := i } := by
        subst hi
        simp only [State.readQueue, hen, if_true]
        rfl
      rw [hrd, hq]
    case empty =>
      rintro hen hitems rfl
      have hq : s.readQueue e.val = s.setQueue e.val { s.queue e.val with latched := i } := by
        subst hi
        simp only [State.readQueue, hen, Bool.false_eq_true, if_false, hitems]
        rfl
      rw [hrd, hq]
    case head =>
      rintro ev rest hen hitems rfl
      have hq : s.readQueue e.val = (s.removeHead e.val).setQueue e.val { (s.removeHead e.val).queue e.val with latched := ev.bytes 0 } := by
        simp only [State.readQueue, hen, Bool.false_eq_true, if_false, hitems]
      rw [hrd, hq]

end Sys2Proof.Machine
end


section
/-! The Tandem pair (17_tandem_pair.md): its lines, lanes and timers, and the frames that the units compare. O52 and O54. -/

namespace Sys2Proof.Machine

/-! ### Enabling and disabling -/

/-- A write of TDM_CTRL loads its two other fields and then switches the tandem by EN. -/
theorem State.writeTdmCtrl_sets (s : State) (v : Nat) :
    s.writeTdmCtrl (setBits v 0 1 1) = ((s.setFld TDM_CTRL_ISO_TAKEOVER (bitsOf v 2 1)).setFld TDM_CTRL_ROLE_PREF (bitsOf v 1 1)).tandemOn := by
  have hen : bitB (setBits v 0 1 1) 0 = true := bitB_setBits_self
  simp only [State.writeTdmCtrl, hen, if_true, bitsOf_setBits_ne (show 2 ≠ 0 by decide), bitsOf_setBits_ne (show 1 ≠ 0 by decide)]

theorem State.writeTdmCtrl_clears (s : State) (v : Nat) :
    s.writeTdmCtrl (setBits v 0 1 0) = ((s.setFld TDM_CTRL_ISO_TAKEOVER (bitsOf v 2 1)).setFld TDM_CTRL_ROLE_PREF (bitsOf v 1 1)).tandemOff := by
  have hen : bitB (setBits v 0 1 0) 0 = false := bitB_setBits_self
  simp only [State.writeTdmCtrl, hen, Bool.false_eq_true, if_false, bitsOf_setBits_ne (show 2 ≠ 0 by decide), bitsOf_setBits_ne (show 1 ≠ 0 by decide)]

theorem State.tandemOn_searches {s u : State} (hs : s.svc ≠ 2) (he : s.bit TDM_CTRL_EN = false) (hu : u = (s.raise TDM_CTRL_EN).clear TDM_STATUS_FAULT_CAUSE) :
    s.tandemOn = ({ u with tdm := { u.tdm with searchAt := u.tb.now, hbSent := u.tb.now, partner := {}, asm := [] } } : State).setRole tdmSearch 0 := by
  subst hu
  have hgo : ¬ (s.svc = 2 ∨ s.bit TDM_CTRL_EN = true) := by simp [hs, he]
  simp only [State.tandemOn, if_neg hgo]

/-- A unit that does not journal discards the entries without a commit as it goes DOWN. -/
theorem State.tandemOff_follower {s u : State} (he : s.bit TDM_CTRL_EN = true) (hj : s.journals = false)
    (hu : u = ((s.discardJournal.clear TDM_CTRL_EN).setRole tdmDown 0).stopSync) :
    s.tandemOff = ({ u with tdm := { u.tdm with alive := false, unverifiedAt := none, arb := [] } } : State).releaseSigned := by
  subst hu
  simp only [State.tandemOff, he, hj, Bool.true_eq_false, Bool.false_eq_true, if_false]

/-! ### The partner, the lanes and the alive line -/

/-- The partner is lost: what follows depends on the role that is left. -/
theorem State.partnerLost_there {s t : State} (hp : s.bit TDM_STATUS_PARTNER = true)
    (ht : t = ((((s.runTo ((s.lastHb).getD s.tb.now + hbLimit)).clear TDM_STATUS_PARTNER).setLane 0 false).setLane 1 false).stopSync) :
    s.partnerLost = if t.role = tdmLeader then t.goSolo 4
      else if t.role = tdmWheeler then (if t.bit TDM_STATUS_ALIVE_IN then (t.setRole tdmIsolated 4).releaseSigned else t.takeover 2 none) else t := by
  subst ht
  simp only [State.partnerLost, hp, Bool.true_eq_false, if_false]

/-- A change of a lane on which heartbeats were heard, the latest at `t`. -/
theorem State.laneChange_heard {s : State} {k t : Nat} {up : Bool} (h : sget noTime s.tdm.hbAt k = some t) :
    s.laneChange k up = if up then (if s.linkUp (12 + k) ∧ s.tb.now < t + hbLimit then s.setLane k true else s)
      else if s.linkUp (12 + k) then (s.runTo (t + hbLimit)).setLane k false else s.setLane k false := by
  simp only [State.laneChange, h]

theorem State.searchEnds_unheard {s t : State} (hr : s.role = tdmSearch) (ht : t = s.runTo (s.tdm.searchAt + s.fld TDM_SEARCH_MS_v * unitMs))
    (hh : t.tdm.partner.hello = none) :
    s.searchEnds = if t.bit TDM_STATUS_ALIVE_IN = false ∨ t.bit TDM_CTRL_ROLE_PREF = true then (t.setRole tdmSolo 2).releaseSigned else t := by
  subst ht
  simp only [State.searchEnds, hr, ne_eq, not_true_eq_false, if_false, hh, true_and]

/-- Settles O52: each clause is the branch of its command that its hypotheses select. -/
theorem tandemLinesLanesAndTimers : Obligations.TandemLinesLanesAndTimers := by
  unfold Obligations.TandemLinesLanesAndTimers
  refine ⟨?ctrl, ?heartbeat, ?lost, ?lane, ?stopped, ?running, ?readback, ?search, ?fragment, ?jack, ?retry⟩
  case ctrl =>
    rintro v s t hon rfl
    have hblock (u : State) : s.onBlock TDM_CTRL u = u := State.onBlock_on (d := 11) u (by decide) hon
    refine ⟨fun hs he u hu => ?_, fun he => ?_, fun he hj u hu => ?_⟩
    · exact congrArg _ ((hblock _).trans ((State.writeTdmCtrl_sets s _).trans (State.tandemOn_searches hs he hu)))
    · exact congrArg _ ((hblock _).trans ((State.writeTdmCtrl_clears s _).trans (if_pos he)))
    · exact congrArg _ ((hblock _).trans ((State.writeTdmCtrl_clears s _).trans (State.tandemOff_follower he hj hu)))
  case heartbeat =>
    intro s he
    simp only [exec, execTandemHbSend, State.hbSend, he, Bool.true_eq_false, if_false]
  case lost =>
    intro s t hp ht
    have hlost := State.partnerLost_there hp ht
    have hexec : exec .partnerLinkLost s = .next s.partnerLost := rfl
    rw [hexec, hlost]
    have hne : tdmWheeler ≠ tdmLeader := by decide
    refine ⟨fun hl => ?_, fun hw ha => ?_, fun hw ha => ?_, fun hl hw => ?_⟩
    · rw [if_pos hl]
    · rw [if_neg (hw ▸ hne), if_pos hw, if_pos ha]
    · rw [if_neg (hw ▸ hne), if_pos hw, if_neg (by rw [ha]; exact Bool.false_ne_true)]
    · rw [if_neg hl, if_neg hw]
  case lane =>
    intro k s t h
    have hlane (up : Bool) := State.laneChange_heard (up := up) h
    refine ⟨fun hu hnow => congrArg _ ((hlane true).trans ?_), fun hu => ⟨congrArg _ ((hlane true).trans ?_), congrArg _ ((hlane false).trans ?_)⟩,
      fun hu => congrArg _ ((hlane false).trans ?_)⟩
    · simp only [hu, hnow, and_self, if_true]
    · simp only [hu, Bool.false_eq_true, false_and, if_false, if_true]
    · simp only [hu, Bool.false_eq_true, if_false]
    · simp only [hu, Bool.false_eq_true, if_false, if_true]
  case stopped =>
    intro s t ht
    constructor
    · intro hr
      simp only [exec, execAliveLineStopped, State.aliveStops, ← ht, hr, false_and, if_false]
    · intro hr hi
      simp only [exec, execAliveLineStopped, State.aliveStops, ← ht, hr, hi, true_or, and_self, if_true]
  case running =>
    intro s
    exact ⟨fun h => congrArg _ (if_pos h), fun h => congrArg _ (if_neg (by rw [h]; exact Bool.false_ne_true))⟩
  case readback =>
    rintro s t hd hf rfl
    exact congrArg _ (if_neg fun h => h.elim hd hf)
  case search =>
    intro s t hr ht hh
    have hend := State.searchEnds_unheard hr ht hh
    exact ⟨fun h => congrArg _ (hend.trans (if_pos h)), fun ha hp => congrArg _ (hend.trans (if_neg (by simp [ha, hp])))⟩
  case fragment =>
    intro k s
    constructor
    · intro h
      simp only [exec, execFragmentTimeout, State.fragmentLate, h]
    · intro p h
      simp only [exec, execFragmentTimeout, State.fragmentLate, h]
  case jack =>
    intro s e es hr hj
    simp only [exec, execJackTimeout, State.jackLate, hr, ne_eq, not_true_eq_false, if_false, hj]
  case retry =>
    intro s t ht
    constructor
    · intro hj
      simp only [exec, execResyncRetry, State.resyncAgain, ht, hj, if_true]
    · intro hj
      simp only [exec, execResyncRetry, State.resyncAgain, ht, hj, Bool.false_eq_true, if_false]

/-! ### Latch records, sets and shadows -/

/-- A latch record while no ticks run, or for the next tick, is kept as the latest. -/
theorem State.hearLatch_keeps {s : State} {r : LatchRec} (h : s.tick.running = false ∨ r.bound = s.tickNo + 1) :
    s.hearLatch r = { s with tdm := { s.tdm with latest := some r } } := by
  rcases h with h | h
  · simp only [State.hearLatch, h, if_true]
  · by_cases hrun : s.tick.running = false
    · simp only [State.hearLatch, hrun, if_true]
    · have hnow : r.bound ≠ s.tickNo := by omega
      simp only [State.hearLatch, if_neg hrun, if_neg hnow, if_pos h]

theorem State.csetLate_unheard {s : State} {t : Nat} (ht : s.tdm.csetAt = some t) (hs : s.tick.solved = false) (hp : s.inPair = true) (hc : s.tdm.cset = none) :
    s.csetLate = (s.runTo (t + 12 * unitUs)).giveUpCset := by
  simp only [State.csetLate, ht, hs, hp, hc, Bool.false_eq_true, Bool.true_eq_false, or_self, if_false]

theorem State.bit_setUnverifiedAt (r : State) (t : Option Nat) (x : Fld) :
    ({ r with tdm := { r.tdm with unverifiedAt := t } } : State).bit x = r.bit x := rfl

/-- A wheeler not verified for 150 us resynchronises while its partner is there. -/
theorem State.outOfStep_late {s r : State} {t : Nat} (ht : s.tdm.unverifiedAt = some t) (hr : s.role = tdmWheeler) (hto : r = s.runTo (t + 150 * unitUs)) :
    s.outOfStep = if r.bit TDM_STATUS_PARTNER then ({ r with tdm := { r.tdm with unverifiedAt := none } } : State).toResync 3
      else { r with tdm := { r.tdm with unverifiedAt := none } } := by
  subst hto
  have hbit := State.bit_setUnverifiedAt (s.runTo (t + 150 * unitUs)) none TDM_STATUS_PARTNER
  cases hp : (s.runTo (t + 150 * unitUs)).bit TDM_STATUS_PARTNER with
  | false => simp only [State.outOfStep, ht, hr, ne_eq, not_true_eq_false, if_false, hbit.trans hp, Bool.false_eq_true]
  | true => simp only [State.outOfStep, ht, hr, ne_eq, not_true_eq_false, if_false, hbit.trans hp, if_true]

theorem State.resyncRound_joined {s u v : State} {bytes left : Nat} {streams : Bool} (hs : s.tdm.syncing = true) (hj : s.journals = true)
    (hp : s.bit TDM_STATUS_PARTNER = true) (hu : u = (s.transferred.filter fun p => decide (p ∉ s.tdm.sent)).foldl (fun a p => a.sendTdm (.state (.part p))) s)
    (hv : v = ({ u with tdm := { u.tdm with sent := s.transferred } } : State).setReg64 TDM_RS_BYTES (({ u with tdm := { u.tdm with sent := s.transferred } } : State).reg64 TDM_RS_BYTES + bytes))
    (hjoin : v.tdm.joinAt.isSome = true) : s.resyncRound bytes left streams = v := by
  subst hu hv
  have hgo : ¬ (s.tdm.syncing = false ∨ s.journals = false ∨ s.bit TDM_STATUS_PARTNER = false) := by simp [hs, hj, hp]
  simp only [State.resyncRound, if_neg hgo, hjoin, if_true]

/-- Settles O54: a message that is heard acts on the state that notes it, and each clause is the branch of its action or timer that
its hypotheses select. -/
theorem tandemFramesAreComparedAndChecked : Obligations.TandemFramesAreComparedAndChecked := by
  unfold Obligations.TandemFramesAreComparedAndChecked
  refine ⟨?latch, ?ingest, ?uni, ?cset, ?sig, ?shadow, ?latchTimeout, ?csetTimeout, ?shadowDone, ?outOfStep, ?round⟩
  case latch =>
    intro h r s u hh
    have hact : exec (.latch h r) s = .next (u.hearLatch r) := congrArg _ (receive_hears _ hh)
    refine ⟨fun hk => hact.trans (congrArg _ (State.hearLatch_keeps hk)), fun hrun hb hframe hacting => hact.trans (congrArg _ ?_), fun hrun hb hb' => hact.trans (congrArg _ ?_)⟩
    · simp only [State.hearLatch, hrun, Bool.true_eq_false, if_false, if_pos hb, hframe, hacting, and_self, if_true]
    · simp only [State.hearLatch, hrun, Bool.true_eq_false, if_false, if_neg hb, if_neg hb']
  case ingest =>
    intro h s u i ts k d hh hi
    have hact (m : IngestMsg) : exec (.ingest h m) s = .next (u.hearIngest m) := congrArg _ (receive_hears _ hh)
    exact ⟨(hact _).trans (congrArg _ (if_pos hi)), (hact _).trans (congrArg _ (if_pos hi))⟩
  case uni =>
    intro h s u n a b slots hh hr
    have hact (m : IngestMsg) : exec (.ingest h m) s = .next (u.hearIngest m) := congrArg _ (receive_hears _ hh)
    have htake : u.takeUniverse n slots = u.setUni n ((u.uni n).took u.tb.now slots) := if_pos hr
    rw [hact, ← htake]
    rfl
  case cset =>
    intro h n d e s u hh
    have hact : exec (.cset h n d e) s = .next (u.hearCset n d e) := congrArg _ (receive_hears _ hh)
    have hgo : u.inPair = false ∨ n < u.tickNo → ¬ (u.inPair = true ∧ u.tickNo ≤ n) := by
      rintro (h1 | h1)
      · simp [h1]
      · simp [Nat.not_le.mpr h1]
    exact ⟨fun hp hn => hact.trans (congrArg _ (if_pos ⟨hp, hn⟩)), fun hnot => hact.trans (congrArg _ (if_neg (hgo hnot)))⟩
  case sig =>
    intro h n xs s u hh
    have hact : exec (.sig h n xs) s = .next (u.hearSigs n xs) := congrArg _ (receive_hears _ hh)
    exact ⟨fun hp => hact.trans (congrArg _ (if_pos hp)), fun hp => hact.trans (congrArg _ (if_neg (by rw [hp]; exact Bool.false_ne_true)))⟩
  case shadow =>
    rintro h n g x y s u v hh rfl
    have hact : exec (.shd h n g x y) s = .next (u.hearShd n g x y) := congrArg _ (receive_hears _ hh)
    constructor
    · intro hf
      simp only [hact, State.hearShd, hf]
    · intro b hf
      simp only [hact, State.hearShd, hf]
  case latchTimeout =>
    intro s hr hg hrun hv
    simp [exec, execLatchRecordTimeout, State.latchLate, hr, hg, hrun, hv]
  case csetTimeout => exact fun s t ht hs hp hc => congrArg _ (State.csetLate_unheard ht hs hp hc)
  case shadowDone =>
    intro s a ha
    constructor
    · simp only [exec, execShadowLaneDone, State.shadowDone, ha]
    · intro x ys
      simp only [exec, execShadowLaneDone, State.shadowDone, ha]
  case outOfStep =>
    intro s r t ht hr hto
    have hlate := State.outOfStep_late ht hr hto
    exact ⟨fun hp => congrArg _ (hlate.trans (if_pos hp)), fun hp => congrArg _ (hlate.trans (if_neg (by rw [hp]; exact Bool.false_ne_true)))⟩
  case round => exact fun bytes left st s u v hs hj hp hu hv hjoin => congrArg _ (State.resyncRound_joined hs hj hp hu hv hjoin)

end Sys2Proof.Machine
end


section
/-! Keys, grace and reserves (19_saddle_bridle_and_tack_room.md), images (20_images_and_migration.md) and the Shuset mode
(23_shuset_standalone_mode.md). O56, O57 and O58. -/

namespace Sys2Proof.Machine

/-! ### Keys, reserves and re-masking -/

theorem State.graceEnds_inGrace {s r : State} {i : Nat} (hg : (s.slot i).state = slotGrace) (hr : r = s.runTo (s.slot i).deadline) :
    s.graceEnds i = if r.tick.running then r else r.expireGrace i := by
  subst hr
  simp only [State.graceEnds, hg, ne_eq, not_true_eq_false, if_false]

theorem State.reserveWrite_due {s r : State} {ok : Bool} (hw : s.tkr.writing = true) (hu : s.tkr.underway = false) (hr : r = s.runTo s.tkr.retryAt) :
    s.reserveWrite ok = if ok then { r with tkr := { r.tkr with underway := true } }
      else ({ r with tkr := { r.tkr with retryAt := r.tb.now + unitSec } } : State).secNotice 5 := by
  subst hr
  have hgo : ¬ (s.tkr.writing = false ∨ s.tkr.underway = true) := by simp [hw, hu]
  simp only [State.reserveWrite, if_neg hgo]

/-- A reserve write completes with no session waiting. -/
theorem State.reserveDone_idle {s t : State} (hu : s.tkr.underway = true)
    (ht : t = ({ s with tkr := { s.tkr with underway := false, writing := decide (s.tkr.reserve + 1024 < 256), reserve := s.tkr.reserve + 1024, sessionEnd := (s.tkr.sessionEnd + 1024) % 4294967296 } } : State).clear TKR_STAT_SES_WAIT)
    (hw : t.tkr.waits = false) : s.reserveDone = { t with tm := { t.tm with held := false } } := by
  subst ht
  simp only [State.reserveDone, hu, Bool.true_eq_false, if_false, Nat.reducePow, hw, Bool.false_eq_true]

section
variable {s r : State} {p : Nat} (hb : s.bit TKR_STAT_TRNG_BAD = false) (hp : p = clampN 1 600 (s.fld TKR_GROOM_v) * 100 * unitMs)
  (hr : r = ownerSlots.foldl State.remaskSlot (s.runTo (s.tkr.groomed + p)).remaskDevice)
include hb hp hr

/-- A re-masking round that ends before the next is due notes its own time. -/
theorem State.remaskRound_inTime (h : r.tb.now < s.tkr.groomed + p + p) :
    s.remaskRound = { r with tkr := { r.tkr with groomed := s.tkr.groomed + p } } := by
  simp only [State.remaskRound, hb, ← hp, ← hr, Bool.false_eq_true, if_false, decide_eq_false (Nat.not_le.mpr h)]

/-- A re-masking round that ends a period late notes the present and is noticed with cause 2. -/
theorem State.remaskRound_late (h : s.tkr.groomed + p + p ≤ r.tb.now) :
    s.remaskRound = (({ r with tkr := { r.tkr with groomed := r.tb.now } } : State).raise TKR_STAT_GROOM_LATE).secNotice 2 := by
  simp only [State.remaskRound, hb, ← hp, ← hr, Bool.false_eq_true, if_false, decide_eq_true h, if_true]
end

/-- Settles O56: each clause is the branch of its command that its hypotheses select. -/
theorem keysGraceReserveAndGrooming : Obligations.KeysGraceReserveAndGrooming := by
  unfold Obligations.KeysGraceReserveAndGrooming
  refine ⟨?expiry, ?notice, ?none, ?write, ?done, ?remask, ?entropy, ?bad⟩
  case expiry =>
    intro i s r hg hr
    have hend := State.graceEnds_inGrace hg hr
    exact ⟨fun h => congrArg _ (hend.trans (if_pos h)), fun h => congrArg _ (hend.trans (if_neg (by rw [h]; exact Bool.false_ne_true)))⟩
  case notice =>
    rintro i s r x hg rfl rfl
    simp only [exec, execKeyGraceNotice, State.graceNotice, hg, ne_eq, not_true_eq_false, if_false]
  case none => exact fun i s hg => ⟨congrArg _ (if_pos hg), congrArg _ (if_pos hg)⟩
  case write =>
    intro s r hw hu hr
    exact ⟨congrArg _ ((State.reserveWrite_due hw hu hr).trans (if_pos rfl)), congrArg _ ((State.reserveWrite_due hw hu hr).trans (if_neg Bool.false_ne_true))⟩
  case done => exact fun s t hu _ ht hw => congrArg _ (State.reserveDone_idle hu ht hw)
  case remask =>
    intro s r p hb hp hr
    exact ⟨fun h => congrArg _ (State.remaskRound_inTime hb hp hr h), fun h => congrArg _ (State.remaskRound_late hb hp hr h)⟩
  case entropy => exact fun s => rfl
  case bad => exact fun s h => congrArg _ (if_pos h)

/-! ### Images -/

theorem State.confirmTrial_due {s r u : State} {i t f : Nat} {x : ImageSlot} (ho : s.onTrial = some i) (hn : s.mem.normalAt = some t) (hs : s.svc = 1)
    (hr : r = s.runTo (t + max 60 (s.fld IMG_TRIAL_v) * unitSec)) (hx : x = r.image i) (hf : f = max r.img.floor (hdrMinSvn x.header))
    (hu : u = r.setImage i { x with state := 4 }) :
    s.confirmTrial = (((({ u with img := { u.img with active := some i, floor := f } } : State).setFld IMG_STATUS_FLOOR f).clear IMG_STATUS_TRIAL).commitMigration).postBoot i 2 0 x.header := by
  subst hr hx hf hu
  simp only [State.confirmTrial, ho, hn, hs, ne_eq, not_true_eq_false, if_false]

/-- A start with no migration pending: it migrates unless the image is the one last migrated. -/
theorem State.startMigration_fresh {s : State} {i : Nat} (hi : s.img.slot = some i) (hm : s.img.migState ≠ 1) :
    s.startMigration = if beAt (hdrRiderHash s.img.header) 0 48 = s.img.hash then { s with img := { s.img with other := false } } else s.migrate s.img.header := by
  simp only [State.startMigration, hi, reduceCtorEq, hm, false_and, if_false]

section
variable {ip port dst dport slot chunk : Nat} {m : List Byte} {w : Bool} {s : State}
  (hon : s.domOn 13 = true) (hdst : dst = s.reg IMG_MG_IP) (hport : dport = s.fld IMG_MG_PORT_v) (hlen : 24 ≤ m.length)
  (hmagic : leAt m 0 4 = 0x5A4A4943) (hver : byteAt m 4 = 1) (hslot : slot = byteAt m 5) (hchunk : chunk = leAt m 8 4)
include hon hdst hport hlen hmagic hver hslot hchunk

/-- An MG0 datagram to the unit with the header of an image chunk meets the checks of R545 in order. -/
theorem State.mgChunk_checks :
    s.mgChunk ip port dst dport m w = if s.bridleOk 15 4 6 = false then (s.bridleDeny 15 6).mgReply ip port stNotPermitted chunk slot
      else if s.isBooted slot = true then s.mgReply ip port stNotPermitted chunk slot
      else if (chunkBad slot chunk (leAt m 16 4) (leAt m 12 4)).any (fun c => c.2) = true ∨ leAt m 6 2 ≠ 0 ∨ m.length - 24 ≠ leAt m 16 4 then s.mgReply ip port stBadField chunk slot
      else if crc32 (m.drop 24) ≠ leAt m 20 4 ∨ w = false then s.mgReply ip port stIntegrity chunk slot
      else (s.setImage slot ((s.image slot).stage chunk (leAt m 12 4) (m.drop 24) true)).mgReply ip port stOk chunk slot := by
  subst hslot hchunk
  have hgo : ¬ (s.domOn 13 = false ∨ dst ≠ s.reg IMG_MG_IP ∨ dport ≠ s.fld IMG_MG_PORT_v ∨ m.length < 24 ∨ leAt m 0 4 ≠ 0x5A4A4943 ∨ byteAt m 4 ≠ 1) := by
    simp only [hon, hdst, hport, hmagic, hver, Nat.not_lt.mpr hlen, Bool.true_eq_false, ne_eq, not_true_eq_false, or_self, not_false_iff]
  simp only [State.mgChunk, if_neg hgo, List.length_drop]
end

section
variable {s t : State} {v dst src : Nat} (hdst : dst = bitsOf v 0 1) (hsrc : src = bitsOf v 4 1)
  (ht : t = (s.setFld IMG_PEER_DST_SLOT dst).setFld IMG_PEER_SRC_SLOT src)
include hdst hsrc ht

/-- A write of IMG_PEER loads its slots, and with GO starts the copy where it may be. -/
theorem State.peerGo_writes :
    s.peerGo v = if bitB v 8 = false then t
      else if t.isBooted dst = true ∨ t.bit TDM_CTRL_EN = false ∨ t.tdm.partner.state = 0 ∨ t.tdm.partner.state = 7 then
        ({ t with tdm := { t.tdm with peer := none } } : State).setReg IMG_PEER_STAT 4
      else if ({ t with tdm := { t.tdm with peer := some (dst, src) } } : State).bit TDM_STATUS_PARTNER then
        (({ t with tdm := { t.tdm with peer := some (dst, src) } } : State).setReg IMG_PEER_STAT 1).wantImage
      else ({ t with tdm := { t.tdm with peer := some (dst, src) } } : State).setReg IMG_PEER_STAT 2 := by
  subst hdst hsrc ht
  rfl

/-- A write of IMG_PEER loads its slots, and with STOP ends the copy. -/
theorem State.peerStop_writes :
    s.peerStop v = if bitB v 9 then ({ t with tdm := { t.tdm with peer := none } } : State).setFld IMG_PEER_STAT_STATE 0 else t := by
  subst hdst hsrc ht
  rfl
end

/-- Settles O57: each clause is the branch of its command that its hypotheses select. -/
theorem imagesAreConfirmedMigratedAndPeered : Obligations.ImagesAreConfirmedMigratedAndPeered := by
  unfold Obligations.ImagesAreConfirmedMigratedAndPeered
  refine ⟨?confirm, ?migration, ?chunk, ?arp, ?peer⟩
  case confirm => exact fun s r u i t f x ho hn hs hr hx hf hu => congrArg _ (State.confirmTrial_due ho hn hs hr hx hf hu)
  case migration =>
    rintro s i hash hi rfl
    refine ⟨fun hm ht => ?_, fun hm hh => congrArg _ ((State.startMigration_fresh hi hm).trans (if_pos hh)),
      fun hm hh => congrArg _ ((State.startMigration_fresh hi hm).trans (if_neg hh))⟩
    simp only [exec, execConfigMigration, State.startMigration, hi, reduceCtorEq, hm, ht, and_self, if_false, if_true]
  case chunk =>
    intro ip port dport dst m w s slot chunk hon hdst hport hlen hmagic hver hslot hchunk
    have hchecks : exec (.mg0ImageChunk ip port dst dport m w) s = .next (s.mgChunk ip.toNat port.toNat dst.toNat dport.toNat m w) := rfl
    rw [hchecks, State.mgChunk_checks hon hdst hport hlen hmagic hver hslot hchunk]
    refine ⟨fun hb => by rw [if_pos hb], fun hb hs => ?_, fun hb hs hbad => ?_, fun hb hs hgood h0 hl => ⟨fun hcrc => ?_, fun hcrc hw => ?_⟩⟩
    all_goals rw [if_neg (by rw [hb]; exact Bool.false_ne_true.symm)]
    · rw [if_pos hs]
    · rw [if_neg (by rw [hs]; exact Bool.false_ne_true), if_pos hbad]
    · rw [if_neg (by rw [hs]; exact Bool.false_ne_true), if_neg (by simp [hgood, h0, hl]), if_pos hcrc]
    · rw [if_neg (by rw [hs]; exact Bool.false_ne_true), if_neg (by simp [hgood, h0, hl]), if_neg (by simp [hcrc, hw])]
  case arp =>
    intro t ip mac s hon ht
    have hgo : ¬ (s.domOn 13 = false ∨ t.toNat ≠ s.reg IMG_MG_IP) := by simp [hon, ht]
    exact congrArg _ (if_neg hgo)
  case peer =>
    intro v s t dst src hon hdst hsrc ht
    have hblock (u : State) : s.onBlock IMG_PEER u = u := State.onBlock_on (d := 1) u (by decide) hon
    have hgo : exec (.imgPeerGo v) s = .next (s.peerGo v.toNat) := congrArg _ (hblock _)
    have hstop : exec (.imgPeerStop v) s = .next (s.peerStop v.toNat) := congrArg _ (hblock _)
    rw [hgo, hstop, State.peerGo_writes hdst hsrc ht, State.peerStop_writes hdst hsrc ht]
    refine ⟨fun hv => by rw [if_pos hv], fun hv hnot => ?_, fun u hv hb he h0 h7 hu => ?_, fun hv => by rw [if_pos hv],
      fun hv => by rw [if_neg (by rw [hv]; exact Bool.false_ne_true)]⟩
    · rw [if_neg (by rw [hv]; exact Bool.false_ne_true.symm), if_pos hnot]
    · rw [if_neg (by rw [hv]; exact Bool.false_ne_true.symm), if_neg (by simp [hb, he, h0, h7]), ← hu]
      exact ⟨fun hp => by rw [if_pos hp], fun hp => by rw [if_neg (by rw [hp]; exact Bool.false_ne_true)]⟩

/-! ### Shuset -/

/-- The next cue of a list that plays, once its tick lies within LEAD. -/
theorem State.submitCue_due {s t : State} {l : CueList} {k x : Nat} {c : StoredCue} (hl : s.shu.list = some l) (hn : s.shu.next = some (k, x))
    (hc : l.cues[k]? = some c) (hx : x ≤ s.tickNo + l.lead) (ht : t = { s with shu := { s.shu with next := l.after k x c, newest := some x } }) :
    s.submitCue = if s.cueLate x s.stageTick then t.bump SHU_STATUS_LATE 1
      else if s.cueFits l.layer c.recs.length then ({ t with shu := { t.shu with shown := s.trimShown ++ [(x, k)] } } : State).holdCue l.layer x c.recs else t := by
  subst ht
  simp only [State.submitCue, hl, hn, hc, if_neg (Nat.not_lt.mpr hx)]

/-- A write that reaches the window and that the bridle permits takes effect and is answered OK. -/
theorem State.shuWrite_permitted {s : State} {p : ShuPort} {off v : Nat} (hr : s.shuReaches p = true) (hb : s.bridleOk p.index.1 p.index.2 2 = true) :
    s.shuWrite p off v = (s.writeShu off v).shuReply p off stOk v := by
  simp only [State.shuWrite, hr, hb, Bool.true_eq_false, if_false]

/-- A write that reaches the window without the bridle is denied. -/
theorem State.shuWrite_denied {s : State} {p : ShuPort} {off v : Nat} (hr : s.shuReaches p = true) (hb : s.bridleOk p.index.1 p.index.2 2 = false) :
    s.shuWrite p off v = (s.bridleDeny p.index.1 2).shuReply p off stNotPermitted v := by
  simp only [State.shuWrite, hr, hb, Bool.true_eq_false, if_false, if_true]

theorem State.writeShu_ctrl (s : State) (v : Nat) : s.writeShu SHU_CTRL v = s.writeShuCtrl v := if_pos rfl

theorem State.writeShu_master (s : State) (v : Nat) : s.writeShu SHU_MASTER v = s.writeShuMaster v :=
  (if_neg (by decide)).trans (if_pos rfl)

theorem State.writeShu_reinst0 (s : State) (v : Nat) : s.writeShu (SHU_REINST 0) v = s.writeShuReinst 0 v :=
  (if_neg (by decide)).trans ((if_neg (by decide)).trans (if_pos rfl))

theorem State.writeShu_reinst1 (s : State) (v : Nat) : s.writeShu (SHU_REINST 1) v = s.writeShuReinst 1 v :=
  (if_neg (by decide)).trans ((if_neg (by decide)).trans ((if_neg (by decide)).trans (if_pos rfl)))

/-- A read of SHU_EVT over MG0 takes the head of queue 0 where the bridle permits it, and else latches the IDLE item. -/
theorem State.shuEvent_mg0 {s : State} {ip : Word} {port : Half} (hr : s.shuReaches (.mg0 ip port) = true) :
    s.shuEvent (.mg0 ip port) = if s.bridleOk 15 4 7 = false then
        (s.bridleDeny 15 7).latchIdle.shuReply (.mg0 ip port) (SHU_EVT 0) stNotPermitted (leAt ((s.bridleDeny 15 7).latchIdle.queue 0).latched 0 4)
      else (s.readQueue 0).shuReply (.mg0 ip port) (SHU_EVT 0) stOk (leAt ((s.readQueue 0).queue 0).latched 0 4) := by
  simp only [State.shuEvent, hr, Bool.true_eq_false, if_false, ShuPort.index]
  rfl

/-- Settles O58: each clause is the branch of its command that its hypotheses select. -/
theorem shusetPlaysItsCues : Obligations.ShusetPlaysItsCues := by
  unfold Obligations.ShusetPlaysItsCues
  refine ⟨?load, ?submit, ?write, ?event⟩
  case load =>
    rintro s t hm hs hr rfl
    have hgo : ¬ (s.mode ≠ 2 ∨ s.svc ≠ 1 ∨ s.shu.read = true) := by simp [hm, hs, hr]
    constructor
    · intro hn
      simp only [exec, execCueListLoad, State.loadCues, if_neg hgo, hn, if_true]
    · intro hn
      simp only [exec, execCueListLoad, State.loadCues, if_neg hgo, hn, Bool.false_eq_true, if_false]
  case submit =>
    intro s t l k x c hl hn hc
    constructor
    · intro hx
      simp only [exec, execShuCueSubmit, State.submitCue, hl, hn, hc, if_pos hx]
    · intro hx ht
      have hexec : exec .shuCueSubmit s = .next s.submitCue := rfl
      rw [hexec, State.submitCue_due hl hn hc hx ht]
      refine ⟨fun hlate => by rw [if_pos hlate], fun hlate hfit => ?_, fun hlate hfit => ?_⟩
      · rw [if_neg (by rw [hlate]; exact Bool.false_ne_true), if_pos hfit]
      · rw [if_neg (by rw [hlate]; exact Bool.false_ne_true), if_neg (by rw [hfit]; exact Bool.false_ne_true)]
  case write =>
    intro p v s hr
    constructor
    · intro hb
      have hwrite (off : Nat) := State.shuWrite_permitted (off := off) (v := v.toNat) hr hb
      have hctrl : s.shuWrite p SHU_CTRL v.toNat = (s.writeShuCtrl v.toNat).shuReply p SHU_CTRL stOk v.toNat := by
        rw [hwrite, State.writeShu_ctrl]
      refine ⟨fun hgo hstop => congrArg _ ((if_pos ⟨hgo, hstop⟩).trans hctrl), fun hstop => congrArg _ ((if_pos hstop).trans hctrl),
        fun hblack => congrArg _ ((if_neg hblack).trans hctrl), congrArg _ ((hwrite _).trans ?_), congrArg _ ((hwrite _).trans ?_), congrArg _ ((hwrite _).trans ?_)⟩
      · rw [State.writeShu_master]
      · exact congrArg (fun t : State => t.shuReply p (SHU_REINST 0) stOk v.toNat) (State.writeShu_reinst0 s _)
      · exact congrArg (fun t : State => t.shuReply p (SHU_REINST 1) stOk v.toNat) (State.writeShu_reinst1 s _)
    · exact fun hb => congrArg _ (State.shuWrite_denied hr hb)
  case event =>
    intro ip port s t hr
    have hexec : exec (.shuEvtRead (.mg0 ip port)) s = .next (s.shuEvent (.mg0 ip port)) := rfl
    rw [hexec, State.shuEvent_mg0 hr]
    constructor
    · rintro hb rfl
      rw [if_neg (by rw [hb]; exact Bool.false_ne_true.symm)]
    · rintro hb rfl
      rw [if_pos hb]
      rfl

end Sys2Proof.Machine
end
